-- ==== Sys2Proof/Word.lean ====
section
/-! DEFINITION. The word types of the part and the position of a register field (spec/00_scope.md, R3). -/

namespace Sys2Proof

/-- A 32-bit register word or data item (R28, R36). -/
abbrev Word := BitVec 32

/-- One byte of the spool SRAM, of a message or of a key (R4). -/
abbrev Byte := BitVec 8

/-- The place of a register field: bit `lo` upward, `len` bits (R3: [m:l] includes both ends). -/
structure Fld where
  lo  : Nat
  len : Nat
  deriving DecidableEq, Repr

end Sys2Proof
end

