-- ==== Sys2Proof/Syntax.lean ====
section
/-! DEFINITION. The commands of the part: one constructor of `Instr` per row of spec/opcode_table.json, with the operands
the row's step needs from outside (an address, a value, a measured quantity). An event row (an edge on a pin, a comparator,
a deadline) carries as operands what the outside world decides; everything else is taken from the state. -/

namespace Sys2Proof

/-- The eight dies, in the order of SYS_DIE_STATUS (spec/01, Die status registers). -/
inductive Die where
  | cd | md | td | bd | ld0 | ld1 | ld2 | ld3
  deriving DecidableEq, Repr

/-- The die's bit in SYS_DIE_STATUS and SYS_DIE_EVENT. -/
def Die.bit : Die → Nat
  | .cd => 0 | .md => 1 | .td => 2 | .bd => 3 | .ld0 => 4 | .ld1 => 5 | .ld2 => 6 | .ld3 => 7

/-- The seven power domains, in the bit order of GUARD_STATUS (spec/02). -/
inductive Domain where
  | core | meas | excite | trunk | loopA | loopB | aon
  deriving DecidableEq, Repr

/-- The domain's bit in GUARD_STATUS, PWR_STATUS.ON and PWR_RUN_SET. -/
def Domain.bit : Domain → Nat
  | .core => 0 | .meas => 1 | .excite => 2 | .trunk => 3 | .loopA => 4 | .loopB => 5 | .aon => 6

/-- The two trunk ports (spec/10). -/
inductive Trx where
  | tw | te
  deriving DecidableEq, Repr

/-- 0 TW, 1 TE: the order of RING_RX_HDR and of the register blocks 0x40_0000 and 0x41_0000. -/
def Trx.idx : Trx → Nat
  | .tw => 0 | .te => 1

/-- The port on the other side of the node. -/
def Trx.other : Trx → Trx
  | .tw => .te | .te => .tw

abbrev PortId  := Fin 16
abbrev LaneId  := Fin 16
abbrev SliceId := Fin 5
abbrev SpoolId := Fin 4
abbrev GroupId := Fin 4
abbrev LdId    := Fin 4

/-- The OP field of a host command word (R28). -/
inductive HostOp where
  | read | write | burstRead | burstWrite
  deriving DecidableEq, Repr

/-- What hardware does to the register in the very CK cycle of a software write (R44). -/
inductive SameCycle where
  | none                       -- nothing
  | countEvent                 -- an event of the counter being written
  | hardware (v : Word)        -- hardware changes the register's bits to those of `v`
  deriving DecidableEq, Repr

/-- What one process port's loop looks like at a loop tick (R132, R133, R136, R137, R148): the 96 converter samples before the tick edge
in counts, the newest last, the terminal voltage and margin in 10 mV, whether the pass device is saturated with an error beyond 4
counts, whether it saturates only on the peaks of the tone. -/
structure PortSample where
  adc    : List Int
  vterm  : Int
  margin : Nat
  sat    : Bool
  clip   : Bool
  deriving DecidableEq, Repr

/-- What a PMBus read brings: the bytes the target sends at the first try and, where that one fails, at the second, with the packet
error code if it is used; none where the try ends in a NACK or a bus error (R285). -/
abbrev PmRead := List (List Byte)

/-- What a look at a page that is being turned on, or at page 0 while a change of VCORE is in progress, brings: how many tries of each
transaction of the sequence on the bus, in its order, have ended in a NACK, a bus error or a wrong packet error code (R285), the read of
STATUS_WORD (R286), and for a change of VCORE that of READ_VOUT (R287). -/
structure PagePoll where
  fails  : List Nat
  status : PmRead
  vout   : PmRead
  deriving DecidableEq, Repr

/-- What the part sees at one look at page 0 while a change of VCORE waits for its acknowledgement: STATUS_WORD, whether the PGOOD pin
has been high for 100 µs, and READ_VOUT (R286, R287). -/
structure VcorePoll where
  status : PmRead
  pgood  : Bool
  vout   : PmRead
  deriving DecidableEq, Repr

/-- Which signal an edge of the mains tracker came from (R57). -/
inductive MainsSrc where
  | sync | ripple
  deriving DecidableEq, Repr

/-- The signed codes of the four points of a calibration run (R100, R101), REPEAT codes each, and whether the input
protection conducted in any of its integrations (R102, test 1). -/
structure CalPoints where
  zero  : List Int
  plus  : List Int
  minus : List Int
  mid   : List Int
  clamp : Bool
  deriving DecidableEq, Repr

/-- Where an object-dictionary request comes from (R205): the host window, a trunk source node, or a tone source on a
port. -/
inductive OdPath where
  | host
  | trunk (src : BitVec 8)
  | tone (port : PortId) (src : BitVec 8)
  deriving DecidableEq, Repr

/-- One symbol correlation (R233): its chip offset modulo 64, what it exceeds the noise-floor estimate by in 0.25 dB, and its phase in
1/65536 turn. -/
structure Corr where
  offset : BitVec 6
  above  : Int
  phase  : BitVec 16
  deriving DecidableEq, Repr

/-- Four consecutive symbol correlations that may make a preamble (R233, R236): the correlations, the chip offset, the level estimate P_n
and the gain at which the AGC settles in 0.25 dB, and whether the clip detector fired in the four symbols. -/
structure Preamble where
  corr   : List Corr
  offset : BitVec 6
  level  : Int
  gain   : Int
  clip   : Bool
  deriving DecidableEq, Repr

/-- One failed send of a die-link word: a number that tells the words to one die apart (R16), and the write that this repeat carries past
its boundary strobe, if it does (R15). -/
structure LinkSend where
  word : Nat
  late : Option (BitVec 24 × Word)
  deriving DecidableEq, Repr

/-- A tone frame on the line: the bytes after its sync word, LEN to CRC (R155), and the CK cycles since the last sync bit (R158). -/
structure ToneHeard where
  bytes : List Byte
  ago   : Nat
  deriving DecidableEq, Repr

/-- An activation that a core takes: its lane, whether the core finds a parity error in the lane's state memory (R180, R181), and how many of its
blocks had executed when a guard action put the lane in HOLD during it (R179). -/
structure Activation where
  lane   : LaneId
  parity : Bool
  before : Nat
  deriving DecidableEq, Repr

/-- What the receiver estimates at a delimiter: level and gain in 0.25 dB (R234). -/
structure LineLevel where
  level : Int
  gain  : Int
  deriving DecidableEq, Repr

/-- A change of VCORE as the part sees it: whether the target acknowledged PAGE and VOUT_COMMAND, what was seen while the acknowledgement
was awaited, and whether the row lasts until the deadline; if not, and no look has ended the change, it is still in progress (R287). -/
structure VcoreSeen where
  sent  : Bool
  polls : List VcorePoll
  ended : Bool
  deriving DecidableEq, Repr

/-- The once-per-second reading of a page: READ_VOUT, READ_IOUT and STATUS_WORD (R287). -/
structure RailRead where
  vout   : PmRead
  iout   : PmRead
  status : PmRead
  deriving DecidableEq, Repr

/-- The functions of RST_FUNC0 and RST_FUNC1 (R299). -/
inductive Func where
  | port (n : PortId) | modem (n : PortId) | lane (n : LaneId) | slice (s : SliceId) | seq | spool (k : SpoolId)
  | tw | te | dec | ring | od | pmbus
  deriving DecidableEq, Repr

/-- The commands. -/
inductive Instr where
  -- Host port (spec/02)
  /-- Single read: SIZE, LEN and ADDR of the command word (R28); `ready`: the word is ready when it is clocked (R30). -/
  | hostRead (size : BitVec 2) (len : BitVec 4) (addr : BitVec 24) (ready : Bool)
  /-- Single write of one item (R28); an item narrower than 32 bits sits in the low bits of `data`. -/
  | hostWrite (size : BitVec 2) (len : BitVec 4) (addr : BitVec 24) (data : Word)
  /-- Burst read (R29); `notReady` lists the words that were not ready when clocked (R30). -/
  | burstRead (size : BitVec 2) (len : BitVec 4) (addr : BitVec 24) (notReady : List Nat)
  /-- Burst write of the given words (R29). -/
  | burstWrite (size : BitVec 2) (len : BitVec 4) (addr : BitVec 24) (words : List Word)
  /-- A transaction cut short by HCSn (R33): the items received in full, or how many words had been sent in full. -/
  | abort (op : HostOp) (size : BitVec 2) (len : BitVec 4) (addr : BitVec 24) (words : List Word) (sent : Nat)
  /-- A host read of an RC register (R39); `hw`: bits hardware sets in the clearing cycle (R44); `sent`: sent in full. -/
  | rcRead (addr : BitVec 24) (hw : Word) (sent : Bool)
  /-- A software write of a register with no row of its own (R42, R44). -/
  | registerWrite (addr : BitVec 24) (v : Word) (same : SameCycle)
  -- Dies and timebase (spec/01, spec/02)
  | linkWordFail (d : Die) (x : LinkSend)
  | ckLoss (d : Die)
  | ckReturn (d : Die)
  | tbLoad
  | tbInvalidate
  | timeWrap
  /-- The 1 kHz loop tick (R128), with what each port's loop looks like at it. -/
  | loopTick (samples : List PortSample)
  | cfgCommit
  | guardLockSet
  | guardUnlock (key : Word)
  -- Converter (spec/03)
  | frameBoundary
  /-- An integration of slice `s` ends with this signed code, before any negation for polarity (R71). -/
  | conversionEnd (s : SliceId) (code : Int)
  /-- An edge of a mains source, `wait` CK cycles after the command before it. -/
  | mainsEdge (src : MainsSrc) (rising : Bool) (wait : Nat)
  | mainsSecondUpdate
  /-- The protection conducts; `neg`: the overload is negative (R73). -/
  | clamp (s : SliceId) (neg : Bool)
  | clampRelease (s : SliceId)
  | recoveryHoldEnd (s : SliceId)
  | excOpen (g : GroupId)
  | excLimit (g : GroupId)
  | bufEn
  /-- The settle count ends; `inTol`: the output was within tolerance for the last 50 µs (R69). -/
  | refSettleEnd (inTol : Bool)
  | bufFault
  -- Sequencer and spools (spec/04)
  | seqStart
  | seqStop
  | trig0Edge (rising : Bool)
  | injStart
  | trig1Edge (rising : Bool)
  | injIntegrationStart (s : SliceId)
  | spoolEnable (k : SpoolId)
  -- Calibration (spec/05)
  | calRunStart
  | calRunEnd (p : CalPoints)
  | calStart (s : SliceId)
  | sliceTrimWrite (s : SliceId) (v : Word)
  | loopTrimStart (n : PortId)
  | loopTrimHighPoint (n : PortId)
  | loopTrimReturn (n : PortId)
  | loopTrimResult (n : PortId)
  | loopTrimApply (n : PortId)
  | loopTrimWrite (n : PortId) (v : Word)
  /-- A loop die's band-gap check ends with this difference in 0.1 ppm (R119). -/
  | bgCheckEnd (d : LdId) (diff : Int)
  | calExport
  | calExportCapture
  | calRestore
  -- Process ports (spec/06)
  | roleWrite (n : PortId) (role : BitVec 4)
  | loopSetWrite (n : PortId) (v : Word)
  | fsForce (n : PortId) (on : Bool)
  | miswireClr (n : PortId)
  | miswire (n : PortId)
  | miswireProbe (n : PortId)
  /-- A probe ends; `recurs`: a condition of R139 recurred (R140). -/
  | miswireProbeEnd (n : PortId) (recurs : Bool)
  | portShort (n : PortId)
  /-- The 20 ms probe of the IN supply switch ends; `limiting`: it ends limiting (R141). -/
  | shortProbe (n : PortId) (limiting : Bool)
  /-- The stage reaches 150 °C (`hot`), or falls below 135 °C (R142). -/
  | thermal (n : PortId) (hot : Bool)
  | keeperTimeout (d : LdId)
  | keeperKick (d : LdId)
  | vfieldLow (d : LdId)
  -- Elvan tone (spec/07)
  | carrier (n : PortId) (present : Bool)
  /-- A frame is complete; `lost`: the carrier was lost before the last CRC bit; `engineReady`: the dictionary engine answers in time
  (R162). -/
  | toneFrameReceived (n : PortId) (x : ToneHeard) (lost : Bool) (engineReady : Bool)
  | toneResponse (n : PortId)
  | toneSend (n : PortId)
  | toneTxStart (n : PortId)
  | toneTxDone (n : PortId)
  | toneQuietTimeout (n : PortId)
  | toneRspTimeout (n : PortId)
  | modemAbort (n : PortId)
  | rxRelease (n : PortId)
  -- Object dictionary and sessions (spec/09)
  | odRead (path : OdPath) (addr : BitVec 24)
  | odWrite (path : OdPath) (addr : BitVec 24) (type : Byte) (value : List Byte)
  | sessionOpen (path : OdPath) (level : Byte)
  | sessionAuth (path : OdPath) (hmac : List Byte)
  | sessionClose (path : OdPath)
  | sessionIdleTimeout (path : OdPath)
  | challengeExpiry (path : OdPath)
  | lockoutEnd (path : OdPath)
  -- Lanes (spec/08)
  | laneActivation (x : Activation)
  | laneRun (n : LaneId)
  | laneStop (n : LaneId)
  | laneHold (n : LaneId)
  | laneResume (n : LaneId)
  | clearLatch (n : LaneId)
  | resetStats (n : LaneId)
  | blkCfgWrite (n : LaneId) (b : Fin 12) (v : Word)
  | lotIdWrite (s : Fin 16) (v : Word)
  | lotClear (s : Fin 16)
  -- Dictionary window, snapshots and keys (spec/09)
  | odCmdRead
  | odCmdWrite
  | snapCapture (path : OdPath)
  | snapCapturePass
  | snapDataWrite (path : OdPath) (k : BitVec 8) (value : List Byte)
  | snapApply (path : OdPath)
  | applyCommit (path : OdPath)
  | snapApplyPass
  | snapAbort (path : OdPath)
  | snapOwnerTimeout
  | keyLoad
  | keyClear
  -- Trunk signal path (spec/10)
  | trxEnable (t : Trx)
  | selftestEnd (t : Trx) (ok : Bool)
  | trxDisable (t : Trx)
  | preambleQualify (t : Trx) (p : Preamble)
  /-- Sixteen symbol decisions of the followed frame (or, with `shadow`, of the candidate), the first in bit 15. -/
  | delimiterDetect (t : Trx) (syms : BitVec 16) (x : LineLevel) (shadow : Bool)
  | acqTimeout (t : Trx)
  /-- The header's last symbol has come: the soft decisions of its 256 bits, positive for a 0 (R235, R250). -/
  | headerDecision (t : Trx) (soft : List Int)
  /-- The next payload codeword [u, q_0, q_1 to q_(m_b−1)] of R248 reaches the decoder: the equalised soft decisions of its bits, positive
  for a 0 (R250). -/
  | codewordDecoded (t : Trx) (u : List Int) (q0 : List Int) (q : List Int)
  | txStart (t : Trx)
  | txEnd (t : Trx)
  | rxBlankEnd (t : Trx)
  | linkSilent (t : Trx)
  /-- The adapter has solved: the fitted set a_ls as 15 coefficient words, and E of the frame in 0.25 dB (R240). -/
  | dpdSolve (t : Trx) (ls : List Word) (err : Int)
  | dpdResetTw
  | dpdResetTe
  | bypassOpened
  | bypassClosed
  -- Stavelm ring (spec/11)
  | ringMessageAccept (t : Trx)
  | ringCycle
  | ringTime
  | ringOdResp
  | ringRecord
  | ringEvent
  | ringMailbox
  | ringLastGasp
  | ringCycleBoundary
  | noCycleTimeout
  | electionWaitEnd
  | echoTimeout (t : Trx)
  | codeHuntStep
  | dupEntryExpiry (src : BitVec 8)
  | ringSend
  | ringPop
  -- Clock and power (spec/12)
  | crystalLoss
  | xtalRetry
  | xtalCheckEnd (pass : Bool)
  | pwrRunSetWrite (v : Word)
  | standby
  | hibernate
  | faultClr
  | padRelease (v : Word)
  | wakePin (rising : Bool)
  | alarm
  | trunkActivity
  | hcsnWake
  | vsysReturn
  | pwrAlarmArm (v : Word)
  | pageAck
  /-- One read of STATUS_WORD (R286). -/
  | statusWordPoll (r : PagePoll)
  | regTimeout
  | xtalReady (pass : Bool)
  | pllLock
  | wakeDone
  | wakeRetry
  | tetherWakeRetry
  | vcoreChange (req : BitVec 16) (x : VcoreSeen)
  | railPoll (p : Fin 3) (x : RailRead)
  /-- The power-fail warning, with the hold-up voltage in mV (R312). -/
  | pfw (holdup : Nat)
  | tetherSwitchover
  | vsysLow
  /-- An S4 Tether result with this code (R198). -/
  | tetherResult (code : Int)
  /-- One millisecond of the governor: the averaged surplus in 10 µA, and whether the AON rail is below 3.10 V (R295). -/
  | governorTick (surplus : Int) (railLow : Bool)
  | aonRailLoss
  -- Resets, watchdog, log and test (spec/13)
  | rstPort (n : PortId)
  | rstModem (n : PortId)
  | rstLane (n : LaneId)
  | rstSlice (s : SliceId)
  | rstSeq
  | rstSpool (k : SpoolId)
  | rstTw
  | rstTe
  | rstDec
  | rstRing
  | rstOd
  | rstPmbus
  | funcResetEnd (f : Func)
  | por
  | resetn
  /-- A write of RST_SYS with this word, at the rise of HCSn that follows (R304). -/
  | fullReset (v : Word)
  | wdtEnable
  | wdtKick (v : Word)
  | wdtEarly
  | watchdog
  | logUnfreeze
  | logClear
  | testUnlock (v : Word)
  | testEnFall
  -- Further events
  /-- The last pilot of a frame arrives, with the signal-to-noise ratio estimated from its pilots in 0.25 dB (R235). -/
  | rxFrameEnd (t : Trx) (snr : Int)
  | clip (t : Trx)
  | syncTimeout (n : PortId)
  | bitTimingRecovered (n : PortId)
  | pllLockTimeout
  | domainOnTimeout (d : Domain)
  | smbusTimeout
  | resetnRelease
  deriving DecidableEq, Repr

end Sys2Proof
end

