-- ==== Sys2Proof/Decode.lean ====
section
/-! DEFINITION. Words of the command table. The table gives no row any bits (spec/opcode_table.json: every row's `fields`
are empty), so no word spells a command. -/

namespace Sys2Proof

/-- The command a word spells by the table's bits: none, since no row of the table has bits. -/
def decodeTableWord (_nbits _w : Nat) : Option Instr := none

end Sys2Proof
end

