-- ==== Sys2Proof/Config.lean ====
section
/-! DEFINITION. The values the spec leaves open: opaque constants without a body, so that no proof can see what they
are and a statement holds for every value of them. -/

namespace Sys2Proof.Config

/-- A byte of the spool SRAM that nothing has written since the CORE power-up number `epoch` (R93: its contents are not
defined); DESIGN CHOICE, log entry 3. -/
opaque sramByte : (epoch addr : Nat) → BitVec 8

/-- The `i`-th 16-byte challenge drawn from CD's on-die noise source (R211); DESIGN CHOICE, log entry 4. -/
opaque noise : (i : Nat) → BitVec 128

/-- The binary32 word the part gives for exp x; R172 bounds it by 1 ulp; log entry 5. -/
opaque expWord : BitVec 32 → BitVec 32

/-- The binary32 word the part gives for ln x; R172 bounds it by 1 ulp; log entry 5. -/
opaque lnWord : BitVec 32 → BitVec 32

/-- The word LIN_RTD gives for the parameters R0, A, B, C and the resistance: any method within 0.002 °C (R186); log
entry 6. -/
opaque rtdWord : (r0 a b c r : BitVec 32) → BitVec 32

/-- The voltage on the BALLAST ball in 10 mV at an elapsed time, as BD_STATUS.HOLDUP reports it (R332); DESIGN CHOICE, log entry 79. -/
opaque holdup : (ck : Nat) → BitVec 16

/-- W0 of a conversion whose value no rule fixes (R65: a sense pair on the driving side of an open string), and of every
other value the spec states to be undefined, for the `i`-th time one is needed; log entry 8. -/
opaque freeWord : (i : Nat) → BitVec 32

end Sys2Proof.Config
end

