-- ==== Sys2Proof/Machine/Bits.lean ====
section
/-! DEFINITION. Bit fields, byte order, checks (CRC) and roundings the meanings share. -/

namespace Sys2Proof

/-- The mask of a field within its register. -/
def Fld.mask (f : Fld) : Word := BitVec.ofNat 32 ((2 ^ f.len - 1) <<< f.lo)

/-- A field's value as an unsigned number (R3). -/
def Fld.get (f : Fld) (w : Word) : Nat := (w.toNat >>> f.lo) % 2 ^ f.len

/-- The word with a field replaced by `x`, cut to the field's width. -/
def Fld.set (f : Fld) (w : Word) (x : Nat) : Word :=
  (w &&& ~~~f.mask) ||| (BitVec.ofNat 32 ((x % 2 ^ f.len) <<< f.lo))

/-- `x` placed in the field, every other bit 0. -/
def Fld.put (f : Fld) (x : Nat) : Word := f.set 0 x

/-- A field read as two's complement (R3). -/
def Fld.sget (f : Fld) (w : Word) : Int := (BitVec.ofNat f.len (f.get w)).toInt

/-- A field of one bit as a truth value. -/
def Fld.on (f : Fld) (w : Word) : Bool := f.get w != 0

/-- Bit `i` of a field of several bits. -/
def Fld.bit (f : Fld) (i : Nat) : Fld := ⟨f.lo + i, 1⟩

end Sys2Proof

namespace Sys2Proof.Machine

/-- The word with bit `i` alone set. -/
def oneBit (i : Nat) : Word := BitVec.ofNat 32 (2 ^ i)

/-- 1 for true. -/
def b2n (b : Bool) : Nat := if b then 1 else 0

/-- An integer as a 32-bit two's complement word. -/
def ofInt32 (i : Int) : Word := BitVec.ofInt 32 i

/-- `i` held between `lo` and `hi`. -/
def clampInt (lo hi i : Int) : Int := if i < lo then lo else if hi < i then hi else i

/-- `x` held between `lo` and `hi`. -/
def clampNat (lo hi x : Nat) : Nat := if x < lo then lo else if hi < x then hi else x

/-- round(n / d) for d > 0: nearest, halves away from zero (R350). -/
def roundDiv (n : Int) (d : Nat) : Int :=
  if 0 ≤ n then ((2 * n + d) / (2 * (d : Int))) else -((2 * (-n) + d) / (2 * (d : Int)))

/-- floor(n / d) for d > 0 (R350). -/
def floorDiv (n : Int) (d : Nat) : Int := Int.fdiv n d

/-- Element `i` of a list, or `d` beyond its end. -/
def nth {α : Type} (l : List α) (i : Nat) (d : α) : α := (l[i]?).getD d

/-- The low `n` bytes of a number, least significant first (R4). -/
def leBytes : (n : Nat) → Nat → List Byte
  | 0, _ => []
  | n + 1, x => BitVec.ofNat 8 x :: leBytes n (x / 256)

/-- One byte of a number. -/
def byte (n : Nat) : Byte := BitVec.ofNat 8 n

/-- The number a little-endian byte list holds (R4). -/
def leNat : List Byte → Nat
  | [] => 0
  | b :: bs => b.toNat + 256 * leNat bs

/-- The number a big-endian byte list holds. -/
def beNat (bs : List Byte) : Nat := leNat bs.reverse

/-- The low `n` bytes of a number, most significant first. -/
def beBytes (n x : Nat) : List Byte := (leBytes n x).reverse

/-- A word's four bytes, least significant first (R4). -/
def wordBytes (w : Word) : List Byte := leBytes 4 w.toNat

/-- The word four bytes spell, least significant first. -/
def wordOfBytes (bs : List Byte) : Word := BitVec.ofNat 32 (leNat bs)

/-- A 64-bit value's bytes, least significant first. -/
def timeBytes (t : BitVec 64) : List Byte := leBytes 8 t.toNat

/-- `n` bytes of a list from offset `o`, zeros beyond its end. -/
def sliceBytes (bs : List Byte) (o n : Nat) : List Byte :=
  let r := (bs.drop o).take n
  r ++ List.replicate (n - r.length) 0

/-- The list cut into words of four bytes. -/
def bytesToWords (n : Nat) (bs : List Byte) : List Word :=
  (List.range n).map fun i => wordOfBytes (sliceBytes bs (4 * i) 4)

/-- The low word of a 64-bit value. -/
def lo32 (t : BitVec 64) : Word := t.truncate 32

/-- The high word of a 64-bit value. -/
def hi32 (t : BitVec 64) : Word := (t >>> 32).truncate 32

/-- A 64-bit value from its two words. -/
def pair64 (hi lo : Word) : BitVec 64 := hi ++ lo

/-- One bit of the reflected CRC-32C register (R120). -/
def crc32cBit (c : BitVec 32) : BitVec 32 := if c.getLsbD 0 then (c >>> 1) ^^^ 0x82F63B78#32 else c >>> 1

/-- One byte into the CRC-32C register. -/
def crc32cByte (c : BitVec 32) (b : Byte) : BitVec 32 :=
  crc32cBit (crc32cBit (crc32cBit (crc32cBit (crc32cBit (crc32cBit (crc32cBit (crc32cBit
    (c ^^^ b.setWidth 32))))))))

/-- CRC-32C of a byte string (R120): initial value and final XOR all ones, reflected. -/
def crc32c (bs : List Byte) : Word := ~~~(bs.foldl crc32cByte 0xFFFFFFFF#32)

/-- One bit of the CRC-16/CCITT register (R155). -/
def crc16Bit (c : BitVec 16) : BitVec 16 := if c.getLsbD 15 then (c <<< 1) ^^^ 0x1021#16 else c <<< 1

/-- One byte, most significant bit first, into the CRC-16/CCITT register. -/
def crc16Byte (c : BitVec 16) (b : Byte) : BitVec 16 :=
  crc16Bit (crc16Bit (crc16Bit (crc16Bit (crc16Bit (crc16Bit (crc16Bit (crc16Bit
    (c ^^^ (b.setWidth 16 <<< 8)))))))))

/-- The value read first in a list of pairs. -/
def lookupKey {α : Type} : List (Nat × α) → Nat → Option α
  | [], _ => none
  | (b, w) :: l, a => if a = b then some w else lookupKey l a

/-- A key's value replaced in place, or put in where keys keep rising. -/
def insertKey {α : Type} : List (Nat × α) → Nat → α → List (Nat × α)
  | [], a, v => [(a, v)]
  | (b, w) :: l, a, v =>
    if a = b then (a, v) :: l else if a < b then (a, v) :: (b, w) :: l else (b, w) :: insertKey l a v

/-- A key taken out of a list of pairs. -/
def eraseKey {α : Type} (l : List (Nat × α)) (a : Nat) : List (Nat × α) := l.filter fun p => p.1 != a

/-- `f` applied `n` times, to 0, 1, … n − 1 in turn, threading the value. -/
def iterate {σ : Type} (n : Nat) (f : Nat → σ → σ) (s : σ) : σ := (List.range n).foldl (fun s i => f i s) s

end Sys2Proof.Machine
end

