-- ==== Sys2Proof/Machine/Regs.lean ====
section
/-! DEFINITION. The register map of the part: the address of every register of the spec's register headings (`Reg`), the
position of every field of their field tables (`Fld`), and per block of R34 a table of what each register's bits are
(R8: RW, RC, W1P, G, M16, LK; everything else is RO or reserved) with its Reset column (R11). -/

/-! ## Register addresses (one function per register heading; arguments are the indices of the address formula) -/

namespace Sys2Proof.Reg

/-! ### Block sys -/
/-- `PART_ID` (spec/02_host_port_and_register_rules.md). -/
def PART_ID : Nat := 0x000000
/-- `CD_DIE_REV` (spec/02_host_port_and_register_rules.md). -/
def CD_DIE_REV : Nat := 0x000004
/-- `UNIQUE_ID_LO` (spec/02_host_port_and_register_rules.md). -/
def UNIQUE_ID_LO : Nat := 0x000008
/-- `UNIQUE_ID_HI` (spec/02_host_port_and_register_rules.md). -/
def UNIQUE_ID_HI : Nat := 0x00000C
/-- `SYS_DIE_STATUS` (spec/01_one_part_eight_dies.md). -/
def SYS_DIE_STATUS : Nat := 0x000010
/-- `SYS_DIE_EVENT` (spec/01_one_part_eight_dies.md). -/
def SYS_DIE_EVENT : Nat := 0x000014
/-- `SYS_LINK_RETRY` (spec/01_one_part_eight_dies.md). -/
def SYS_LINK_RETRY : Nat := 0x000018
/-- `IRQ_STATUS` (spec/02_host_port_and_register_rules.md). -/
def IRQ_STATUS : Nat := 0x000020
/-- `IRQ_ENABLE` (spec/02_host_port_and_register_rules.md). -/
def IRQ_ENABLE : Nat := 0x000024
/-- `HOST_EVENT` (spec/02_host_port_and_register_rules.md). -/
def HOST_EVENT : Nat := 0x000030
/-- `HOST_FAULT` (spec/02_host_port_and_register_rules.md). -/
def HOST_FAULT : Nat := 0x000034
/-- `TB_LO` (spec/02_host_port_and_register_rules.md). -/
def TB_LO : Nat := 0x000040
/-- `TB_HI` (spec/02_host_port_and_register_rules.md). -/
def TB_HI : Nat := 0x000044
/-- `TB_SET_LO` (spec/02_host_port_and_register_rules.md). -/
def TB_SET_LO : Nat := 0x000048
/-- `TB_SET_HI` (spec/02_host_port_and_register_rules.md). -/
def TB_SET_HI : Nat := 0x00004C
/-- `TB_CTL` (spec/02_host_port_and_register_rules.md). -/
def TB_CTL : Nat := 0x000050
/-- `TB_EVENT` (spec/02_host_port_and_register_rules.md). -/
def TB_EVENT : Nat := 0x000054
/-- `GUARD_CTL` (spec/02_host_port_and_register_rules.md). -/
def GUARD_CTL : Nat := 0x000060
/-- `GUARD_UNLOCK` (spec/02_host_port_and_register_rules.md). -/
def GUARD_UNLOCK : Nat := 0x000064
/-- `GUARD_STATUS` (spec/02_host_port_and_register_rules.md). -/
def GUARD_STATUS : Nat := 0x000068
/-- `GUARD_EVENT` (spec/02_host_port_and_register_rules.md). -/
def GUARD_EVENT : Nat := 0x00006C
/-- `GUARD_MISMATCH_COUNT` (spec/02_host_port_and_register_rules.md). -/
def GUARD_MISMATCH_COUNT : Nat := 0x000070
/-- `RST_FUNC0` (spec/13_resets_log_and_test_buses.md). -/
def RST_FUNC0 : Nat := 0x000100
/-- `RST_FUNC1` (spec/13_resets_log_and_test_buses.md). -/
def RST_FUNC1 : Nat := 0x000104
/-- `RST_BUSY0` (spec/13_resets_log_and_test_buses.md). -/
def RST_BUSY0 : Nat := 0x000108
/-- `RST_BUSY1` (spec/13_resets_log_and_test_buses.md). -/
def RST_BUSY1 : Nat := 0x00010C
/-- `RST_SYS` (spec/13_resets_log_and_test_buses.md). -/
def RST_SYS : Nat := 0x000110
/-- `RESET_CAUSE` (spec/13_resets_log_and_test_buses.md). -/
def RESET_CAUSE : Nat := 0x000114
/-- `SPOOL_CTL` (spec/04_sequences_and_spools.md). -/
def SPOOL_CTL (k : Nat) : Nat := 0x000200 + 0x40 * k
/-- `SPOOL_BASE` (spec/04_sequences_and_spools.md). -/
def SPOOL_BASE (k : Nat) : Nat := 0x000204 + 0x40 * k
/-- `SPOOL_SIZE` (spec/04_sequences_and_spools.md). -/
def SPOOL_SIZE (k : Nat) : Nat := 0x000208 + 0x40 * k
/-- `SPOOL_WM` (spec/04_sequences_and_spools.md). -/
def SPOOL_WM (k : Nat) : Nat := 0x00020C + 0x40 * k
/-- `SPOOL_WP` (spec/04_sequences_and_spools.md). -/
def SPOOL_WP (k : Nat) : Nat := 0x000210 + 0x40 * k
/-- `SPOOL_RP` (spec/04_sequences_and_spools.md). -/
def SPOOL_RP (k : Nat) : Nat := 0x000214 + 0x40 * k
/-- `SPOOL_FILL` (spec/04_sequences_and_spools.md). -/
def SPOOL_FILL (k : Nat) : Nat := 0x000218 + 0x40 * k
/-- `SPOOL_LOST` (spec/04_sequences_and_spools.md). -/
def SPOOL_LOST (k : Nat) : Nat := 0x00021C + 0x40 * k
/-- `SPOOL_EVENT` (spec/04_sequences_and_spools.md). -/
def SPOOL_EVENT (k : Nat) : Nat := 0x000220 + 0x40 * k
/-- `SPOOL_IRQ_EN` (spec/04_sequences_and_spools.md). -/
def SPOOL_IRQ_EN (k : Nat) : Nat := 0x000224 + 0x40 * k
/-- `SPOOL_STATUS` (spec/04_sequences_and_spools.md). -/
def SPOOL_STATUS (k : Nat) : Nat := 0x000228 + 0x40 * k
/-- `SPOOL2_SRC` (spec/04_sequences_and_spools.md). -/
def SPOOL2_SRC : Nat := 0x000300
/-- `CAL_STAGE` (spec/05_calibration_and_trim.md). -/
def CAL_STAGE (w : Nat) : Nat := 0x001000 + 0x4 * w
/-- `CAL_BLOCK_CTL` (spec/05_calibration_and_trim.md). -/
def CAL_BLOCK_CTL : Nat := 0x001400
/-- `CAL_BLOCK_STATUS` (spec/05_calibration_and_trim.md). -/
def CAL_BLOCK_STATUS : Nat := 0x001404
/-- `CAL_GEN` (spec/05_calibration_and_trim.md). -/
def CAL_GEN : Nat := 0x001408
/-- `CAL_BG_LIM` (spec/05_calibration_and_trim.md). -/
def CAL_BG_LIM : Nat := 0x00140C
/-- `CAL_EVENT` (spec/05_calibration_and_trim.md). -/
def CAL_EVENT : Nat := 0x001410
/-- `LOOP_TRIM_EVENT` (spec/05_calibration_and_trim.md). -/
def LOOP_TRIM_EVENT : Nat := 0x001414
/-- `CAL_IRQ_EN` (spec/05_calibration_and_trim.md). -/
def CAL_IRQ_EN : Nat := 0x001418
/-- `LOOP_TRIM_IRQ_EN` (spec/05_calibration_and_trim.md). -/
def LOOP_TRIM_IRQ_EN : Nat := 0x00141C

/-! ### Block aon -/
/-- `PWR_CTL` (spec/12_clock_power_and_tether.md). -/
def PWR_CTL : Nat := 0x0E0000
/-- `PWR_STATUS` (spec/12_clock_power_and_tether.md). -/
def PWR_STATUS : Nat := 0x0E0004
/-- `PWR_RUN_SET` (spec/12_clock_power_and_tether.md). -/
def PWR_RUN_SET : Nat := 0x0E0008
/-- `PWR_STANDBY_SET` (spec/12_clock_power_and_tether.md). -/
def PWR_STANDBY_SET : Nat := 0x0E000C
/-- `PWR_WAKE_EN` (spec/12_clock_power_and_tether.md). -/
def PWR_WAKE_EN : Nat := 0x0E0010
/-- `PWR_WAKE_CAUSE` (spec/12_clock_power_and_tether.md). -/
def PWR_WAKE_CAUSE : Nat := 0x0E0014
/-- `PWR_ALARM_LO` (spec/12_clock_power_and_tether.md). -/
def PWR_ALARM_LO : Nat := 0x0E0018
/-- `PWR_ALARM_HI` (spec/12_clock_power_and_tether.md). -/
def PWR_ALARM_HI : Nat := 0x0E001C
/-- `PWR_WAKE_CFG` (spec/12_clock_power_and_tether.md). -/
def PWR_WAKE_CFG : Nat := 0x0E0020
/-- `PWR_REG_CFG` (spec/12_clock_power_and_tether.md). -/
def PWR_REG_CFG : Nat := 0x0E0024
/-- `PWR_VCORE` (spec/12_clock_power_and_tether.md). -/
def PWR_VCORE : Nat := 0x0E0028
/-- `PWR_EVENT` (spec/12_clock_power_and_tether.md). -/
def PWR_EVENT : Nat := 0x0E0030
/-- `PWR_IRQ_EN` (spec/12_clock_power_and_tether.md). -/
def PWR_IRQ_EN : Nat := 0x0E0034
/-- `PWR_FAIL` (spec/12_clock_power_and_tether.md). -/
def PWR_FAIL : Nat := 0x0E0038
/-- `PWR_RETRY_COUNT` (spec/12_clock_power_and_tether.md). -/
def PWR_RETRY_COUNT : Nat := 0x0E003C
/-- `PAD_RELEASE` (spec/12_clock_power_and_tether.md). -/
def PAD_RELEASE : Nat := 0x0E0040
/-- `PAD_STATUS` (spec/12_clock_power_and_tether.md). -/
def PAD_STATUS : Nat := 0x0E0044
/-- `CLK_CTL` (spec/12_clock_power_and_tether.md). -/
def CLK_CTL : Nat := 0x0E0050
/-- `CLK_STATUS` (spec/12_clock_power_and_tether.md). -/
def CLK_STATUS : Nat := 0x0E0054
/-- `PWR_RAIL` (spec/12_clock_power_and_tether.md). -/
def PWR_RAIL (p : Nat) : Nat := 0x0E0060 + 0x4 * p
/-- `TETHER_CFG` (spec/12_clock_power_and_tether.md). -/
def TETHER_CFG : Nat := 0x0E0080
/-- `TETHER_STATUS` (spec/12_clock_power_and_tether.md). -/
def TETHER_STATUS : Nat := 0x0E0084
/-- `TETHER_ENTRY_COUNT` (spec/12_clock_power_and_tether.md). -/
def TETHER_ENTRY_COUNT : Nat := 0x0E0088
/-- `WDT_CTL` (spec/13_resets_log_and_test_buses.md). -/
def WDT_CTL : Nat := 0x0E00A0
/-- `WDT_KICK` (spec/13_resets_log_and_test_buses.md). -/
def WDT_KICK : Nat := 0x0E00A4
/-- `WDT_STATUS` (spec/13_resets_log_and_test_buses.md). -/
def WDT_STATUS : Nat := 0x0E00A8
/-- `WDT_EVENT` (spec/13_resets_log_and_test_buses.md). -/
def WDT_EVENT : Nat := 0x0E00AC
/-- `WDT_IRQ_EN` (spec/13_resets_log_and_test_buses.md). -/
def WDT_IRQ_EN : Nat := 0x0E00B0

/-! ### Block log -/
/-- `LOG_CTL` (spec/13_resets_log_and_test_buses.md). -/
def LOG_CTL : Nat := 0x0F0000
/-- `LOG_CLEAR` (spec/13_resets_log_and_test_buses.md). -/
def LOG_CLEAR : Nat := 0x0F0004
/-- `LOG_WP` (spec/13_resets_log_and_test_buses.md). -/
def LOG_WP : Nat := 0x0F0008
/-- `LOG_RP` (spec/13_resets_log_and_test_buses.md). -/
def LOG_RP : Nat := 0x0F000C
/-- `LOG_LOST` (spec/13_resets_log_and_test_buses.md). -/
def LOG_LOST : Nat := 0x0F0010
/-- `LOG_PAGE` (spec/13_resets_log_and_test_buses.md). -/
def LOG_PAGE : Nat := 0x0F0014
/-- `LOG_STATUS` (spec/13_resets_log_and_test_buses.md). -/
def LOG_STATUS : Nat := 0x0F0018
/-- `LOG_EVENT` (spec/13_resets_log_and_test_buses.md). -/
def LOG_EVENT : Nat := 0x0F001C
/-- `LOG_IRQ_EN` (spec/13_resets_log_and_test_buses.md). -/
def LOG_IRQ_EN : Nat := 0x0F0020
/-- `LOG_ENTRY` (spec/13_resets_log_and_test_buses.md). -/
def LOG_ENTRY (w : Nat) : Nat := 0x0F8000 + 0x4 * w

/-! ### Block meas -/
/-- `CONV_CTL` (spec/03_integrating_slices.md). -/
def CONV_CTL : Nat := 0x100000
/-- `FRAME_CTL` (spec/03_integrating_slices.md). -/
def FRAME_CTL : Nat := 0x100004
/-- `MAINS_CTL` (spec/03_integrating_slices.md). -/
def MAINS_CTL : Nat := 0x100008
/-- `MAINS_PERIOD` (spec/03_integrating_slices.md). -/
def MAINS_PERIOD : Nat := 0x10000C
/-- `FRAME_LEN` (spec/03_integrating_slices.md). -/
def FRAME_LEN : Nat := 0x100010
/-- `MAINS_STATUS` (spec/03_integrating_slices.md). -/
def MAINS_STATUS : Nat := 0x100014
/-- `CONV_EVENT` (spec/03_integrating_slices.md). -/
def CONV_EVENT : Nat := 0x100018
/-- `CONV_IRQ_EN` (spec/03_integrating_slices.md). -/
def CONV_IRQ_EN : Nat := 0x10001C
/-- `REF_CTL` (spec/03_integrating_slices.md). -/
def REF_CTL : Nat := 0x100020
/-- `REF_STATUS` (spec/03_integrating_slices.md). -/
def REF_STATUS : Nat := 0x100024
/-- `REF_TRIG_IGNORED` (spec/03_integrating_slices.md). -/
def REF_TRIG_IGNORED : Nat := 0x100028
/-- `EXC_UNPAIRED` (spec/03_integrating_slices.md). -/
def EXC_UNPAIRED : Nat := 0x10002C
/-- `CLAMP_COUNT` (spec/03_integrating_slices.md). -/
def CLAMP_COUNT (s : Nat) : Nat := 0x100030 + 0x4 * s
/-- `SLICE_STATUS` (spec/03_integrating_slices.md). -/
def SLICE_STATUS (s : Nat) : Nat := 0x100050 + 0x4 * s
/-- `MD_DIE_REV` (spec/02_host_port_and_register_rules.md). -/
def MD_DIE_REV : Nat := 0x1000FC
/-- `CHAN_CFG` (spec/03_integrating_slices.md). -/
def CHAN_CFG (c : Nat) : Nat := 0x100100 + 0x4 * c
/-- `EXC_CTL` (spec/03_integrating_slices.md). -/
def EXC_CTL (g : Nat) : Nat := 0x100200 + 0x4 * g
/-- `EXC_STATUS` (spec/03_integrating_slices.md). -/
def EXC_STATUS : Nat := 0x100210
/-- `SEQ_CTL` (spec/04_sequences_and_spools.md). -/
def SEQ_CTL : Nat := 0x100300
/-- `SEQ_CFG` (spec/04_sequences_and_spools.md). -/
def SEQ_CFG : Nat := 0x100304
/-- `SEQ_STATUS` (spec/04_sequences_and_spools.md). -/
def SEQ_STATUS : Nat := 0x100308
/-- `INJ_CTL` (spec/04_sequences_and_spools.md). -/
def INJ_CTL : Nat := 0x100310
/-- `INJ_CFG` (spec/04_sequences_and_spools.md). -/
def INJ_CFG : Nat := 0x100314
/-- `SEQ_EVENT` (spec/04_sequences_and_spools.md). -/
def SEQ_EVENT : Nat := 0x100318
/-- `SEQ_IRQ_EN` (spec/04_sequences_and_spools.md). -/
def SEQ_IRQ_EN : Nat := 0x10031C
/-- `REQUEUE_COUNT` (spec/04_sequences_and_spools.md). -/
def REQUEUE_COUNT : Nat := 0x100320
/-- `TRIG_OVERRUN_COUNT` (spec/04_sequences_and_spools.md). -/
def TRIG_OVERRUN_COUNT : Nat := 0x100324
/-- `AVG_DISCARD_COUNT` (spec/04_sequences_and_spools.md). -/
def AVG_DISCARD_COUNT : Nat := 0x100328
/-- `SEQ_ENTRY` (spec/04_sequences_and_spools.md). -/
def SEQ_ENTRY (i : Nat) : Nat := 0x100400 + 0x4 * i
/-- `INJ_ENTRY` (spec/04_sequences_and_spools.md). -/
def INJ_ENTRY (i : Nat) : Nat := 0x100480 + 0x4 * i
/-- `CHAN_AVG` (spec/04_sequences_and_spools.md). -/
def CHAN_AVG (c : Nat) : Nat := 0x100500 + 0x4 * c
/-- `REEL_CTL` (spec/05_calibration_and_trim.md). -/
def REEL_CTL : Nat := 0x101000
/-- `REEL_PERIOD` (spec/05_calibration_and_trim.md). -/
def REEL_PERIOD : Nat := 0x101004
/-- `CAL_RUN` (spec/05_calibration_and_trim.md). -/
def CAL_RUN : Nat := 0x101008
/-- `REEL_STATUS` (spec/05_calibration_and_trim.md). -/
def REEL_STATUS : Nat := 0x10100C
/-- `CAL_LIM_RANGE` (spec/05_calibration_and_trim.md). -/
def CAL_LIM_RANGE : Nat := 0x101010
/-- `CAL_LIM_STEP` (spec/05_calibration_and_trim.md). -/
def CAL_LIM_STEP : Nat := 0x101014
/-- `CAL_LIM_FIRST` (spec/05_calibration_and_trim.md). -/
def CAL_LIM_FIRST : Nat := 0x101018
/-- `CAL_LIM_CHECK` (spec/05_calibration_and_trim.md). -/
def CAL_LIM_CHECK : Nat := 0x10101C
/-- `CAL_MAXAGE` (spec/05_calibration_and_trim.md). -/
def CAL_MAXAGE : Nat := 0x101020
/-- `REEL_SKIP_COUNT` (spec/05_calibration_and_trim.md). -/
def REEL_SKIP_COUNT : Nat := 0x101024
/-- `SLICE_TRIM` (spec/05_calibration_and_trim.md). -/
def SLICE_TRIM (s : Nat) : Nat := 0x101100 + 0x20 * s
/-- `SLICE_TRIM_STAGED` (spec/05_calibration_and_trim.md). -/
def SLICE_TRIM_STAGED (s : Nat) : Nat := 0x101104 + 0x20 * s
/-- `SLICE_CAL_STATUS` (spec/05_calibration_and_trim.md). -/
def SLICE_CAL_STATUS (s : Nat) : Nat := 0x101108 + 0x20 * s
/-- `SLICE_CAL_COUNT` (spec/05_calibration_and_trim.md). -/
def SLICE_CAL_COUNT (s : Nat) : Nat := 0x10110C + 0x20 * s
/-- `SLICE_REJECT_COUNT` (spec/05_calibration_and_trim.md). -/
def SLICE_REJECT_COUNT (s : Nat) : Nat := 0x101110 + 0x20 * s
/-- `SLICE_CAL_TIME_LO` (spec/05_calibration_and_trim.md). -/
def SLICE_CAL_TIME_LO (s : Nat) : Nat := 0x101114 + 0x20 * s
/-- `SLICE_CAL_TIME_HI` (spec/05_calibration_and_trim.md). -/
def SLICE_CAL_TIME_HI (s : Nat) : Nat := 0x101118 + 0x20 * s

/-! ### Block port -/
/-- `PORT_CTL` (spec/06_process_ports.md). -/
def PORT_CTL (n : Nat) : Nat := 0x200000 + 0x10000 * n
/-- `LOOP_SET` (spec/06_process_ports.md). -/
def LOOP_SET (n : Nat) : Nat := 0x200004 + 0x10000 * n
/-- `LOOP_SLEW` (spec/06_process_ports.md). -/
def LOOP_SLEW (n : Nat) : Nat := 0x200008 + 0x10000 * n
/-- `LOOP_FS` (spec/06_process_ports.md). -/
def LOOP_FS (n : Nat) : Nat := 0x20000C + 0x10000 * n
/-- `LOOP_TOL` (spec/06_process_ports.md). -/
def LOOP_TOL (n : Nat) : Nat := 0x200010 + 0x10000 * n
/-- `PORT_PROT` (spec/06_process_ports.md). -/
def PORT_PROT (n : Nat) : Nat := 0x200014 + 0x10000 * n
/-- `LOOP_RB` (spec/06_process_ports.md). -/
def LOOP_RB (n : Nat) : Nat := 0x200018 + 0x10000 * n
/-- `LOOP_TARGET` (spec/06_process_ports.md). -/
def LOOP_TARGET (n : Nat) : Nat := 0x20001C + 0x10000 * n
/-- `PORT_STATUS` (spec/06_process_ports.md). -/
def PORT_STATUS (n : Nat) : Nat := 0x200020 + 0x10000 * n
/-- `PORT_EVENT` (spec/06_process_ports.md). -/
def PORT_EVENT (n : Nat) : Nat := 0x200024 + 0x10000 * n
/-- `PORT_IRQ_EN` (spec/06_process_ports.md). -/
def PORT_IRQ_EN (n : Nat) : Nat := 0x200028 + 0x10000 * n
/-- `MISWIRE_COUNT` (spec/06_process_ports.md). -/
def MISWIRE_COUNT (n : Nat) : Nat := 0x20002C + 0x10000 * n
/-- `PORT_VTERM` (spec/06_process_ports.md). -/
def PORT_VTERM (n : Nat) : Nat := 0x200030 + 0x10000 * n
/-- `MODEM_CTL` (spec/07_elvan_loop_tone.md). -/
def MODEM_CTL (n : Nat) : Nat := 0x200400 + 0x10000 * n
/-- `MODEM_ADDR` (spec/07_elvan_loop_tone.md). -/
def MODEM_ADDR (n : Nat) : Nat := 0x200404 + 0x10000 * n
/-- `MODEM_TIMING` (spec/07_elvan_loop_tone.md). -/
def MODEM_TIMING (n : Nat) : Nat := 0x200408 + 0x10000 * n
/-- `MODEM_STATUS` (spec/07_elvan_loop_tone.md). -/
def MODEM_STATUS (n : Nat) : Nat := 0x20040C + 0x10000 * n
/-- `MODEM_EVENT` (spec/07_elvan_loop_tone.md). -/
def MODEM_EVENT (n : Nat) : Nat := 0x200410 + 0x10000 * n
/-- `MODEM_IRQ_EN` (spec/07_elvan_loop_tone.md). -/
def MODEM_IRQ_EN (n : Nat) : Nat := 0x200414 + 0x10000 * n
/-- `MODEM_RX_COUNT` (spec/07_elvan_loop_tone.md). -/
def MODEM_RX_COUNT (n : Nat) : Nat := 0x200418 + 0x10000 * n
/-- `MODEM_ERR_COUNT` (spec/07_elvan_loop_tone.md). -/
def MODEM_ERR_COUNT (n : Nat) : Nat := 0x20041C + 0x10000 * n
/-- `MODEM_TMO_COUNT` (spec/07_elvan_loop_tone.md). -/
def MODEM_TMO_COUNT (n : Nat) : Nat := 0x200420 + 0x10000 * n
/-- `MODEM_TX_HDR` (spec/07_elvan_loop_tone.md). -/
def MODEM_TX_HDR (n : Nat) : Nat := 0x200440 + 0x10000 * n
/-- `MODEM_TX_DATA` (spec/07_elvan_loop_tone.md). -/
def MODEM_TX_DATA (n : Nat) (w : Nat) : Nat := 0x200480 + 0x10000 * n + 0x4 * w
/-- `MODEM_RX_HDR` (spec/07_elvan_loop_tone.md). -/
def MODEM_RX_HDR (n : Nat) : Nat := 0x2004C0 + 0x10000 * n
/-- `MODEM_RX_TIME_LO` (spec/07_elvan_loop_tone.md). -/
def MODEM_RX_TIME_LO (n : Nat) : Nat := 0x2004C4 + 0x10000 * n
/-- `MODEM_RX_TIME_HI` (spec/07_elvan_loop_tone.md). -/
def MODEM_RX_TIME_HI (n : Nat) : Nat := 0x2004C8 + 0x10000 * n
/-- `MODEM_RX_DATA` (spec/07_elvan_loop_tone.md). -/
def MODEM_RX_DATA (n : Nat) (w : Nat) : Nat := 0x200500 + 0x10000 * n + 0x4 * w
/-- `LOOP_TRIM_CTL` (spec/05_calibration_and_trim.md). -/
def LOOP_TRIM_CTL (n : Nat) : Nat := 0x201000 + 0x10000 * n
/-- `LOOP_TRIM_STATUS` (spec/05_calibration_and_trim.md). -/
def LOOP_TRIM_STATUS (n : Nat) : Nat := 0x201004 + 0x10000 * n
/-- `LOOP_TRIM` (spec/05_calibration_and_trim.md). -/
def LOOP_TRIM (n : Nat) : Nat := 0x201008 + 0x10000 * n
/-- `LOOP_TRIM_STAGED` (spec/05_calibration_and_trim.md). -/
def LOOP_TRIM_STAGED (n : Nat) : Nat := 0x20100C + 0x10000 * n
/-- `LOOP_TRIM_POINTS_LO` (spec/05_calibration_and_trim.md). -/
def LOOP_TRIM_POINTS_LO (n : Nat) : Nat := 0x201010 + 0x10000 * n
/-- `LOOP_TRIM_POINTS_HI` (spec/05_calibration_and_trim.md). -/
def LOOP_TRIM_POINTS_HI (n : Nat) : Nat := 0x201014 + 0x10000 * n
/-- `LOOP_CAL_COUNT` (spec/05_calibration_and_trim.md). -/
def LOOP_CAL_COUNT (n : Nat) : Nat := 0x201018 + 0x10000 * n
/-- `LOOP_REJECT_COUNT` (spec/05_calibration_and_trim.md). -/
def LOOP_REJECT_COUNT (n : Nat) : Nat := 0x20101C + 0x10000 * n
/-- `LOOP_CAL_TIME_LO` (spec/05_calibration_and_trim.md). -/
def LOOP_CAL_TIME_LO (n : Nat) : Nat := 0x201020 + 0x10000 * n
/-- `LOOP_CAL_TIME_HI` (spec/05_calibration_and_trim.md). -/
def LOOP_CAL_TIME_HI (n : Nat) : Nat := 0x201024 + 0x10000 * n

/-! ### Block ld -/
/-- `KEEPER_CTL` (spec/06_process_ports.md). -/
def KEEPER_CTL (d : Nat) : Nat := 0x300000 + 0x10000 * d
/-- `KEEPER_KICK` (spec/06_process_ports.md). -/
def KEEPER_KICK (d : Nat) : Nat := 0x300004 + 0x10000 * d
/-- `KEEPER_STATUS` (spec/06_process_ports.md). -/
def KEEPER_STATUS (d : Nat) : Nat := 0x300008 + 0x10000 * d
/-- `LD_EVENT` (spec/06_process_ports.md). -/
def LD_EVENT (d : Nat) : Nat := 0x300010 + 0x10000 * d
/-- `LD_IRQ_EN` (spec/06_process_ports.md). -/
def LD_IRQ_EN (d : Nat) : Nat := 0x300014 + 0x10000 * d
/-- `LD_SUMMARY` (spec/06_process_ports.md). -/
def LD_SUMMARY (d : Nat) : Nat := 0x300018 + 0x10000 * d
/-- `LD_DIE_REV` (spec/02_host_port_and_register_rules.md). -/
def LD_DIE_REV (d : Nat) : Nat := 0x3000FC + 0x10000 * d
/-- `BG_CHECK` (spec/05_calibration_and_trim.md). -/
def BG_CHECK (d : Nat) : Nat := 0x301000 + 0x10000 * d

/-! ### Block trx -/
/-- `TRX_CTL` (spec/10_trunk_signal_path.md). -/
def TRX_CTL (t : Nat) : Nat := 0x400000 + 0x10000 * t
/-- `TRX_DETECT` (spec/10_trunk_signal_path.md). -/
def TRX_DETECT (t : Nat) : Nat := 0x400004 + 0x10000 * t
/-- `TRX_TIMING` (spec/10_trunk_signal_path.md). -/
def TRX_TIMING (t : Nat) : Nat := 0x400008 + 0x10000 * t
/-- `TRX_STATUS` (spec/10_trunk_signal_path.md). -/
def TRX_STATUS (t : Nat) : Nat := 0x40000C + 0x10000 * t
/-- `TRX_LEVEL` (spec/10_trunk_signal_path.md). -/
def TRX_LEVEL (t : Nat) : Nat := 0x400010 + 0x10000 * t
/-- `TRX_SNR` (spec/10_trunk_signal_path.md). -/
def TRX_SNR (t : Nat) : Nat := 0x400014 + 0x10000 * t
/-- `TRX_EVENT` (spec/10_trunk_signal_path.md). -/
def TRX_EVENT (t : Nat) : Nat := 0x400018 + 0x10000 * t
/-- `TRX_IRQ_EN` (spec/10_trunk_signal_path.md). -/
def TRX_IRQ_EN (t : Nat) : Nat := 0x40001C + 0x10000 * t
/-- `TRX_CAPTURE_COUNT` (spec/10_trunk_signal_path.md). -/
def TRX_CAPTURE_COUNT (t : Nat) : Nat := 0x400020 + 0x10000 * t
/-- `TRX_LOST_TO_CAPTURE` (spec/10_trunk_signal_path.md). -/
def TRX_LOST_TO_CAPTURE (t : Nat) : Nat := 0x400024 + 0x10000 * t
/-- `TRX_HDR_FAIL_COUNT` (spec/10_trunk_signal_path.md). -/
def TRX_HDR_FAIL_COUNT (t : Nat) : Nat := 0x400028 + 0x10000 * t
/-- `TRX_ACQ_TIMEOUT_COUNT` (spec/10_trunk_signal_path.md). -/
def TRX_ACQ_TIMEOUT_COUNT (t : Nat) : Nat := 0x40002C + 0x10000 * t
/-- `TRX_RX_FRAME_COUNT` (spec/10_trunk_signal_path.md). -/
def TRX_RX_FRAME_COUNT (t : Nat) : Nat := 0x400030 + 0x10000 * t
/-- `TRX_TX_FRAME_COUNT` (spec/10_trunk_signal_path.md). -/
def TRX_TX_FRAME_COUNT (t : Nat) : Nat := 0x400034 + 0x10000 * t
/-- `TRX_RX_TIME_LO` (spec/10_trunk_signal_path.md). -/
def TRX_RX_TIME_LO (t : Nat) : Nat := 0x400040 + 0x10000 * t
/-- `TRX_RX_TIME_HI` (spec/10_trunk_signal_path.md). -/
def TRX_RX_TIME_HI (t : Nat) : Nat := 0x400044 + 0x10000 * t
/-- `TRX_TX_TIME_LO` (spec/10_trunk_signal_path.md). -/
def TRX_TX_TIME_LO (t : Nat) : Nat := 0x400048 + 0x10000 * t
/-- `TRX_TX_TIME_HI` (spec/10_trunk_signal_path.md). -/
def TRX_TX_TIME_HI (t : Nat) : Nat := 0x40004C + 0x10000 * t
/-- `TRX_CODE8_16` (spec/10_trunk_signal_path.md). -/
def TRX_CODE8_16 (t : Nat) : Nat := 0x400050 + 0x10000 * t
/-- `TRX_CODE32` (spec/10_trunk_signal_path.md). -/
def TRX_CODE32 (t : Nat) : Nat := 0x400054 + 0x10000 * t
/-- `TRX_CODE64_LO` (spec/10_trunk_signal_path.md). -/
def TRX_CODE64_LO (t : Nat) : Nat := 0x400058 + 0x10000 * t
/-- `TRX_CODE64_HI` (spec/10_trunk_signal_path.md). -/
def TRX_CODE64_HI (t : Nat) : Nat := 0x40005C + 0x10000 * t

/-! ### Block dec -/
/-- `DEC_CTL` (spec/11_stavelm_ring.md). -/
def DEC_CTL : Nat := 0x420000
/-- `DEC_STATUS` (spec/11_stavelm_ring.md). -/
def DEC_STATUS : Nat := 0x420004
/-- `DEC_EVENT` (spec/11_stavelm_ring.md). -/
def DEC_EVENT : Nat := 0x420008
/-- `DEC_IRQ_EN` (spec/11_stavelm_ring.md). -/
def DEC_IRQ_EN : Nat := 0x42000C
/-- `DEC_CW_COUNT` (spec/11_stavelm_ring.md). -/
def DEC_CW_COUNT : Nat := 0x420010
/-- `DEC_CW_FAIL_COUNT` (spec/11_stavelm_ring.md). -/
def DEC_CW_FAIL_COUNT : Nat := 0x420014
/-- `DEC_ITER_SUM` (spec/11_stavelm_ring.md). -/
def DEC_ITER_SUM : Nat := 0x420018
/-- `TD_DIE_REV` (spec/02_host_port_and_register_rules.md). -/
def TD_DIE_REV : Nat := 0x4200FC
/-- `DPD_CTL` (spec/10_trunk_signal_path.md). -/
def DPD_CTL : Nat := 0x420400
/-- `DPD_STATUS` (spec/10_trunk_signal_path.md). -/
def DPD_STATUS : Nat := 0x420404
/-- `DPD_ERR` (spec/10_trunk_signal_path.md). -/
def DPD_ERR : Nat := 0x420408
/-- `DPD_EVENT` (spec/10_trunk_signal_path.md). -/
def DPD_EVENT : Nat := 0x420410
/-- `DPD_IRQ_EN` (spec/10_trunk_signal_path.md). -/
def DPD_IRQ_EN : Nat := 0x420414
/-- `DPD_REVERT_COUNT` (spec/10_trunk_signal_path.md). -/
def DPD_REVERT_COUNT : Nat := 0x420418
/-- `DPD_COEF_TW` (spec/10_trunk_signal_path.md). -/
def DPD_COEF_TW (i : Nat) : Nat := 0x420500 + 0x4 * i
/-- `DPD_COEF_TE` (spec/10_trunk_signal_path.md). -/
def DPD_COEF_TE (i : Nat) : Nat := 0x420580 + 0x4 * i

/-! ### Block ring -/
/-- `RING_CTL` (spec/11_stavelm_ring.md). -/
def RING_CTL : Nat := 0x440000
/-- `RING_CFG_REQ` (spec/11_stavelm_ring.md). -/
def RING_CFG_REQ : Nat := 0x440004
/-- `RING_CFG` (spec/11_stavelm_ring.md). -/
def RING_CFG : Nat := 0x440008
/-- `RING_STATUS` (spec/11_stavelm_ring.md). -/
def RING_STATUS : Nat := 0x44000C
/-- `RING_TOPO` (spec/11_stavelm_ring.md). -/
def RING_TOPO : Nat := 0x440010
/-- `RING_CYCLE_NO` (spec/11_stavelm_ring.md). -/
def RING_CYCLE_NO : Nat := 0x440014
/-- `RING_EVENT` (spec/11_stavelm_ring.md). -/
def RING_EVENT : Nat := 0x440018
/-- `RING_IRQ_EN` (spec/11_stavelm_ring.md). -/
def RING_IRQ_EN : Nat := 0x44001C
/-- `RING_DELAY_TW` (spec/11_stavelm_ring.md). -/
def RING_DELAY_TW : Nat := 0x440020
/-- `RING_DELAY_TE` (spec/11_stavelm_ring.md). -/
def RING_DELAY_TE : Nat := 0x440024
/-- `RING_TIME_ERR` (spec/11_stavelm_ring.md). -/
def RING_TIME_ERR : Nat := 0x440028
/-- `RING_STEER` (spec/11_stavelm_ring.md). -/
def RING_STEER : Nat := 0x44002C
/-- `RING_DEST` (spec/11_stavelm_ring.md). -/
def RING_DEST : Nat := 0x440030
/-- `RING_RX_MSG_COUNT` (spec/11_stavelm_ring.md). -/
def RING_RX_MSG_COUNT : Nat := 0x440040
/-- `RING_DUP_COUNT` (spec/11_stavelm_ring.md). -/
def RING_DUP_COUNT : Nat := 0x440044
/-- `RING_DROP_COUNT` (spec/11_stavelm_ring.md). -/
def RING_DROP_COUNT : Nat := 0x440048
/-- `RING_QFULL_COUNT` (spec/11_stavelm_ring.md). -/
def RING_QFULL_COUNT : Nat := 0x44004C
/-- `RING_FLUSH_COUNT` (spec/11_stavelm_ring.md). -/
def RING_FLUSH_COUNT : Nat := 0x440050
/-- `RING_HOP_GAP_COUNT` (spec/11_stavelm_ring.md). -/
def RING_HOP_GAP_COUNT : Nat := 0x440054
/-- `RING_TIME_STEP_COUNT` (spec/11_stavelm_ring.md). -/
def RING_TIME_STEP_COUNT : Nat := 0x440058
/-- `RING_BYPASS_RX_COUNT` (spec/11_stavelm_ring.md). -/
def RING_BYPASS_RX_COUNT : Nat := 0x44005C
/-- `RING_OFFER_DROP_COUNT` (spec/11_stavelm_ring.md). -/
def RING_OFFER_DROP_COUNT : Nat := 0x440060
/-- `RING_RX_LOST_COUNT` (spec/11_stavelm_ring.md). -/
def RING_RX_LOST_COUNT : Nat := 0x440064
/-- `RING_TX_HDR` (spec/11_stavelm_ring.md). -/
def RING_TX_HDR : Nat := 0x440100
/-- `RING_TX_LEN` (spec/11_stavelm_ring.md). -/
def RING_TX_LEN : Nat := 0x440104
/-- `RING_TX_CTL` (spec/11_stavelm_ring.md). -/
def RING_TX_CTL : Nat := 0x440108
/-- `RING_TX_STATUS` (spec/11_stavelm_ring.md). -/
def RING_TX_STATUS : Nat := 0x44010C
/-- `RING_RX_CTL` (spec/11_stavelm_ring.md). -/
def RING_RX_CTL : Nat := 0x440180
/-- `RING_RX_STATUS` (spec/11_stavelm_ring.md). -/
def RING_RX_STATUS : Nat := 0x440184
/-- `RING_RX_HDR` (spec/11_stavelm_ring.md). -/
def RING_RX_HDR : Nat := 0x440188
/-- `RING_RX_LEN` (spec/11_stavelm_ring.md). -/
def RING_RX_LEN : Nat := 0x44018C
/-- `RING_RX_TIME_LO` (spec/11_stavelm_ring.md). -/
def RING_RX_TIME_LO : Nat := 0x440190
/-- `RING_RX_TIME_HI` (spec/11_stavelm_ring.md). -/
def RING_RX_TIME_HI : Nat := 0x440194
/-- `RING_TX_DATA` (spec/11_stavelm_ring.md). -/
def RING_TX_DATA (w : Nat) : Nat := 0x440200 + 0x4 * w
/-- `RING_RX_DATA` (spec/11_stavelm_ring.md). -/
def RING_RX_DATA (w : Nat) : Nat := 0x440400 + 0x4 * w

/-! ### Block bd -/
/-- `BD_STATUS` (spec/12_clock_power_and_tether.md). -/
def BD_STATUS : Nat := 0x500000
/-- `BD_BYPASS_CTL` (spec/12_clock_power_and_tether.md). -/
def BD_BYPASS_CTL : Nat := 0x500004
/-- `BD_EVENT` (spec/12_clock_power_and_tether.md). -/
def BD_EVENT : Nat := 0x500008
/-- `BD_IRQ_EN` (spec/12_clock_power_and_tether.md). -/
def BD_IRQ_EN : Nat := 0x50000C
/-- `BD_DIE_REV` (spec/02_host_port_and_register_rules.md). -/
def BD_DIE_REV : Nat := 0x5000FC

/-! ### Block lane -/
/-- `LANE_CTL` (spec/08_service_lanes.md). -/
def LANE_CTL (n : Nat) : Nat := 0x600000 + 0x1000 * n
/-- `LANE_CFG` (spec/08_service_lanes.md). -/
def LANE_CFG (n : Nat) : Nat := 0x600004 + 0x1000 * n
/-- `LANE_PERIOD` (spec/08_service_lanes.md). -/
def LANE_PERIOD (n : Nat) : Nat := 0x600008 + 0x1000 * n
/-- `LANE_STATUS` (spec/08_service_lanes.md). -/
def LANE_STATUS (n : Nat) : Nat := 0x60000C + 0x1000 * n
/-- `LANE_EVENT` (spec/08_service_lanes.md). -/
def LANE_EVENT (n : Nat) : Nat := 0x600010 + 0x1000 * n
/-- `LANE_IRQ_EN` (spec/08_service_lanes.md). -/
def LANE_IRQ_EN (n : Nat) : Nat := 0x600014 + 0x1000 * n
/-- `LANE_ACT_COUNT` (spec/08_service_lanes.md). -/
def LANE_ACT_COUNT (n : Nat) : Nat := 0x600018 + 0x1000 * n
/-- `LANE_OVERRUN_COUNT` (spec/08_service_lanes.md). -/
def LANE_OVERRUN_COUNT (n : Nat) : Nat := 0x60001C + 0x1000 * n
/-- `LANE_ACT_TIME_LO` (spec/08_service_lanes.md). -/
def LANE_ACT_TIME_LO (n : Nat) : Nat := 0x600020 + 0x1000 * n
/-- `LANE_ACT_TIME_HI` (spec/08_service_lanes.md). -/
def LANE_ACT_TIME_HI (n : Nat) : Nat := 0x600024 + 0x1000 * n
/-- `LANE_EXEC` (spec/08_service_lanes.md). -/
def LANE_EXEC (n : Nat) : Nat := 0x600028 + 0x1000 * n
/-- `MAN_VALUE` (spec/08_service_lanes.md). -/
def MAN_VALUE (n : Nat) : Nat := 0x60002C + 0x1000 * n
/-- `LANE_LOT` (spec/08_service_lanes.md). -/
def LANE_LOT (n : Nat) : Nat := 0x600030 + 0x1000 * n
/-- `BLK_CFG` (spec/08_service_lanes.md). -/
def BLK_CFG (n : Nat) (b : Nat) : Nat := 0x600100 + 0x1000 * n + 0x40 * b
/-- `BLK_P` (spec/08_service_lanes.md). -/
def BLK_P (n : Nat) (b : Nat) (j : Nat) : Nat := 0x600104 + 0x1000 * n + 0x40 * b + 0x4 * j
/-- `BLK_Y` (spec/08_service_lanes.md). -/
def BLK_Y (n : Nat) (b : Nat) : Nat := 0x600124 + 0x1000 * n + 0x40 * b
/-- `BLK_Q` (spec/08_service_lanes.md). -/
def BLK_Q (n : Nat) (b : Nat) : Nat := 0x600128 + 0x1000 * n + 0x40 * b
/-- `BLK_STATE` (spec/08_service_lanes.md). -/
def BLK_STATE (n : Nat) (b : Nat) (i : Nat) : Nat := 0x60012C + 0x1000 * n + 0x40 * b + 0x4 * i
/-- `LANE_TABLE` (spec/08_service_lanes.md). -/
def LANE_TABLE (n : Nat) (i : Nat) : Nat := 0x600400 + 0x1000 * n + 0x4 * i

/-! ### Block engine -/
/-- `ENGINE_STATUS` (spec/08_service_lanes.md). -/
def ENGINE_STATUS : Nat := 0x610000
/-- `ENGINE_LOAD` (spec/08_service_lanes.md). -/
def ENGINE_LOAD : Nat := 0x610004
/-- `LANE_SUMMARY` (spec/08_service_lanes.md). -/
def LANE_SUMMARY : Nat := 0x610008
/-- `ENGINE_EVENT` (spec/08_service_lanes.md). -/
def ENGINE_EVENT : Nat := 0x610010
/-- `ENGINE_IRQ_EN` (spec/08_service_lanes.md). -/
def ENGINE_IRQ_EN : Nat := 0x610014
/-- `LOT_ID` (spec/08_service_lanes.md). -/
def LOT_ID (s : Nat) : Nat := 0x610100 + 0x8 * s
/-- `LOT_STATUS` (spec/08_service_lanes.md). -/
def LOT_STATUS (s : Nat) : Nat := 0x610104 + 0x8 * s

/-! ### Block od -/
/-- `OD_REQ` (spec/09_object_dictionary.md). -/
def OD_REQ : Nat := 0x700000
/-- `OD_CMD` (spec/09_object_dictionary.md). -/
def OD_CMD : Nat := 0x700004
/-- `OD_LEN` (spec/09_object_dictionary.md). -/
def OD_LEN : Nat := 0x700008
/-- `OD_STATUS` (spec/09_object_dictionary.md). -/
def OD_STATUS : Nat := 0x70000C
/-- `OD_EVENT` (spec/09_object_dictionary.md). -/
def OD_EVENT : Nat := 0x700010
/-- `OD_IRQ_EN` (spec/09_object_dictionary.md). -/
def OD_IRQ_EN : Nat := 0x700014
/-- `OD_AUTH_FAIL_COUNT` (spec/09_object_dictionary.md). -/
def OD_AUTH_FAIL_COUNT : Nat := 0x700018
/-- `OD_KEY_CTL` (spec/09_object_dictionary.md). -/
def OD_KEY_CTL : Nat := 0x700020
/-- `OD_KEY_STATUS` (spec/09_object_dictionary.md). -/
def OD_KEY_STATUS : Nat := 0x700024
/-- `OD_SESSION` (spec/09_object_dictionary.md). -/
def OD_SESSION (i : Nat) : Nat := 0x700040 + 0x4 * i
/-- `OD_KEY` (spec/09_object_dictionary.md). -/
def OD_KEY (w : Nat) : Nat := 0x700080 + 0x4 * w
/-- `OD_DATA` (spec/09_object_dictionary.md). -/
def OD_DATA (w : Nat) : Nat := 0x700100 + 0x4 * w

/-! ### Block test -/
/-- `TEST_UNLOCK` (spec/13_resets_log_and_test_buses.md). -/
def TEST_UNLOCK : Nat := 0xF00000
/-- `ATB_SEL` (spec/13_resets_log_and_test_buses.md). -/
def ATB_SEL : Nat := 0xF00004
/-- `ATB_NODE0` (spec/13_resets_log_and_test_buses.md). -/
def ATB_NODE0 : Nat := 0xF00008

end Sys2Proof.Reg

/-! ## Field positions -/

namespace Sys2Proof.Fld
/-- `PART_ID.PART`, bits 31:16. -/
def PART_ID_PART : Fld := ⟨16, 16⟩
/-- `PART_ID.VARIANT`, bits 15:0. -/
def PART_ID_VARIANT : Fld := ⟨0, 16⟩
/-- `CD_DIE_REV.DIE`, bits 26:24. -/
def CD_DIE_REV_DIE : Fld := ⟨24, 3⟩
/-- `CD_DIE_REV.MAJOR`, bits 15:8. -/
def CD_DIE_REV_MAJOR : Fld := ⟨8, 8⟩
/-- `CD_DIE_REV.MINOR`, bits 7:0. -/
def CD_DIE_REV_MINOR : Fld := ⟨0, 8⟩
/-- `SYS_DIE_STATUS.CK_OK`, bits 15:8. -/
def SYS_DIE_STATUS_CK_OK : Fld := ⟨8, 8⟩
/-- `SYS_DIE_STATUS.DIE_UP`, bits 7:0. -/
def SYS_DIE_STATUS_DIE_UP : Fld := ⟨0, 8⟩
/-- `SYS_DIE_EVENT.LATE`, bits 31:24. -/
def SYS_DIE_EVENT_LATE : Fld := ⟨24, 8⟩
/-- `SYS_DIE_EVENT.CTR_SAT`, bits 16:16. -/
def SYS_DIE_EVENT_CTR_SAT : Fld := ⟨16, 1⟩
/-- `SYS_DIE_EVENT.LINK_DOWN`, bits 15:8. -/
def SYS_DIE_EVENT_LINK_DOWN : Fld := ⟨8, 8⟩
/-- `SYS_DIE_EVENT.CK_LOSS`, bits 7:0. -/
def SYS_DIE_EVENT_CK_LOSS : Fld := ⟨0, 8⟩
/-- `IRQ_STATUS.LOG`, bits 22:22. -/
def IRQ_STATUS_LOG : Fld := ⟨22, 1⟩
/-- `IRQ_STATUS.BD`, bits 21:21. -/
def IRQ_STATUS_BD : Fld := ⟨21, 1⟩
/-- `IRQ_STATUS.PWR`, bits 20:20. -/
def IRQ_STATUS_PWR : Fld := ⟨20, 1⟩
/-- `IRQ_STATUS.RING`, bits 19:19. -/
def IRQ_STATUS_RING : Fld := ⟨19, 1⟩
/-- `IRQ_STATUS.DEC`, bits 18:18. -/
def IRQ_STATUS_DEC : Fld := ⟨18, 1⟩
/-- `IRQ_STATUS.TE`, bits 17:17. -/
def IRQ_STATUS_TE : Fld := ⟨17, 1⟩
/-- `IRQ_STATUS.TW`, bits 16:16. -/
def IRQ_STATUS_TW : Fld := ⟨16, 1⟩
/-- `IRQ_STATUS.OD`, bits 15:15. -/
def IRQ_STATUS_OD : Fld := ⟨15, 1⟩
/-- `IRQ_STATUS.LANE`, bits 14:14. -/
def IRQ_STATUS_LANE : Fld := ⟨14, 1⟩
/-- `IRQ_STATUS.LD`, bits 13:10. -/
def IRQ_STATUS_LD : Fld := ⟨10, 4⟩
/-- `IRQ_STATUS.SPOOL`, bits 9:6. -/
def IRQ_STATUS_SPOOL : Fld := ⟨6, 4⟩
/-- `IRQ_STATUS.CAL`, bits 5:5. -/
def IRQ_STATUS_CAL : Fld := ⟨5, 1⟩
/-- `IRQ_STATUS.SEQ`, bits 4:4. -/
def IRQ_STATUS_SEQ : Fld := ⟨4, 1⟩
/-- `IRQ_STATUS.GUARD`, bits 3:3. -/
def IRQ_STATUS_GUARD : Fld := ⟨3, 1⟩
/-- `IRQ_STATUS.TB`, bits 2:2. -/
def IRQ_STATUS_TB : Fld := ⟨2, 1⟩
/-- `IRQ_STATUS.HOST`, bits 1:1. -/
def IRQ_STATUS_HOST : Fld := ⟨1, 1⟩
/-- `IRQ_STATUS.DIE`, bits 0:0. -/
def IRQ_STATUS_DIE : Fld := ⟨0, 1⟩
/-- `IRQ_ENABLE.EN`, bits 22:0. -/
def IRQ_ENABLE_EN : Fld := ⟨0, 23⟩
/-- `HOST_EVENT.ABORT`, bits 6:6. -/
def HOST_EVENT_ABORT : Fld := ⟨6, 1⟩
/-- `HOST_EVENT.UNDERRUN`, bits 5:5. -/
def HOST_EVENT_UNDERRUN : Fld := ⟨5, 1⟩
/-- `HOST_EVENT.NO_REG`, bits 4:4. -/
def HOST_EVENT_NO_REG : Fld := ⟨4, 1⟩
/-- `HOST_EVENT.GUARD_LOCK`, bits 3:3. -/
def HOST_EVENT_GUARD_LOCK : Fld := ⟨3, 1⟩
/-- `HOST_EVENT.SIZE_FAULT`, bits 2:2. -/
def HOST_EVENT_SIZE_FAULT : Fld := ⟨2, 1⟩
/-- `HOST_EVENT.ALIGN_FAULT`, bits 1:1. -/
def HOST_EVENT_ALIGN_FAULT : Fld := ⟨1, 1⟩
/-- `HOST_EVENT.DOMAIN_OFF`, bits 0:0. -/
def HOST_EVENT_DOMAIN_OFF : Fld := ⟨0, 1⟩
/-- `HOST_FAULT.OP`, bits 31:30. -/
def HOST_FAULT_OP : Fld := ⟨30, 2⟩
/-- `HOST_FAULT.SIZE`, bits 29:28. -/
def HOST_FAULT_SIZE : Fld := ⟨28, 2⟩
/-- `HOST_FAULT.CODE`, bits 26:24. -/
def HOST_FAULT_CODE : Fld := ⟨24, 3⟩
/-- `HOST_FAULT.ADDR`, bits 23:0. -/
def HOST_FAULT_ADDR : Fld := ⟨0, 24⟩
/-- `TB_CTL.TB_VALID`, bits 2:2. -/
def TB_CTL_TB_VALID : Fld := ⟨2, 1⟩
/-- `TB_CTL.INVALIDATE`, bits 1:1. -/
def TB_CTL_INVALIDATE : Fld := ⟨1, 1⟩
/-- `TB_CTL.LOAD`, bits 0:0. -/
def TB_CTL_LOAD : Fld := ⟨0, 1⟩
/-- `TB_EVENT.SET`, bits 1:1. -/
def TB_EVENT_SET : Fld := ⟨1, 1⟩
/-- `TB_EVENT.WRAP`, bits 0:0. -/
def TB_EVENT_WRAP : Fld := ⟨0, 1⟩
/-- `GUARD_CTL.CFG_COMMIT`, bits 3:3. -/
def GUARD_CTL_CFG_COMMIT : Fld := ⟨3, 1⟩
/-- `GUARD_CTL.ACTION`, bits 2:1. -/
def GUARD_CTL_ACTION : Fld := ⟨1, 2⟩
/-- `GUARD_CTL.LOCK`, bits 0:0. -/
def GUARD_CTL_LOCK : Fld := ⟨0, 1⟩
/-- `GUARD_UNLOCK.KEY`, bits 15:0. -/
def GUARD_UNLOCK_KEY : Fld := ⟨0, 16⟩
/-- `GUARD_STATUS.LOCKED`, bits 17:17. -/
def GUARD_STATUS_LOCKED : Fld := ⟨17, 1⟩
/-- `GUARD_STATUS.COMMIT_BUSY`, bits 16:16. -/
def GUARD_STATUS_COMMIT_BUSY : Fld := ⟨16, 1⟩
/-- `GUARD_STATUS.MISMATCH`, bits 14:8. -/
def GUARD_STATUS_MISMATCH : Fld := ⟨8, 7⟩
/-- `GUARD_STATUS.REF_VALID`, bits 6:0. -/
def GUARD_STATUS_REF_VALID : Fld := ⟨0, 7⟩
/-- `GUARD_EVENT.CTR_SAT`, bits 16:16. -/
def GUARD_EVENT_CTR_SAT : Fld := ⟨16, 1⟩
/-- `GUARD_EVENT.COMMIT_DONE`, bits 1:1. -/
def GUARD_EVENT_COMMIT_DONE : Fld := ⟨1, 1⟩
/-- `GUARD_EVENT.MISMATCH`, bits 0:0. -/
def GUARD_EVENT_MISMATCH : Fld := ⟨0, 1⟩
/-- `RST_FUNC0.MODEM`, bits 31:16. -/
def RST_FUNC0_MODEM : Fld := ⟨16, 16⟩
/-- `RST_FUNC0.PORT`, bits 15:0. -/
def RST_FUNC0_PORT : Fld := ⟨0, 16⟩
/-- `RST_FUNC1.PMBUS`, bits 31:31. -/
def RST_FUNC1_PMBUS : Fld := ⟨31, 1⟩
/-- `RST_FUNC1.OD`, bits 30:30. -/
def RST_FUNC1_OD : Fld := ⟨30, 1⟩
/-- `RST_FUNC1.RING`, bits 29:29. -/
def RST_FUNC1_RING : Fld := ⟨29, 1⟩
/-- `RST_FUNC1.DEC`, bits 28:28. -/
def RST_FUNC1_DEC : Fld := ⟨28, 1⟩
/-- `RST_FUNC1.TE`, bits 27:27. -/
def RST_FUNC1_TE : Fld := ⟨27, 1⟩
/-- `RST_FUNC1.TW`, bits 26:26. -/
def RST_FUNC1_TW : Fld := ⟨26, 1⟩
/-- `RST_FUNC1.SPOOL`, bits 25:22. -/
def RST_FUNC1_SPOOL : Fld := ⟨22, 4⟩
/-- `RST_FUNC1.SEQ`, bits 21:21. -/
def RST_FUNC1_SEQ : Fld := ⟨21, 1⟩
/-- `RST_FUNC1.SLICE`, bits 20:16. -/
def RST_FUNC1_SLICE : Fld := ⟨16, 5⟩
/-- `RST_FUNC1.LANE`, bits 15:0. -/
def RST_FUNC1_LANE : Fld := ⟨0, 16⟩
/-- `RST_BUSY0.MODEM`, bits 31:16. -/
def RST_BUSY0_MODEM : Fld := ⟨16, 16⟩
/-- `RST_BUSY0.PORT`, bits 15:0. -/
def RST_BUSY0_PORT : Fld := ⟨0, 16⟩
/-- `RST_BUSY1.PMBUS`, bits 31:31. -/
def RST_BUSY1_PMBUS : Fld := ⟨31, 1⟩
/-- `RST_BUSY1.OD`, bits 30:30. -/
def RST_BUSY1_OD : Fld := ⟨30, 1⟩
/-- `RST_BUSY1.RING`, bits 29:29. -/
def RST_BUSY1_RING : Fld := ⟨29, 1⟩
/-- `RST_BUSY1.DEC`, bits 28:28. -/
def RST_BUSY1_DEC : Fld := ⟨28, 1⟩
/-- `RST_BUSY1.TE`, bits 27:27. -/
def RST_BUSY1_TE : Fld := ⟨27, 1⟩
/-- `RST_BUSY1.TW`, bits 26:26. -/
def RST_BUSY1_TW : Fld := ⟨26, 1⟩
/-- `RST_BUSY1.SPOOL`, bits 25:22. -/
def RST_BUSY1_SPOOL : Fld := ⟨22, 4⟩
/-- `RST_BUSY1.SEQ`, bits 21:21. -/
def RST_BUSY1_SEQ : Fld := ⟨21, 1⟩
/-- `RST_BUSY1.SLICE`, bits 20:16. -/
def RST_BUSY1_SLICE : Fld := ⟨16, 5⟩
/-- `RST_BUSY1.LANE`, bits 15:0. -/
def RST_BUSY1_LANE : Fld := ⟨0, 16⟩
/-- `RST_SYS.KEY`, bits 31:16. -/
def RST_SYS_KEY : Fld := ⟨16, 16⟩
/-- `RST_SYS.FULL`, bits 0:0. -/
def RST_SYS_FULL : Fld := ⟨0, 1⟩
/-- `RESET_CAUSE.ALL`, bits 11:8. -/
def RESET_CAUSE_ALL : Fld := ⟨8, 4⟩
/-- `RESET_CAUSE.CAUSE`, bits 3:0. -/
def RESET_CAUSE_CAUSE : Fld := ⟨0, 4⟩
/-- `SPOOL_CTL.POLICY`, bits 1:1. -/
def SPOOL_CTL_POLICY : Fld := ⟨1, 1⟩
/-- `SPOOL_CTL.EN`, bits 0:0. -/
def SPOOL_CTL_EN : Fld := ⟨0, 1⟩
/-- `SPOOL_BASE.ADDR`, bits 23:0. -/
def SPOOL_BASE_ADDR : Fld := ⟨0, 24⟩
/-- `SPOOL_SIZE.LOG2`, bits 4:0. -/
def SPOOL_SIZE_LOG2 : Fld := ⟨0, 5⟩
/-- `SPOOL_WM.LEVEL`, bits 16:0. -/
def SPOOL_WM_LEVEL : Fld := ⟨0, 17⟩
/-- `SPOOL_EVENT.CTR_SAT`, bits 16:16. -/
def SPOOL_EVENT_CTR_SAT : Fld := ⟨16, 1⟩
/-- `SPOOL_EVENT.CFG_ERR`, bits 2:2. -/
def SPOOL_EVENT_CFG_ERR : Fld := ⟨2, 1⟩
/-- `SPOOL_EVENT.OVERFLOW`, bits 1:1. -/
def SPOOL_EVENT_OVERFLOW : Fld := ⟨1, 1⟩
/-- `SPOOL_EVENT.WM`, bits 0:0. -/
def SPOOL_EVENT_WM : Fld := ⟨0, 1⟩
/-- `SPOOL_IRQ_EN.EN`, bits 16:0. -/
def SPOOL_IRQ_EN_EN : Fld := ⟨0, 17⟩
/-- `SPOOL_STATUS.CFG_ERR`, bits 3:3. -/
def SPOOL_STATUS_CFG_ERR : Fld := ⟨3, 1⟩
/-- `SPOOL_STATUS.FULL`, bits 2:2. -/
def SPOOL_STATUS_FULL : Fld := ⟨2, 1⟩
/-- `SPOOL_STATUS.ABOVE_WM`, bits 1:1. -/
def SPOOL_STATUS_ABOVE_WM : Fld := ⟨1, 1⟩
/-- `SPOOL_STATUS.ACTIVE`, bits 0:0. -/
def SPOOL_STATUS_ACTIVE : Fld := ⟨0, 1⟩
/-- `SPOOL2_SRC.DIV`, bits 25:16. -/
def SPOOL2_SRC_DIV : Fld := ⟨16, 10⟩
/-- `SPOOL2_SRC.PORT_EN`, bits 15:0. -/
def SPOOL2_SRC_PORT_EN : Fld := ⟨0, 16⟩
/-- `CAL_BLOCK_CTL.RESTORE`, bits 1:1. -/
def CAL_BLOCK_CTL_RESTORE : Fld := ⟨1, 1⟩
/-- `CAL_BLOCK_CTL.EXPORT`, bits 0:0. -/
def CAL_BLOCK_CTL_EXPORT : Fld := ⟨0, 1⟩
/-- `CAL_BLOCK_STATUS.LAST_OP`, bits 17:17. -/
def CAL_BLOCK_STATUS_LAST_OP : Fld := ⟨17, 1⟩
/-- `CAL_BLOCK_STATUS.BUSY`, bits 16:16. -/
def CAL_BLOCK_STATUS_BUSY : Fld := ⟨16, 1⟩
/-- `CAL_BLOCK_STATUS.RESULT`, bits 7:0. -/
def CAL_BLOCK_STATUS_RESULT : Fld := ⟨0, 8⟩
/-- `CAL_BG_LIM.LIMIT`, bits 11:0. -/
def CAL_BG_LIM_LIMIT : Fld := ⟨0, 12⟩
/-- `CAL_EVENT.CTR_SAT`, bits 16:16. -/
def CAL_EVENT_CTR_SAT : Fld := ⟨16, 1⟩
/-- `CAL_EVENT.REF_DISAGREE`, bits 15:12. -/
def CAL_EVENT_REF_DISAGREE : Fld := ⟨12, 4⟩
/-- `CAL_EVENT.RESTORE_REFUSED`, bits 11:11. -/
def CAL_EVENT_RESTORE_REFUSED : Fld := ⟨11, 1⟩
/-- `CAL_EVENT.RESTORE_DONE`, bits 10:10. -/
def CAL_EVENT_RESTORE_DONE : Fld := ⟨10, 1⟩
/-- `CAL_EVENT.EXPORT_DONE`, bits 9:9. -/
def CAL_EVENT_EXPORT_DONE : Fld := ⟨9, 1⟩
/-- `CAL_EVENT.REEL_SKIP`, bits 8:8. -/
def CAL_EVENT_REEL_SKIP : Fld := ⟨8, 1⟩
/-- `CAL_EVENT.SLICE_REJECT`, bits 4:0. -/
def CAL_EVENT_SLICE_REJECT : Fld := ⟨0, 5⟩
/-- `LOOP_TRIM_EVENT.DONE`, bits 15:0. -/
def LOOP_TRIM_EVENT_DONE : Fld := ⟨0, 16⟩
/-- `CAL_IRQ_EN.EN`, bits 16:0. -/
def CAL_IRQ_EN_EN : Fld := ⟨0, 17⟩
/-- `LOOP_TRIM_IRQ_EN.EN`, bits 16:0. -/
def LOOP_TRIM_IRQ_EN_EN : Fld := ⟨0, 17⟩
/-- `PWR_CTL.FAULT_CLR`, bits 3:3. -/
def PWR_CTL_FAULT_CLR : Fld := ⟨3, 1⟩
/-- `PWR_CTL.HIBERNATE`, bits 2:2. -/
def PWR_CTL_HIBERNATE : Fld := ⟨2, 1⟩
/-- `PWR_CTL.STANDBY`, bits 1:1. -/
def PWR_CTL_STANDBY : Fld := ⟨1, 1⟩
/-- `PWR_CTL.IDLE_EN`, bits 0:0. -/
def PWR_CTL_IDLE_EN : Fld := ⟨0, 1⟩
/-- `PWR_STATUS.ON`, bits 22:16. -/
def PWR_STATUS_ON : Fld := ⟨16, 7⟩
/-- `PWR_STATUS.BUSY`, bits 4:4. -/
def PWR_STATUS_BUSY : Fld := ⟨4, 1⟩
/-- `PWR_STATUS.STATE`, bits 3:0. -/
def PWR_STATUS_STATE : Fld := ⟨0, 4⟩
/-- `PWR_RUN_SET.DOMAINS`, bits 5:0. -/
def PWR_RUN_SET_DOMAINS : Fld := ⟨0, 6⟩
/-- `PWR_STANDBY_SET.DOMAINS`, bits 5:0. -/
def PWR_STANDBY_SET_DOMAINS : Fld := ⟨0, 6⟩
/-- `PWR_WAKE_EN.WAKE_POL`, bits 8:8. -/
def PWR_WAKE_EN_WAKE_POL : Fld := ⟨8, 1⟩
/-- `PWR_WAKE_EN.EN`, bits 4:0. -/
def PWR_WAKE_EN_EN : Fld := ⟨0, 5⟩
/-- `PWR_WAKE_CAUSE.RESET`, bits 6:6. -/
def PWR_WAKE_CAUSE_RESET : Fld := ⟨6, 1⟩
/-- `PWR_WAKE_CAUSE.VSYS_RETURN`, bits 5:5. -/
def PWR_WAKE_CAUSE_VSYS_RETURN : Fld := ⟨5, 1⟩
/-- `PWR_WAKE_CAUSE.SOURCE`, bits 4:0. -/
def PWR_WAKE_CAUSE_SOURCE : Fld := ⟨0, 5⟩
/-- `PWR_WAKE_CFG.HIB_XTAL_OFF`, bits 7:7. -/
def PWR_WAKE_CFG_HIB_XTAL_OFF : Fld := ⟨7, 1⟩
/-- `PWR_WAKE_CFG.HIB_DIV`, bits 6:4. -/
def PWR_WAKE_CFG_HIB_DIV : Fld := ⟨4, 3⟩
/-- `PWR_WAKE_CFG.WAKE_RETRIES`, bits 3:0. -/
def PWR_WAKE_CFG_WAKE_RETRIES : Fld := ⟨0, 4⟩
/-- `PWR_REG_CFG.ACK_TMO`, bits 23:16. -/
def PWR_REG_CFG_ACK_TMO : Fld := ⟨16, 8⟩
/-- `PWR_REG_CFG.PAGES`, bits 14:12. -/
def PWR_REG_CFG_PAGES : Fld := ⟨12, 3⟩
/-- `PWR_REG_CFG.ACK_SRC`, bits 10:10. -/
def PWR_REG_CFG_ACK_SRC : Fld := ⟨10, 1⟩
/-- `PWR_REG_CFG.PEC`, bits 9:9. -/
def PWR_REG_CFG_PEC : Fld := ⟨9, 1⟩
/-- `PWR_REG_CFG.RATE`, bits 8:8. -/
def PWR_REG_CFG_RATE : Fld := ⟨8, 1⟩
/-- `PWR_REG_CFG.ADDR`, bits 6:0. -/
def PWR_REG_CFG_ADDR : Fld := ⟨0, 7⟩
/-- `PWR_VCORE.READ_MV`, bits 31:16. -/
def PWR_VCORE_READ_MV : Fld := ⟨16, 16⟩
/-- `PWR_VCORE.REQ_MV`, bits 15:0. -/
def PWR_VCORE_REQ_MV : Fld := ⟨0, 16⟩
/-- `PWR_EVENT.CTR_SAT`, bits 16:16. -/
def PWR_EVENT_CTR_SAT : Fld := ⟨16, 1⟩
/-- `PWR_EVENT.PMBUS_ERR`, bits 9:9. -/
def PWR_EVENT_PMBUS_ERR : Fld := ⟨9, 1⟩
/-- `PWR_EVENT.TETHER_EXIT`, bits 8:8. -/
def PWR_EVENT_TETHER_EXIT : Fld := ⟨8, 1⟩
/-- `PWR_EVENT.XTAL_BACK`, bits 7:7. -/
def PWR_EVENT_XTAL_BACK : Fld := ⟨7, 1⟩
/-- `PWR_EVENT.LIMP`, bits 6:6. -/
def PWR_EVENT_LIMP : Fld := ⟨6, 1⟩
/-- `PWR_EVENT.ALARM`, bits 5:5. -/
def PWR_EVENT_ALARM : Fld := ⟨5, 1⟩
/-- `PWR_EVENT.REG_FAULT`, bits 4:4. -/
def PWR_EVENT_REG_FAULT : Fld := ⟨4, 1⟩
/-- `PWR_EVENT.REQ_REFUSED`, bits 3:3. -/
def PWR_EVENT_REQ_REFUSED : Fld := ⟨3, 1⟩
/-- `PWR_EVENT.WAKE_FAIL`, bits 2:2. -/
def PWR_EVENT_WAKE_FAIL : Fld := ⟨2, 1⟩
/-- `PWR_EVENT.WAKE_DONE`, bits 1:1. -/
def PWR_EVENT_WAKE_DONE : Fld := ⟨1, 1⟩
/-- `PWR_EVENT.STATE`, bits 0:0. -/
def PWR_EVENT_STATE : Fld := ⟨0, 1⟩
/-- `PWR_IRQ_EN.EN`, bits 16:0. -/
def PWR_IRQ_EN_EN : Fld := ⟨0, 17⟩
/-- `PWR_FAIL.STATUS_WORD`, bits 31:16. -/
def PWR_FAIL_STATUS_WORD : Fld := ⟨16, 16⟩
/-- `PWR_FAIL.ATTEMPTS`, bits 15:12. -/
def PWR_FAIL_ATTEMPTS : Fld := ⟨12, 4⟩
/-- `PWR_FAIL.PAGE`, bits 9:8. -/
def PWR_FAIL_PAGE : Fld := ⟨8, 2⟩
/-- `PWR_FAIL.CAUSE`, bits 7:0. -/
def PWR_FAIL_CAUSE : Fld := ⟨0, 8⟩
/-- `PAD_RELEASE.DOMAIN`, bits 5:0. -/
def PAD_RELEASE_DOMAIN : Fld := ⟨0, 6⟩
/-- `PAD_STATUS.DOMAIN`, bits 5:0. -/
def PAD_STATUS_DOMAIN : Fld := ⟨0, 6⟩
/-- `CLK_CTL.XTAL_RETRY`, bits 1:1. -/
def CLK_CTL_XTAL_RETRY : Fld := ⟨1, 1⟩
/-- `CLK_CTL.CKOUT_EN`, bits 0:0. -/
def CLK_CTL_CKOUT_EN : Fld := ⟨0, 1⟩
/-- `CLK_STATUS.XSEL`, bits 9:8. -/
def CLK_STATUS_XSEL : Fld := ⟨8, 2⟩
/-- `CLK_STATUS.DIV`, bits 6:4. -/
def CLK_STATUS_DIV : Fld := ⟨4, 3⟩
/-- `CLK_STATUS.XTAL_OK`, bits 3:3. -/
def CLK_STATUS_XTAL_OK : Fld := ⟨3, 1⟩
/-- `CLK_STATUS.PLL_LOCK`, bits 2:2. -/
def CLK_STATUS_PLL_LOCK : Fld := ⟨2, 1⟩
/-- `CLK_STATUS.SRC`, bits 1:0. -/
def CLK_STATUS_SRC : Fld := ⟨0, 2⟩
/-- `PWR_RAIL.IOUT_MA`, bits 31:16. -/
def PWR_RAIL_IOUT_MA : Fld := ⟨16, 16⟩
/-- `PWR_RAIL.VOUT_MV`, bits 15:0. -/
def PWR_RAIL_VOUT_MV : Fld := ⟨0, 16⟩
/-- `TETHER_CFG.NPLC`, bits 11:8. -/
def TETHER_CFG_NPLC : Fld := ⟨8, 4⟩
/-- `TETHER_CFG.CH`, bits 1:0. -/
def TETHER_CFG_CH : Fld := ⟨0, 2⟩
/-- `TETHER_STATUS.SURPLUS`, bits 31:16. -/
def TETHER_STATUS_SURPLUS : Fld := ⟨16, 16⟩
/-- `TETHER_STATUS.SHED`, bits 6:5. -/
def TETHER_STATUS_SHED : Fld := ⟨5, 2⟩
/-- `TETHER_STATUS.STEP`, bits 4:2. -/
def TETHER_STATUS_STEP : Fld := ⟨2, 3⟩
/-- `TETHER_STATUS.CHAIN_OK`, bits 1:1. -/
def TETHER_STATUS_CHAIN_OK : Fld := ⟨1, 1⟩
/-- `TETHER_STATUS.ACTIVE`, bits 0:0. -/
def TETHER_STATUS_ACTIVE : Fld := ⟨0, 1⟩
/-- `WDT_CTL.TIMEOUT`, bits 31:16. -/
def WDT_CTL_TIMEOUT : Fld := ⟨16, 16⟩
/-- `WDT_CTL.ACTION`, bits 1:1. -/
def WDT_CTL_ACTION : Fld := ⟨1, 1⟩
/-- `WDT_CTL.EN`, bits 0:0. -/
def WDT_CTL_EN : Fld := ⟨0, 1⟩
/-- `WDT_STATUS.COUNT`, bits 31:16. -/
def WDT_STATUS_COUNT : Fld := ⟨16, 16⟩
/-- `WDT_STATUS.RUNNING`, bits 0:0. -/
def WDT_STATUS_RUNNING : Fld := ⟨0, 1⟩
/-- `WDT_EVENT.EXPIRED`, bits 2:2. -/
def WDT_EVENT_EXPIRED : Fld := ⟨2, 1⟩
/-- `WDT_EVENT.BAD_KICK`, bits 1:1. -/
def WDT_EVENT_BAD_KICK : Fld := ⟨1, 1⟩
/-- `WDT_EVENT.EARLY`, bits 0:0. -/
def WDT_EVENT_EARLY : Fld := ⟨0, 1⟩
/-- `WDT_IRQ_EN.EN`, bits 2:0. -/
def WDT_IRQ_EN_EN : Fld := ⟨0, 3⟩
/-- `LOG_CTL.IRQ_SEV`, bits 10:8. -/
def LOG_CTL_IRQ_SEV : Fld := ⟨8, 3⟩
/-- `LOG_CTL.MIN_SEV`, bits 4:2. -/
def LOG_CTL_MIN_SEV : Fld := ⟨2, 3⟩
/-- `LOG_CTL.UNFREEZE`, bits 1:1. -/
def LOG_CTL_UNFREEZE : Fld := ⟨1, 1⟩
/-- `LOG_CTL.FREEZE_FATAL`, bits 0:0. -/
def LOG_CTL_FREEZE_FATAL : Fld := ⟨0, 1⟩
/-- `LOG_CLEAR.CLEAR`, bits 0:0. -/
def LOG_CLEAR_CLEAR : Fld := ⟨0, 1⟩
/-- `LOG_PAGE.PAGE`, bits 1:0. -/
def LOG_PAGE_PAGE : Fld := ⟨0, 2⟩
/-- `LOG_STATUS.FROZEN`, bits 16:16. -/
def LOG_STATUS_FROZEN : Fld := ⟨16, 1⟩
/-- `LOG_STATUS.FILL`, bits 12:0. -/
def LOG_STATUS_FILL : Fld := ⟨0, 13⟩
/-- `LOG_EVENT.CTR_SAT`, bits 16:16. -/
def LOG_EVENT_CTR_SAT : Fld := ⟨16, 1⟩
/-- `LOG_EVENT.FROZEN`, bits 2:2. -/
def LOG_EVENT_FROZEN : Fld := ⟨2, 1⟩
/-- `LOG_EVENT.OVERWRITE`, bits 1:1. -/
def LOG_EVENT_OVERWRITE : Fld := ⟨1, 1⟩
/-- `LOG_EVENT.NEW`, bits 0:0. -/
def LOG_EVENT_NEW : Fld := ⟨0, 1⟩
/-- `LOG_IRQ_EN.EN`, bits 16:0. -/
def LOG_IRQ_EN_EN : Fld := ⟨0, 17⟩
/-- `CONV_CTL.FAST_SEQ`, bits 0:0. -/
def CONV_CTL_FAST_SEQ : Fld := ⟨0, 1⟩
/-- `FRAME_CTL.FIXED_MS`, bits 23:16. -/
def FRAME_CTL_FIXED_MS : Fld := ⟨16, 8⟩
/-- `FRAME_CTL.NPLC`, bits 7:4. -/
def FRAME_CTL_NPLC : Fld := ⟨4, 4⟩
/-- `FRAME_CTL.MODE`, bits 0:0. -/
def FRAME_CTL_MODE : Fld := ⟨0, 1⟩
/-- `MAINS_CTL.NOMINAL`, bits 5:5. -/
def MAINS_CTL_NOMINAL : Fld := ⟨5, 1⟩
/-- `MAINS_CTL.RIPPLE_DIV`, bits 4:4. -/
def MAINS_CTL_RIPPLE_DIV : Fld := ⟨4, 1⟩
/-- `MAINS_CTL.EDGE`, bits 3:3. -/
def MAINS_CTL_EDGE : Fld := ⟨3, 1⟩
/-- `MAINS_CTL.SRC`, bits 1:0. -/
def MAINS_CTL_SRC : Fld := ⟨0, 2⟩
/-- `MAINS_PERIOD.INT`, bits 31:8. -/
def MAINS_PERIOD_INT : Fld := ⟨8, 24⟩
/-- `MAINS_PERIOD.FRAC`, bits 7:0. -/
def MAINS_PERIOD_FRAC : Fld := ⟨0, 8⟩
/-- `MAINS_STATUS.RUN`, bits 31:16. -/
def MAINS_STATUS_RUN : Fld := ⟨16, 16⟩
/-- `MAINS_STATUS.DEGRADED`, bits 3:3. -/
def MAINS_STATUS_DEGRADED : Fld := ⟨3, 1⟩
/-- `MAINS_STATUS.USING_RIPPLE`, bits 2:2. -/
def MAINS_STATUS_USING_RIPPLE : Fld := ⟨2, 1⟩
/-- `MAINS_STATUS.NO_SIGNAL`, bits 1:1. -/
def MAINS_STATUS_NO_SIGNAL : Fld := ⟨1, 1⟩
/-- `MAINS_STATUS.LOCKED`, bits 0:0. -/
def MAINS_STATUS_LOCKED : Fld := ⟨0, 1⟩
/-- `CONV_EVENT.CTR_SAT`, bits 16:16. -/
def CONV_EVENT_CTR_SAT : Fld := ⟨16, 1⟩
/-- `CONV_EVENT.EXC_FAULT`, bits 12:12. -/
def CONV_EVENT_EXC_FAULT : Fld := ⟨12, 1⟩
/-- `CONV_EVENT.TRIG_IGNORED`, bits 11:11. -/
def CONV_EVENT_TRIG_IGNORED : Fld := ⟨11, 1⟩
/-- `CONV_EVENT.REF_LOST`, bits 10:10. -/
def CONV_EVENT_REF_LOST : Fld := ⟨10, 1⟩
/-- `CONV_EVENT.REF_UP`, bits 9:9. -/
def CONV_EVENT_REF_UP : Fld := ⟨9, 1⟩
/-- `CONV_EVENT.MAINS_LOCK`, bits 8:8. -/
def CONV_EVENT_MAINS_LOCK : Fld := ⟨8, 1⟩
/-- `CONV_EVENT.MAINS_LOST`, bits 7:7. -/
def CONV_EVENT_MAINS_LOST : Fld := ⟨7, 1⟩
/-- `CONV_EVENT.CLAMP`, bits 4:0. -/
def CONV_EVENT_CLAMP : Fld := ⟨0, 5⟩
/-- `CONV_IRQ_EN.EN`, bits 16:0. -/
def CONV_IRQ_EN_EN : Fld := ⟨0, 17⟩
/-- `REF_CTL.SETTLE`, bits 7:4. -/
def REF_CTL_SETTLE : Fld := ⟨4, 4⟩
/-- `REF_CTL.REF_FORCE`, bits 1:1. -/
def REF_CTL_REF_FORCE : Fld := ⟨1, 1⟩
/-- `REF_CTL.BUF_EN`, bits 0:0. -/
def REF_CTL_BUF_EN : Fld := ⟨0, 1⟩
/-- `REF_STATUS.ELAPSED`, bits 23:16. -/
def REF_STATUS_ELAPSED : Fld := ⟨16, 8⟩
/-- `REF_STATUS.BUF_FAULT`, bits 2:2. -/
def REF_STATUS_BUF_FAULT : Fld := ⟨2, 1⟩
/-- `REF_STATUS.SETTLING`, bits 1:1. -/
def REF_STATUS_SETTLING : Fld := ⟨1, 1⟩
/-- `REF_STATUS.REF_READY`, bits 0:0. -/
def REF_STATUS_REF_READY : Fld := ⟨0, 1⟩
/-- `SLICE_STATUS.CHANNEL`, bits 31:24. -/
def SLICE_STATUS_CHANNEL : Fld := ⟨24, 8⟩
/-- `SLICE_STATUS.ROW`, bits 20:16. -/
def SLICE_STATUS_ROW : Fld := ⟨16, 5⟩
/-- `SLICE_STATUS.ROLE`, bits 2:0. -/
def SLICE_STATUS_ROLE : Fld := ⟨0, 3⟩
/-- `MD_DIE_REV.DIE`, bits 26:24. -/
def MD_DIE_REV_DIE : Fld := ⟨24, 3⟩
/-- `MD_DIE_REV.MAJOR`, bits 15:8. -/
def MD_DIE_REV_MAJOR : Fld := ⟨8, 8⟩
/-- `MD_DIE_REV.MINOR`, bits 7:0. -/
def MD_DIE_REV_MINOR : Fld := ⟨0, 8⟩
/-- `CHAN_CFG.DIV10`, bits 3:3. -/
def CHAN_CFG_DIV10 : Fld := ⟨3, 1⟩
/-- `CHAN_CFG.GAIN`, bits 2:0. -/
def CHAN_CFG_GAIN : Fld := ⟨0, 3⟩
/-- `EXC_CTL.REVERSE`, bits 5:5. -/
def EXC_CTL_REVERSE : Fld := ⟨5, 1⟩
/-- `EXC_CTL.LEVEL`, bits 4:2. -/
def EXC_CTL_LEVEL : Fld := ⟨2, 3⟩
/-- `EXC_CTL.MODE`, bits 1:0. -/
def EXC_CTL_MODE : Fld := ⟨0, 2⟩
/-- `EXC_STATUS.REVERSED`, bits 15:12. -/
def EXC_STATUS_REVERSED : Fld := ⟨12, 4⟩
/-- `EXC_STATUS.LIMIT`, bits 11:8. -/
def EXC_STATUS_LIMIT : Fld := ⟨8, 4⟩
/-- `EXC_STATUS.OPEN`, bits 7:4. -/
def EXC_STATUS_OPEN : Fld := ⟨4, 4⟩
/-- `EXC_STATUS.ON`, bits 3:0. -/
def EXC_STATUS_ON : Fld := ⟨0, 4⟩
/-- `SEQ_CTL.LANE_EN`, bits 5:5. -/
def SEQ_CTL_LANE_EN : Fld := ⟨5, 1⟩
/-- `SEQ_CTL.TRIG0_EDGE`, bits 4:3. -/
def SEQ_CTL_TRIG0_EDGE : Fld := ⟨3, 2⟩
/-- `SEQ_CTL.MODE`, bits 2:2. -/
def SEQ_CTL_MODE : Fld := ⟨2, 1⟩
/-- `SEQ_CTL.STOP`, bits 1:1. -/
def SEQ_CTL_STOP : Fld := ⟨1, 1⟩
/-- `SEQ_CTL.START`, bits 0:0. -/
def SEQ_CTL_START : Fld := ⟨0, 1⟩
/-- `SEQ_CFG.LEN`, bits 5:0. -/
def SEQ_CFG_LEN : Fld := ⟨0, 6⟩
/-- `SEQ_STATUS.REQUEUED`, bits 20:16. -/
def SEQ_STATUS_REQUEUED : Fld := ⟨16, 5⟩
/-- `SEQ_STATUS.NEXT`, bits 12:8. -/
def SEQ_STATUS_NEXT : Fld := ⟨8, 5⟩
/-- `SEQ_STATUS.INJ_RUNNING`, bits 2:2. -/
def SEQ_STATUS_INJ_RUNNING : Fld := ⟨2, 1⟩
/-- `SEQ_STATUS.REF_NOT_READY`, bits 1:1. -/
def SEQ_STATUS_REF_NOT_READY : Fld := ⟨1, 1⟩
/-- `SEQ_STATUS.RUNNING`, bits 0:0. -/
def SEQ_STATUS_RUNNING : Fld := ⟨0, 1⟩
/-- `INJ_CTL.TRIG1_EDGE`, bits 4:3. -/
def INJ_CTL_TRIG1_EDGE : Fld := ⟨3, 2⟩
/-- `INJ_CTL.MAINS`, bits 2:2. -/
def INJ_CTL_MAINS : Fld := ⟨2, 1⟩
/-- `INJ_CTL.PREEMPT`, bits 1:1. -/
def INJ_CTL_PREEMPT : Fld := ⟨1, 1⟩
/-- `INJ_CTL.START`, bits 0:0. -/
def INJ_CTL_START : Fld := ⟨0, 1⟩
/-- `INJ_CFG.LANE_EN`, bits 31:16. -/
def INJ_CFG_LANE_EN : Fld := ⟨16, 16⟩
/-- `INJ_CFG.TINT_MS`, bits 12:8. -/
def INJ_CFG_TINT_MS : Fld := ⟨8, 5⟩
/-- `INJ_CFG.SLICES`, bits 5:4. -/
def INJ_CFG_SLICES : Fld := ⟨4, 2⟩
/-- `INJ_CFG.LEN`, bits 3:0. -/
def INJ_CFG_LEN : Fld := ⟨0, 4⟩
/-- `SEQ_EVENT.CTR_SAT`, bits 16:16. -/
def SEQ_EVENT_CTR_SAT : Fld := ⟨16, 1⟩
/-- `SEQ_EVENT.AVG_DISCARD`, bits 7:7. -/
def SEQ_EVENT_AVG_DISCARD : Fld := ⟨7, 1⟩
/-- `SEQ_EVENT.AVG_SAT`, bits 6:6. -/
def SEQ_EVENT_AVG_SAT : Fld := ⟨6, 1⟩
/-- `SEQ_EVENT.BAD_ENTRY`, bits 5:5. -/
def SEQ_EVENT_BAD_ENTRY : Fld := ⟨5, 1⟩
/-- `SEQ_EVENT.OVERRUN`, bits 4:4. -/
def SEQ_EVENT_OVERRUN : Fld := ⟨4, 1⟩
/-- `SEQ_EVENT.REQUEUE`, bits 3:3. -/
def SEQ_EVENT_REQUEUE : Fld := ⟨3, 1⟩
/-- `SEQ_EVENT.INJ_DONE`, bits 2:2. -/
def SEQ_EVENT_INJ_DONE : Fld := ⟨2, 1⟩
/-- `SEQ_EVENT.PASS`, bits 1:1. -/
def SEQ_EVENT_PASS : Fld := ⟨1, 1⟩
/-- `SEQ_EVENT.DONE`, bits 0:0. -/
def SEQ_EVENT_DONE : Fld := ⟨0, 1⟩
/-- `SEQ_IRQ_EN.EN`, bits 16:0. -/
def SEQ_IRQ_EN_EN : Fld := ⟨0, 17⟩
/-- `SEQ_ENTRY.CHANNEL`, bits 7:0. -/
def SEQ_ENTRY_CHANNEL : Fld := ⟨0, 8⟩
/-- `INJ_ENTRY.CHANNEL`, bits 7:0. -/
def INJ_ENTRY_CHANNEL : Fld := ⟨0, 8⟩
/-- `CHAN_AVG.SHIFT`, bits 11:8. -/
def CHAN_AVG_SHIFT : Fld := ⟨8, 4⟩
/-- `CHAN_AVG.K`, bits 3:0. -/
def CHAN_AVG_K : Fld := ⟨0, 4⟩
/-- `REEL_CTL.CAL_START`, bits 12:8. -/
def REEL_CTL_CAL_START : Fld := ⟨8, 5⟩
/-- `REEL_CTL.EN`, bits 0:0. -/
def REEL_CTL_EN : Fld := ⟨0, 1⟩
/-- `REEL_PERIOD.SECONDS`, bits 9:0. -/
def REEL_PERIOD_SECONDS : Fld := ⟨0, 10⟩
/-- `CAL_RUN.REPEAT`, bits 18:16. -/
def CAL_RUN_REPEAT : Fld := ⟨16, 3⟩
/-- `CAL_RUN.TINT`, bits 7:0. -/
def CAL_RUN_TINT : Fld := ⟨0, 8⟩
/-- `REEL_STATUS.ELAPSED`, bits 31:20. -/
def REEL_STATUS_ELAPSED : Fld := ⟨20, 12⟩
/-- `REEL_STATUS.CAL_PENDING`, bits 12:8. -/
def REEL_STATUS_CAL_PENDING : Fld := ⟨8, 5⟩
/-- `REEL_STATUS.NEXT`, bits 6:4. -/
def REEL_STATUS_NEXT : Fld := ⟨4, 3⟩
/-- `REEL_STATUS.RUN_DONE`, bits 3:3. -/
def REEL_STATUS_RUN_DONE : Fld := ⟨3, 1⟩
/-- `REEL_STATUS.OFFLINE`, bits 2:0. -/
def REEL_STATUS_OFFLINE : Fld := ⟨0, 3⟩
/-- `CAL_LIM_RANGE.GAIN`, bits 27:16. -/
def CAL_LIM_RANGE_GAIN : Fld := ⟨16, 12⟩
/-- `CAL_LIM_RANGE.OFFSET`, bits 11:0. -/
def CAL_LIM_RANGE_OFFSET : Fld := ⟨0, 12⟩
/-- `CAL_LIM_STEP.GAIN`, bits 27:16. -/
def CAL_LIM_STEP_GAIN : Fld := ⟨16, 12⟩
/-- `CAL_LIM_STEP.OFFSET`, bits 11:0. -/
def CAL_LIM_STEP_OFFSET : Fld := ⟨0, 12⟩
/-- `CAL_LIM_FIRST.GAIN`, bits 27:16. -/
def CAL_LIM_FIRST_GAIN : Fld := ⟨16, 12⟩
/-- `CAL_LIM_FIRST.OFFSET`, bits 11:0. -/
def CAL_LIM_FIRST_OFFSET : Fld := ⟨0, 12⟩
/-- `CAL_LIM_CHECK.NOISE_MAX`, bits 23:16. -/
def CAL_LIM_CHECK_NOISE_MAX : Fld := ⟨16, 8⟩
/-- `CAL_LIM_CHECK.LIN_MAX`, bits 7:0. -/
def CAL_LIM_CHECK_LIN_MAX : Fld := ⟨0, 8⟩
/-- `CAL_MAXAGE.SECONDS`, bits 15:0. -/
def CAL_MAXAGE_SECONDS : Fld := ⟨0, 16⟩
/-- `SLICE_TRIM.GAIN`, bits 27:16. -/
def SLICE_TRIM_GAIN : Fld := ⟨16, 12⟩
/-- `SLICE_TRIM.OFFSET`, bits 11:0. -/
def SLICE_TRIM_OFFSET : Fld := ⟨0, 12⟩
/-- `SLICE_TRIM_STAGED.GAIN`, bits 27:16. -/
def SLICE_TRIM_STAGED_GAIN : Fld := ⟨16, 12⟩
/-- `SLICE_TRIM_STAGED.OFFSET`, bits 11:0. -/
def SLICE_TRIM_STAGED_OFFSET : Fld := ⟨0, 12⟩
/-- `SLICE_CAL_STATUS.STALE`, bits 15:15. -/
def SLICE_CAL_STATUS_STALE : Fld := ⟨15, 1⟩
/-- `SLICE_CAL_STATUS.FIRST`, bits 14:14. -/
def SLICE_CAL_STATUS_FIRST : Fld := ⟨14, 1⟩
/-- `SLICE_CAL_STATUS.STAGED`, bits 13:13. -/
def SLICE_CAL_STATUS_STAGED : Fld := ⟨13, 1⟩
/-- `SLICE_CAL_STATUS.BANK`, bits 12:12. -/
def SLICE_CAL_STATUS_BANK : Fld := ⟨12, 1⟩
/-- `SLICE_CAL_STATUS.TB_VALID`, bits 8:8. -/
def SLICE_CAL_STATUS_TB_VALID : Fld := ⟨8, 1⟩
/-- `SLICE_CAL_STATUS.REASON`, bits 7:0. -/
def SLICE_CAL_STATUS_REASON : Fld := ⟨0, 8⟩
/-- `PORT_CTL.PARK`, bits 8:8. -/
def PORT_CTL_PARK : Fld := ⟨8, 1⟩
/-- `PORT_CTL.MISWIRE_CLR`, bits 7:7. -/
def PORT_CTL_MISWIRE_CLR : Fld := ⟨7, 1⟩
/-- `PORT_CTL.SUPPLY_EN`, bits 6:6. -/
def PORT_CTL_SUPPLY_EN : Fld := ⟨6, 1⟩
/-- `PORT_CTL.FS_FORCE`, bits 5:5. -/
def PORT_CTL_FS_FORCE : Fld := ⟨5, 1⟩
/-- `PORT_CTL.FS_SELECT`, bits 4:4. -/
def PORT_CTL_FS_SELECT : Fld := ⟨4, 1⟩
/-- `PORT_CTL.ROLE`, bits 3:0. -/
def PORT_CTL_ROLE : Fld := ⟨0, 4⟩
/-- `LOOP_SET.VALUE`, bits 15:0. -/
def LOOP_SET_VALUE : Fld := ⟨0, 16⟩
/-- `LOOP_SLEW.STEP`, bits 15:0. -/
def LOOP_SLEW_STEP : Fld := ⟨0, 16⟩
/-- `LOOP_FS.HIGH`, bits 31:16. -/
def LOOP_FS_HIGH : Fld := ⟨16, 16⟩
/-- `LOOP_FS.LOW`, bits 15:0. -/
def LOOP_FS_LOW : Fld := ⟨0, 16⟩
/-- `LOOP_TOL.TIME`, bits 31:16. -/
def LOOP_TOL_TIME : Fld := ⟨16, 16⟩
/-- `LOOP_TOL.TOL`, bits 15:0. -/
def LOOP_TOL_TOL : Fld := ⟨0, 16⟩
/-- `PORT_PROT.MISWIRE_RETRY`, bits 3:0. -/
def PORT_PROT_MISWIRE_RETRY : Fld := ⟨0, 4⟩
/-- `LOOP_TARGET.VALUE`, bits 15:0. -/
def LOOP_TARGET_VALUE : Fld := ⟨0, 16⟩
/-- `PORT_STATUS.ROLE_ACTIVE`, bits 19:16. -/
def PORT_STATUS_ROLE_ACTIVE : Fld := ⟨16, 4⟩
/-- `PORT_STATUS.TETHER_READY`, bits 11:11. -/
def PORT_STATUS_TETHER_READY : Fld := ⟨11, 1⟩
/-- `PORT_STATUS.LOW_MARGIN`, bits 10:10. -/
def PORT_STATUS_LOW_MARGIN : Fld := ⟨10, 1⟩
/-- `PORT_STATUS.SHORT`, bits 9:9. -/
def PORT_STATUS_SHORT : Fld := ⟨9, 1⟩
/-- `PORT_STATUS.THERMAL`, bits 8:8. -/
def PORT_STATUS_THERMAL : Fld := ⟨8, 1⟩
/-- `PORT_STATUS.KEEPER`, bits 7:7. -/
def PORT_STATUS_KEEPER : Fld := ⟨7, 1⟩
/-- `PORT_STATUS.FAILSAFE`, bits 6:6. -/
def PORT_STATUS_FAILSAFE : Fld := ⟨6, 1⟩
/-- `PORT_STATUS.MISWIRE`, bits 5:5. -/
def PORT_STATUS_MISWIRE : Fld := ⟨5, 1⟩
/-- `PORT_STATUS.TONE_CLIP`, bits 4:4. -/
def PORT_STATUS_TONE_CLIP : Fld := ⟨4, 1⟩
/-- `PORT_STATUS.LOOP_HEADROOM`, bits 3:3. -/
def PORT_STATUS_LOOP_HEADROOM : Fld := ⟨3, 1⟩
/-- `PORT_STATUS.LOOP_MISMATCH`, bits 2:2. -/
def PORT_STATUS_LOOP_MISMATCH : Fld := ⟨2, 1⟩
/-- `PORT_STATUS.SLEWING`, bits 1:1. -/
def PORT_STATUS_SLEWING : Fld := ⟨1, 1⟩
/-- `PORT_STATUS.DRIVING`, bits 0:0. -/
def PORT_STATUS_DRIVING : Fld := ⟨0, 1⟩
/-- `PORT_EVENT.CTR_SAT`, bits 16:16. -/
def PORT_EVENT_CTR_SAT : Fld := ⟨16, 1⟩
/-- `PORT_EVENT.SET_RANGE`, bits 13:13. -/
def PORT_EVENT_SET_RANGE : Fld := ⟨13, 1⟩
/-- `PORT_EVENT.ROLE_ERR`, bits 12:12. -/
def PORT_EVENT_ROLE_ERR : Fld := ⟨12, 1⟩
/-- `PORT_EVENT.SHORT`, bits 9:9. -/
def PORT_EVENT_SHORT : Fld := ⟨9, 1⟩
/-- `PORT_EVENT.THERMAL`, bits 8:8. -/
def PORT_EVENT_THERMAL : Fld := ⟨8, 1⟩
/-- `PORT_EVENT.KEEPER`, bits 7:7. -/
def PORT_EVENT_KEEPER : Fld := ⟨7, 1⟩
/-- `PORT_EVENT.FAILSAFE`, bits 6:6. -/
def PORT_EVENT_FAILSAFE : Fld := ⟨6, 1⟩
/-- `PORT_EVENT.MISWIRE`, bits 5:5. -/
def PORT_EVENT_MISWIRE : Fld := ⟨5, 1⟩
/-- `PORT_EVENT.TONE_CLIP`, bits 4:4. -/
def PORT_EVENT_TONE_CLIP : Fld := ⟨4, 1⟩
/-- `PORT_EVENT.LOOP_HEADROOM`, bits 3:3. -/
def PORT_EVENT_LOOP_HEADROOM : Fld := ⟨3, 1⟩
/-- `PORT_EVENT.LOOP_MISMATCH`, bits 2:2. -/
def PORT_EVENT_LOOP_MISMATCH : Fld := ⟨2, 1⟩
/-- `PORT_IRQ_EN.EN`, bits 16:0. -/
def PORT_IRQ_EN_EN : Fld := ⟨0, 17⟩
/-- `PORT_VTERM.MARGIN`, bits 31:16. -/
def PORT_VTERM_MARGIN : Fld := ⟨16, 16⟩
/-- `PORT_VTERM.VTERM`, bits 15:0. -/
def PORT_VTERM_VTERM : Fld := ⟨0, 16⟩
/-- `MODEM_CTL.AMP`, bits 11:8. -/
def MODEM_CTL_AMP : Fld := ⟨8, 4⟩
/-- `MODEM_CTL.RX_RELEASE`, bits 5:5. -/
def MODEM_CTL_RX_RELEASE : Fld := ⟨5, 1⟩
/-- `MODEM_CTL.ABORT`, bits 4:4. -/
def MODEM_CTL_ABORT : Fld := ⟨4, 1⟩
/-- `MODEM_CTL.SEND`, bits 3:3. -/
def MODEM_CTL_SEND : Fld := ⟨3, 1⟩
/-- `MODEM_CTL.TONE_Z`, bits 2:2. -/
def MODEM_CTL_TONE_Z : Fld := ⟨2, 1⟩
/-- `MODEM_CTL.MASTER`, bits 1:1. -/
def MODEM_CTL_MASTER : Fld := ⟨1, 1⟩
/-- `MODEM_CTL.EN`, bits 0:0. -/
def MODEM_CTL_EN : Fld := ⟨0, 1⟩
/-- `MODEM_ADDR.MASTER_SRC`, bits 15:8. -/
def MODEM_ADDR_MASTER_SRC : Fld := ⟨8, 8⟩
/-- `MODEM_ADDR.ADDR`, bits 7:0. -/
def MODEM_ADDR_ADDR : Fld := ⟨0, 8⟩
/-- `MODEM_TIMING.SLAVE_TA`, bits 27:24. -/
def MODEM_TIMING_SLAVE_TA : Fld := ⟨24, 4⟩
/-- `MODEM_TIMING.QUIET`, bits 19:16. -/
def MODEM_TIMING_QUIET : Fld := ⟨16, 4⟩
/-- `MODEM_TIMING.RETRIES`, bits 9:8. -/
def MODEM_TIMING_RETRIES : Fld := ⟨8, 2⟩
/-- `MODEM_TIMING.RSP_TMO`, bits 7:0. -/
def MODEM_TIMING_RSP_TMO : Fld := ⟨0, 8⟩
/-- `MODEM_STATUS.SESSION_SRC`, bits 31:24. -/
def MODEM_STATUS_SESSION_SRC : Fld := ⟨24, 8⟩
/-- `MODEM_STATUS.SESSION_LEVEL`, bits 17:16. -/
def MODEM_STATUS_SESSION_LEVEL : Fld := ⟨16, 2⟩
/-- `MODEM_STATUS.LAST_SEQ`, bits 15:12. -/
def MODEM_STATUS_LAST_SEQ : Fld := ⟨12, 4⟩
/-- `MODEM_STATUS.RX_TB_VALID`, bits 7:7. -/
def MODEM_STATUS_RX_TB_VALID : Fld := ⟨7, 1⟩
/-- `MODEM_STATUS.SUSPENDED`, bits 6:6. -/
def MODEM_STATUS_SUSPENDED : Fld := ⟨6, 1⟩
/-- `MODEM_STATUS.RX_FULL`, bits 5:5. -/
def MODEM_STATUS_RX_FULL : Fld := ⟨5, 1⟩
/-- `MODEM_STATUS.TX_BUSY`, bits 4:4. -/
def MODEM_STATUS_TX_BUSY : Fld := ⟨4, 1⟩
/-- `MODEM_STATUS.TX_ACTIVE`, bits 3:3. -/
def MODEM_STATUS_TX_ACTIVE : Fld := ⟨3, 1⟩
/-- `MODEM_STATUS.RX_ACTIVE`, bits 2:2. -/
def MODEM_STATUS_RX_ACTIVE : Fld := ⟨2, 1⟩
/-- `MODEM_STATUS.TIMING`, bits 1:1. -/
def MODEM_STATUS_TIMING : Fld := ⟨1, 1⟩
/-- `MODEM_STATUS.CARRIER`, bits 0:0. -/
def MODEM_STATUS_CARRIER : Fld := ⟨0, 1⟩
/-- `MODEM_EVENT.CTR_SAT`, bits 16:16. -/
def MODEM_EVENT_CTR_SAT : Fld := ⟨16, 1⟩
/-- `MODEM_EVENT.AUTH_FAIL`, bits 9:9. -/
def MODEM_EVENT_AUTH_FAIL : Fld := ⟨9, 1⟩
/-- `MODEM_EVENT.SESSION`, bits 8:8. -/
def MODEM_EVENT_SESSION : Fld := ⟨8, 1⟩
/-- `MODEM_EVENT.SEND_ERR`, bits 7:7. -/
def MODEM_EVENT_SEND_ERR : Fld := ⟨7, 1⟩
/-- `MODEM_EVENT.ABORTED`, bits 6:6. -/
def MODEM_EVENT_ABORTED : Fld := ⟨6, 1⟩
/-- `MODEM_EVENT.RX_OVERRUN`, bits 5:5. -/
def MODEM_EVENT_RX_OVERRUN : Fld := ⟨5, 1⟩
/-- `MODEM_EVENT.FRAME_ERR`, bits 4:4. -/
def MODEM_EVENT_FRAME_ERR : Fld := ⟨4, 1⟩
/-- `MODEM_EVENT.TIMEOUT`, bits 3:3. -/
def MODEM_EVENT_TIMEOUT : Fld := ⟨3, 1⟩
/-- `MODEM_EVENT.RESPONSE`, bits 2:2. -/
def MODEM_EVENT_RESPONSE : Fld := ⟨2, 1⟩
/-- `MODEM_EVENT.RX_FRAME`, bits 1:1. -/
def MODEM_EVENT_RX_FRAME : Fld := ⟨1, 1⟩
/-- `MODEM_EVENT.TX_DONE`, bits 0:0. -/
def MODEM_EVENT_TX_DONE : Fld := ⟨0, 1⟩
/-- `MODEM_IRQ_EN.EN`, bits 16:0. -/
def MODEM_IRQ_EN_EN : Fld := ⟨0, 17⟩
/-- `MODEM_TX_HDR.EXPECT`, bits 24:24. -/
def MODEM_TX_HDR_EXPECT : Fld := ⟨24, 1⟩
/-- `MODEM_TX_HDR.LEN`, bits 22:16. -/
def MODEM_TX_HDR_LEN : Fld := ⟨16, 7⟩
/-- `MODEM_TX_HDR.CTL`, bits 15:8. -/
def MODEM_TX_HDR_CTL : Fld := ⟨8, 8⟩
/-- `MODEM_TX_HDR.DST`, bits 7:0. -/
def MODEM_TX_HDR_DST : Fld := ⟨0, 8⟩
/-- `MODEM_RX_HDR.CTL`, bits 31:24. -/
def MODEM_RX_HDR_CTL : Fld := ⟨24, 8⟩
/-- `MODEM_RX_HDR.SRC`, bits 23:16. -/
def MODEM_RX_HDR_SRC : Fld := ⟨16, 8⟩
/-- `MODEM_RX_HDR.DST`, bits 15:8. -/
def MODEM_RX_HDR_DST : Fld := ⟨8, 8⟩
/-- `MODEM_RX_HDR.LEN`, bits 7:0. -/
def MODEM_RX_HDR_LEN : Fld := ⟨0, 8⟩
/-- `LOOP_TRIM_CTL.COMMIT`, bits 2:2. -/
def LOOP_TRIM_CTL_COMMIT : Fld := ⟨2, 1⟩
/-- `LOOP_TRIM_CTL.APPLY`, bits 1:1. -/
def LOOP_TRIM_CTL_APPLY : Fld := ⟨1, 1⟩
/-- `LOOP_TRIM_CTL.START`, bits 0:0. -/
def LOOP_TRIM_CTL_START : Fld := ⟨0, 1⟩
/-- `LOOP_TRIM_STATUS.TB_VALID`, bits 18:18. -/
def LOOP_TRIM_STATUS_TB_VALID : Fld := ⟨18, 1⟩
/-- `LOOP_TRIM_STATUS.STAGED`, bits 17:17. -/
def LOOP_TRIM_STATUS_STAGED : Fld := ⟨17, 1⟩
/-- `LOOP_TRIM_STATUS.RUNNING`, bits 16:16. -/
def LOOP_TRIM_STATUS_RUNNING : Fld := ⟨16, 1⟩
/-- `LOOP_TRIM_STATUS.REASON`, bits 7:0. -/
def LOOP_TRIM_STATUS_REASON : Fld := ⟨0, 8⟩
/-- `LOOP_TRIM.GAIN`, bits 27:16. -/
def LOOP_TRIM_GAIN : Fld := ⟨16, 12⟩
/-- `LOOP_TRIM.OFFSET`, bits 13:0. -/
def LOOP_TRIM_OFFSET : Fld := ⟨0, 14⟩
/-- `LOOP_TRIM_STAGED.GAIN`, bits 27:16. -/
def LOOP_TRIM_STAGED_GAIN : Fld := ⟨16, 12⟩
/-- `LOOP_TRIM_STAGED.OFFSET`, bits 13:0. -/
def LOOP_TRIM_STAGED_OFFSET : Fld := ⟨0, 14⟩
/-- `KEEPER_CTL.TIMEOUT`, bits 31:16. -/
def KEEPER_CTL_TIMEOUT : Fld := ⟨16, 16⟩
/-- `KEEPER_CTL.WAKE_EN`, bits 7:4. -/
def KEEPER_CTL_WAKE_EN : Fld := ⟨4, 4⟩
/-- `KEEPER_CTL.SUPERVISE`, bits 0:0. -/
def KEEPER_CTL_SUPERVISE : Fld := ⟨0, 1⟩
/-- `KEEPER_KICK.KICK`, bits 0:0. -/
def KEEPER_KICK_KICK : Fld := ⟨0, 1⟩
/-- `KEEPER_STATUS.HB_AGE`, bits 31:16. -/
def KEEPER_STATUS_HB_AGE : Fld := ⟨16, 16⟩
/-- `KEEPER_STATUS.PARKED`, bits 5:5. -/
def KEEPER_STATUS_PARKED : Fld := ⟨5, 1⟩
/-- `KEEPER_STATUS.HELD`, bits 4:4. -/
def KEEPER_STATUS_HELD : Fld := ⟨4, 1⟩
/-- `KEEPER_STATUS.PORTS`, bits 3:0. -/
def KEEPER_STATUS_PORTS : Fld := ⟨0, 4⟩
/-- `LD_EVENT.KEEPER_WAKE`, bits 2:2. -/
def LD_EVENT_KEEPER_WAKE : Fld := ⟨2, 1⟩
/-- `LD_EVENT.VFIELD_LOW`, bits 1:1. -/
def LD_EVENT_VFIELD_LOW : Fld := ⟨1, 1⟩
/-- `LD_EVENT.KEEPER_TIMEOUT`, bits 0:0. -/
def LD_EVENT_KEEPER_TIMEOUT : Fld := ⟨0, 1⟩
/-- `LD_IRQ_EN.EN`, bits 2:0. -/
def LD_IRQ_EN_EN : Fld := ⟨0, 3⟩
/-- `LD_SUMMARY.COMMON`, bits 8:8. -/
def LD_SUMMARY_COMMON : Fld := ⟨8, 1⟩
/-- `LD_SUMMARY.MODEM`, bits 7:4. -/
def LD_SUMMARY_MODEM : Fld := ⟨4, 4⟩
/-- `LD_SUMMARY.PORT`, bits 3:0. -/
def LD_SUMMARY_PORT : Fld := ⟨0, 4⟩
/-- `LD_DIE_REV.DIE`, bits 26:24. -/
def LD_DIE_REV_DIE : Fld := ⟨24, 3⟩
/-- `LD_DIE_REV.MAJOR`, bits 15:8. -/
def LD_DIE_REV_MAJOR : Fld := ⟨8, 8⟩
/-- `LD_DIE_REV.MINOR`, bits 7:0. -/
def LD_DIE_REV_MINOR : Fld := ⟨0, 8⟩
/-- `BG_CHECK.VALID`, bits 31:31. -/
def BG_CHECK_VALID : Fld := ⟨31, 1⟩
/-- `BG_CHECK.DISAGREE`, bits 30:30. -/
def BG_CHECK_DISAGREE : Fld := ⟨30, 1⟩
/-- `BG_CHECK.DIFF`, bits 15:0. -/
def BG_CHECK_DIFF : Fld := ⟨0, 16⟩
/-- `TRX_CTL.DRIVE`, bits 8:6. -/
def TRX_CTL_DRIVE : Fld := ⟨6, 3⟩
/-- `TRX_CTL.CAPTURE_EN`, bits 2:2. -/
def TRX_CTL_CAPTURE_EN : Fld := ⟨2, 1⟩
/-- `TRX_CTL.EN`, bits 0:0. -/
def TRX_CTL_EN : Fld := ⟨0, 1⟩
/-- `TRX_DETECT.DET_THRESH`, bits 15:8. -/
def TRX_DETECT_DET_THRESH : Fld := ⟨8, 8⟩
/-- `TRX_DETECT.MARGIN`, bits 3:0. -/
def TRX_DETECT_MARGIN : Fld := ⟨0, 4⟩
/-- `TRX_TIMING.TX_GAP`, bits 23:16. -/
def TRX_TIMING_TX_GAP : Fld := ⟨16, 8⟩
/-- `TRX_TIMING.RX_BLANK`, bits 5:0. -/
def TRX_TIMING_RX_BLANK : Fld := ⟨0, 6⟩
/-- `TRX_STATUS.TX_TB_VALID`, bits 21:21. -/
def TRX_STATUS_TX_TB_VALID : Fld := ⟨21, 1⟩
/-- `TRX_STATUS.RX_TB_VALID`, bits 20:20. -/
def TRX_STATUS_RX_TB_VALID : Fld := ⟨20, 1⟩
/-- `TRX_STATUS.CODE_INDEX`, bits 19:18. -/
def TRX_STATUS_CODE_INDEX : Fld := ⟨18, 2⟩
/-- `TRX_STATUS.RX_SF`, bits 17:16. -/
def TRX_STATUS_RX_SF : Fld := ⟨16, 2⟩
/-- `TRX_STATUS.BYPASSED`, bits 11:11. -/
def TRX_STATUS_BYPASSED : Fld := ⟨11, 1⟩
/-- `TRX_STATUS.TX_PENDING`, bits 10:10. -/
def TRX_STATUS_TX_PENDING : Fld := ⟨10, 1⟩
/-- `TRX_STATUS.LINK_SILENT`, bits 9:9. -/
def TRX_STATUS_LINK_SILENT : Fld := ⟨9, 1⟩
/-- `TRX_STATUS.SELFTEST_OK`, bits 8:8. -/
def TRX_STATUS_SELFTEST_OK : Fld := ⟨8, 1⟩
/-- `TRX_STATUS.LINK_READY`, bits 7:7. -/
def TRX_STATUS_LINK_READY : Fld := ⟨7, 1⟩
/-- `TRX_STATUS.CLIP`, bits 6:6. -/
def TRX_STATUS_CLIP : Fld := ⟨6, 1⟩
/-- `TRX_STATUS.CANDIDATE`, bits 5:5. -/
def TRX_STATUS_CANDIDATE : Fld := ⟨5, 1⟩
/-- `TRX_STATUS.AGC_FROZEN`, bits 4:4. -/
def TRX_STATUS_AGC_FROZEN : Fld := ⟨4, 1⟩
/-- `TRX_STATUS.RX_STATE`, bits 2:0. -/
def TRX_STATUS_RX_STATE : Fld := ⟨0, 3⟩
/-- `TRX_LEVEL.GAIN`, bits 31:16. -/
def TRX_LEVEL_GAIN : Fld := ⟨16, 16⟩
/-- `TRX_LEVEL.LEVEL`, bits 15:0. -/
def TRX_LEVEL_LEVEL : Fld := ⟨0, 16⟩
/-- `TRX_SNR.ES_N0`, bits 15:0. -/
def TRX_SNR_ES_N0 : Fld := ⟨0, 16⟩
/-- `TRX_EVENT.CTR_SAT`, bits 16:16. -/
def TRX_EVENT_CTR_SAT : Fld := ⟨16, 1⟩
/-- `TRX_EVENT.SELFTEST_FAIL`, bits 9:9. -/
def TRX_EVENT_SELFTEST_FAIL : Fld := ⟨9, 1⟩
/-- `TRX_EVENT.TX_CUT`, bits 8:8. -/
def TRX_EVENT_TX_CUT : Fld := ⟨8, 1⟩
/-- `TRX_EVENT.LINK_SILENT`, bits 7:7. -/
def TRX_EVENT_LINK_SILENT : Fld := ⟨7, 1⟩
/-- `TRX_EVENT.LINK_DOWN`, bits 6:6. -/
def TRX_EVENT_LINK_DOWN : Fld := ⟨6, 1⟩
/-- `TRX_EVENT.LINK_UP`, bits 5:5. -/
def TRX_EVENT_LINK_UP : Fld := ⟨5, 1⟩
/-- `TRX_EVENT.CLIP`, bits 4:4. -/
def TRX_EVENT_CLIP : Fld := ⟨4, 1⟩
/-- `TRX_EVENT.ACQ_TIMEOUT`, bits 3:3. -/
def TRX_EVENT_ACQ_TIMEOUT : Fld := ⟨3, 1⟩
/-- `TRX_EVENT.FALSE_DETECT`, bits 2:2. -/
def TRX_EVENT_FALSE_DETECT : Fld := ⟨2, 1⟩
/-- `TRX_EVENT.LOST_TO_CAPTURE`, bits 1:1. -/
def TRX_EVENT_LOST_TO_CAPTURE : Fld := ⟨1, 1⟩
/-- `TRX_EVENT.CAPTURE`, bits 0:0. -/
def TRX_EVENT_CAPTURE : Fld := ⟨0, 1⟩
/-- `TRX_IRQ_EN.EN`, bits 16:0. -/
def TRX_IRQ_EN_EN : Fld := ⟨0, 17⟩
/-- `DEC_CTL.MAX_ITER`, bits 4:0. -/
def DEC_CTL_MAX_ITER : Fld := ⟨0, 5⟩
/-- `DEC_STATUS.PEAK_ITER`, bits 20:16. -/
def DEC_STATUS_PEAK_ITER : Fld := ⟨16, 5⟩
/-- `DEC_STATUS.LAST_ITER`, bits 4:0. -/
def DEC_STATUS_LAST_ITER : Fld := ⟨0, 5⟩
/-- `DEC_EVENT.CTR_SAT`, bits 16:16. -/
def DEC_EVENT_CTR_SAT : Fld := ⟨16, 1⟩
/-- `DEC_EVENT.CW_FAIL`, bits 0:0. -/
def DEC_EVENT_CW_FAIL : Fld := ⟨0, 1⟩
/-- `DEC_IRQ_EN.EN`, bits 16:0. -/
def DEC_IRQ_EN_EN : Fld := ⟨0, 17⟩
/-- `TD_DIE_REV.DIE`, bits 26:24. -/
def TD_DIE_REV_DIE : Fld := ⟨24, 3⟩
/-- `TD_DIE_REV.MAJOR`, bits 15:8. -/
def TD_DIE_REV_MAJOR : Fld := ⟨8, 8⟩
/-- `TD_DIE_REV.MINOR`, bits 7:0. -/
def TD_DIE_REV_MINOR : Fld := ⟨0, 8⟩
/-- `DPD_CTL.MU`, bits 10:8. -/
def DPD_CTL_MU : Fld := ⟨8, 3⟩
/-- `DPD_CTL.RESET_TE`, bits 5:5. -/
def DPD_CTL_RESET_TE : Fld := ⟨5, 1⟩
/-- `DPD_CTL.RESET_TW`, bits 4:4. -/
def DPD_CTL_RESET_TW : Fld := ⟨4, 1⟩
/-- `DPD_CTL.BYPASS_TE`, bits 3:3. -/
def DPD_CTL_BYPASS_TE : Fld := ⟨3, 1⟩
/-- `DPD_CTL.BYPASS_TW`, bits 2:2. -/
def DPD_CTL_BYPASS_TW : Fld := ⟨2, 1⟩
/-- `DPD_CTL.ADAPT_TE`, bits 1:1. -/
def DPD_CTL_ADAPT_TE : Fld := ⟨1, 1⟩
/-- `DPD_CTL.ADAPT_TW`, bits 0:0. -/
def DPD_CTL_ADAPT_TW : Fld := ⟨0, 1⟩
/-- `DPD_STATUS.PAUSE_TE`, bits 20:16. -/
def DPD_STATUS_PAUSE_TE : Fld := ⟨16, 5⟩
/-- `DPD_STATUS.PAUSE_TW`, bits 12:8. -/
def DPD_STATUS_PAUSE_TW : Fld := ⟨8, 5⟩
/-- `DPD_STATUS.CONVERGED_TE`, bits 1:1. -/
def DPD_STATUS_CONVERGED_TE : Fld := ⟨1, 1⟩
/-- `DPD_STATUS.CONVERGED_TW`, bits 0:0. -/
def DPD_STATUS_CONVERGED_TW : Fld := ⟨0, 1⟩
/-- `DPD_ERR.TE`, bits 31:16. -/
def DPD_ERR_TE : Fld := ⟨16, 16⟩
/-- `DPD_ERR.TW`, bits 15:0. -/
def DPD_ERR_TW : Fld := ⟨0, 16⟩
/-- `DPD_EVENT.CTR_SAT`, bits 16:16. -/
def DPD_EVENT_CTR_SAT : Fld := ⟨16, 1⟩
/-- `DPD_EVENT.REVERT_TE`, bits 1:1. -/
def DPD_EVENT_REVERT_TE : Fld := ⟨1, 1⟩
/-- `DPD_EVENT.REVERT_TW`, bits 0:0. -/
def DPD_EVENT_REVERT_TW : Fld := ⟨0, 1⟩
/-- `DPD_IRQ_EN.EN`, bits 16:0. -/
def DPD_IRQ_EN_EN : Fld := ⟨0, 17⟩
/-- `DPD_COEF_TW.RE`, bits 31:16. -/
def DPD_COEF_TW_RE : Fld := ⟨16, 16⟩
/-- `DPD_COEF_TW.IM`, bits 15:0. -/
def DPD_COEF_TW_IM : Fld := ⟨0, 16⟩
/-- `DPD_COEF_TE.RE`, bits 31:16. -/
def DPD_COEF_TE_RE : Fld := ⟨16, 16⟩
/-- `DPD_COEF_TE.IM`, bits 15:0. -/
def DPD_COEF_TE_IM : Fld := ⟨0, 16⟩
/-- `RING_CTL.CUT_THROUGH`, bits 2:2. -/
def RING_CTL_CUT_THROUGH : Fld := ⟨2, 1⟩
/-- `RING_CTL.HUNT`, bits 1:1. -/
def RING_CTL_HUNT : Fld := ⟨1, 1⟩
/-- `RING_CTL.TIME_FOLLOW`, bits 0:0. -/
def RING_CTL_TIME_FOLLOW : Fld := ⟨0, 1⟩
/-- `RING_CFG_REQ.CYCLE_MS`, bits 25:16. -/
def RING_CFG_REQ_CYCLE_MS : Fld := ⟨16, 10⟩
/-- `RING_CFG_REQ.MASTER_MODE`, bits 13:12. -/
def RING_CFG_REQ_MASTER_MODE : Fld := ⟨12, 2⟩
/-- `RING_CFG_REQ.CODE`, bits 11:10. -/
def RING_CFG_REQ_CODE : Fld := ⟨10, 2⟩
/-- `RING_CFG_REQ.SF`, bits 9:8. -/
def RING_CFG_REQ_SF : Fld := ⟨8, 2⟩
/-- `RING_CFG_REQ.NODE_ADDR`, bits 6:0. -/
def RING_CFG_REQ_NODE_ADDR : Fld := ⟨0, 7⟩
/-- `RING_CFG.CYCLE_MS`, bits 25:16. -/
def RING_CFG_CYCLE_MS : Fld := ⟨16, 10⟩
/-- `RING_CFG.MASTER_MODE`, bits 13:12. -/
def RING_CFG_MASTER_MODE : Fld := ⟨12, 2⟩
/-- `RING_CFG.CODE`, bits 11:10. -/
def RING_CFG_CODE : Fld := ⟨10, 2⟩
/-- `RING_CFG.SF`, bits 9:8. -/
def RING_CFG_SF : Fld := ⟨8, 2⟩
/-- `RING_CFG.NODE_ADDR`, bits 6:0. -/
def RING_CFG_NODE_ADDR : Fld := ⟨0, 7⟩
/-- `RING_STATUS.MASTER`, bits 30:24. -/
def RING_STATUS_MASTER : Fld := ⟨24, 7⟩
/-- `RING_STATUS.RING_HOPS`, bits 23:17. -/
def RING_STATUS_RING_HOPS : Fld := ⟨17, 7⟩
/-- `RING_STATUS.TIME_LOCKED`, bits 16:16. -/
def RING_STATUS_TIME_LOCKED : Fld := ⟨16, 1⟩
/-- `RING_STATUS.CODE_OP`, bits 15:14. -/
def RING_STATUS_CODE_OP : Fld := ⟨14, 2⟩
/-- `RING_STATUS.SF_OP`, bits 13:12. -/
def RING_STATUS_SF_OP : Fld := ⟨12, 2⟩
/-- `RING_STATUS.CODE_HUNT`, bits 11:11. -/
def RING_STATUS_CODE_HUNT : Fld := ⟨11, 1⟩
/-- `RING_STATUS.ADDR_CONFLICT`, bits 10:10. -/
def RING_STATUS_ADDR_CONFLICT : Fld := ⟨10, 1⟩
/-- `RING_STATUS.BREAK_TE`, bits 9:9. -/
def RING_STATUS_BREAK_TE : Fld := ⟨9, 1⟩
/-- `RING_STATUS.BREAK_TW`, bits 8:8. -/
def RING_STATUS_BREAK_TW : Fld := ⟨8, 1⟩
/-- `RING_STATUS.CLOSED_E`, bits 7:7. -/
def RING_STATUS_CLOSED_E : Fld := ⟨7, 1⟩
/-- `RING_STATUS.CLOSED_W`, bits 6:6. -/
def RING_STATUS_CLOSED_W : Fld := ⟨6, 1⟩
/-- `RING_STATUS.ROLE`, bits 1:0. -/
def RING_STATUS_ROLE : Fld := ⟨0, 2⟩
/-- `RING_TOPO.BREAK_VALID`, bits 31:31. -/
def RING_TOPO_BREAK_VALID : Fld := ⟨31, 1⟩
/-- `RING_TOPO.BREAK_HOP`, bits 30:24. -/
def RING_TOPO_BREAK_HOP : Fld := ⟨24, 7⟩
/-- `RING_TOPO.TE_KNOWN`, bits 23:23. -/
def RING_TOPO_TE_KNOWN : Fld := ⟨23, 1⟩
/-- `RING_TOPO.TE_NBR`, bits 22:16. -/
def RING_TOPO_TE_NBR : Fld := ⟨16, 7⟩
/-- `RING_TOPO.TW_KNOWN`, bits 15:15. -/
def RING_TOPO_TW_KNOWN : Fld := ⟨15, 1⟩
/-- `RING_TOPO.TW_NBR`, bits 14:8. -/
def RING_TOPO_TW_NBR : Fld := ⟨8, 7⟩
/-- `RING_EVENT.CTR_SAT`, bits 16:16. -/
def RING_EVENT_CTR_SAT : Fld := ⟨16, 1⟩
/-- `RING_EVENT.RX_OVERRUN`, bits 11:11. -/
def RING_EVENT_RX_OVERRUN : Fld := ⟨11, 1⟩
/-- `RING_EVENT.RX_MSG`, bits 10:10. -/
def RING_EVENT_RX_MSG : Fld := ⟨10, 1⟩
/-- `RING_EVENT.TX_DONE`, bits 9:9. -/
def RING_EVENT_TX_DONE : Fld := ⟨9, 1⟩
/-- `RING_EVENT.TX_ERR`, bits 8:8. -/
def RING_EVENT_TX_ERR : Fld := ⟨8, 1⟩
/-- `RING_EVENT.CONFIG_CHANGE`, bits 7:7. -/
def RING_EVENT_CONFIG_CHANGE : Fld := ⟨7, 1⟩
/-- `RING_EVENT.TIME_STEP`, bits 6:6. -/
def RING_EVENT_TIME_STEP : Fld := ⟨6, 1⟩
/-- `RING_EVENT.ADDR_CONFLICT`, bits 5:5. -/
def RING_EVENT_ADDR_CONFLICT : Fld := ⟨5, 1⟩
/-- `RING_EVENT.BREAK_LOCATED`, bits 4:4. -/
def RING_EVENT_BREAK_LOCATED : Fld := ⟨4, 1⟩
/-- `RING_EVENT.LINK_BREAK`, bits 3:3. -/
def RING_EVENT_LINK_BREAK : Fld := ⟨3, 1⟩
/-- `RING_EVENT.CLOSED`, bits 2:2. -/
def RING_EVENT_CLOSED : Fld := ⟨2, 1⟩
/-- `RING_EVENT.MASTER_CHANGE`, bits 1:1. -/
def RING_EVENT_MASTER_CHANGE : Fld := ⟨1, 1⟩
/-- `RING_EVENT.ROLE`, bits 0:0. -/
def RING_EVENT_ROLE : Fld := ⟨0, 1⟩
/-- `RING_IRQ_EN.EN`, bits 16:0. -/
def RING_IRQ_EN_EN : Fld := ⟨0, 17⟩
/-- `RING_DEST.EVENT_DST`, bits 23:16. -/
def RING_DEST_EVENT_DST : Fld := ⟨16, 8⟩
/-- `RING_DEST.RECORD_DST`, bits 7:0. -/
def RING_DEST_RECORD_DST : Fld := ⟨0, 8⟩
/-- `RING_TX_HDR.TYPE`, bits 31:24. -/
def RING_TX_HDR_TYPE : Fld := ⟨24, 8⟩
/-- `RING_TX_HDR.DST`, bits 23:16. -/
def RING_TX_HDR_DST : Fld := ⟨16, 8⟩
/-- `RING_TX_HDR.TARGET_HOP`, bits 15:8. -/
def RING_TX_HDR_TARGET_HOP : Fld := ⟨8, 8⟩
/-- `RING_TX_HDR.PRIO`, bits 5:4. -/
def RING_TX_HDR_PRIO : Fld := ⟨4, 2⟩
/-- `RING_TX_HDR.DIR`, bits 1:1. -/
def RING_TX_HDR_DIR : Fld := ⟨1, 1⟩
/-- `RING_TX_HDR.POS`, bits 0:0. -/
def RING_TX_HDR_POS : Fld := ⟨0, 1⟩
/-- `RING_TX_LEN.BODY_LEN`, bits 8:0. -/
def RING_TX_LEN_BODY_LEN : Fld := ⟨0, 9⟩
/-- `RING_TX_CTL.SEND`, bits 0:0. -/
def RING_TX_CTL_SEND : Fld := ⟨0, 1⟩
/-- `RING_TX_STATUS.SEQ`, bits 31:16. -/
def RING_TX_STATUS_SEQ : Fld := ⟨16, 16⟩
/-- `RING_TX_STATUS.ERR`, bits 1:1. -/
def RING_TX_STATUS_ERR : Fld := ⟨1, 1⟩
/-- `RING_TX_STATUS.BUSY`, bits 0:0. -/
def RING_TX_STATUS_BUSY : Fld := ⟨0, 1⟩
/-- `RING_RX_CTL.ACCEPT`, bits 12:8. -/
def RING_RX_CTL_ACCEPT : Fld := ⟨8, 5⟩
/-- `RING_RX_CTL.POP`, bits 0:0. -/
def RING_RX_CTL_POP : Fld := ⟨0, 1⟩
/-- `RING_RX_STATUS.COUNT`, bits 3:0. -/
def RING_RX_STATUS_COUNT : Fld := ⟨0, 4⟩
/-- `BD_STATUS.HOLDUP`, bits 31:16. -/
def BD_STATUS_HOLDUP : Fld := ⟨16, 16⟩
/-- `BD_STATUS.TRUNK_ACT`, bits 5:5. -/
def BD_STATUS_TRUNK_ACT : Fld := ⟨5, 1⟩
/-- `BD_STATUS.BYPASS_CLOSED`, bits 4:4. -/
def BD_STATUS_BYPASS_CLOSED : Fld := ⟨4, 1⟩
/-- `BD_STATUS.SHUNT`, bits 3:3. -/
def BD_STATUS_SHUNT : Fld := ⟨3, 1⟩
/-- `BD_STATUS.TETHER_ARMED`, bits 2:2. -/
def BD_STATUS_TETHER_ARMED : Fld := ⟨2, 1⟩
/-- `BD_STATUS.PFW`, bits 1:1. -/
def BD_STATUS_PFW : Fld := ⟨1, 1⟩
/-- `BD_STATUS.VSYS_OK`, bits 0:0. -/
def BD_STATUS_VSYS_OK : Fld := ⟨0, 1⟩
/-- `BD_BYPASS_CTL.BYPASS_FORCE`, bits 0:0. -/
def BD_BYPASS_CTL_BYPASS_FORCE : Fld := ⟨0, 1⟩
/-- `BD_EVENT.BYPASS`, bits 5:5. -/
def BD_EVENT_BYPASS : Fld := ⟨5, 1⟩
/-- `BD_EVENT.TRUNK_ACT`, bits 4:4. -/
def BD_EVENT_TRUNK_ACT : Fld := ⟨4, 1⟩
/-- `BD_EVENT.TETHER_EXIT`, bits 3:3. -/
def BD_EVENT_TETHER_EXIT : Fld := ⟨3, 1⟩
/-- `BD_EVENT.TETHER_ENTRY`, bits 2:2. -/
def BD_EVENT_TETHER_ENTRY : Fld := ⟨2, 1⟩
/-- `BD_EVENT.VSYS_RETURN`, bits 1:1. -/
def BD_EVENT_VSYS_RETURN : Fld := ⟨1, 1⟩
/-- `BD_EVENT.PFW`, bits 0:0. -/
def BD_EVENT_PFW : Fld := ⟨0, 1⟩
/-- `BD_IRQ_EN.EN`, bits 5:0. -/
def BD_IRQ_EN_EN : Fld := ⟨0, 6⟩
/-- `BD_DIE_REV.DIE`, bits 26:24. -/
def BD_DIE_REV_DIE : Fld := ⟨24, 3⟩
/-- `BD_DIE_REV.MAJOR`, bits 15:8. -/
def BD_DIE_REV_MAJOR : Fld := ⟨8, 8⟩
/-- `BD_DIE_REV.MINOR`, bits 7:0. -/
def BD_DIE_REV_MINOR : Fld := ⟨0, 8⟩
/-- `LANE_CTL.FAULT_FS`, bits 10:10. -/
def LANE_CTL_FAULT_FS : Fld := ⟨10, 1⟩
/-- `LANE_CTL.WARM`, bits 9:9. -/
def LANE_CTL_WARM : Fld := ⟨9, 1⟩
/-- `LANE_CTL.MAN`, bits 8:8. -/
def LANE_CTL_MAN : Fld := ⟨8, 1⟩
/-- `LANE_CTL.CLEAR_LATCH`, bits 5:5. -/
def LANE_CTL_CLEAR_LATCH : Fld := ⟨5, 1⟩
/-- `LANE_CTL.RESET_STATS`, bits 4:4. -/
def LANE_CTL_RESET_STATS : Fld := ⟨4, 1⟩
/-- `LANE_CTL.RESUME`, bits 3:3. -/
def LANE_CTL_RESUME : Fld := ⟨3, 1⟩
/-- `LANE_CTL.HOLD`, bits 2:2. -/
def LANE_CTL_HOLD : Fld := ⟨2, 1⟩
/-- `LANE_CTL.STOP`, bits 1:1. -/
def LANE_CTL_STOP : Fld := ⟨1, 1⟩
/-- `LANE_CTL.RUN`, bits 0:0. -/
def LANE_CTL_RUN : Fld := ⟨0, 1⟩
/-- `LANE_CFG.STATION`, bits 19:16. -/
def LANE_CFG_STATION : Fld := ⟨16, 4⟩
/-- `LANE_CFG.TRIG_BLK`, bits 11:8. -/
def LANE_CFG_TRIG_BLK : Fld := ⟨8, 4⟩
/-- `LANE_CFG.TRIG`, bits 5:4. -/
def LANE_CFG_TRIG : Fld := ⟨4, 2⟩
/-- `LANE_CFG.NBLK`, bits 3:0. -/
def LANE_CFG_NBLK : Fld := ⟨0, 4⟩
/-- `LANE_PERIOD.PHASE_MS`, bits 29:16. -/
def LANE_PERIOD_PHASE_MS : Fld := ⟨16, 14⟩
/-- `LANE_PERIOD.PERIOD_MS`, bits 13:0. -/
def LANE_PERIOD_PERIOD_MS : Fld := ⟨0, 14⟩
/-- `LANE_STATUS.LOT_VALID`, bits 16:16. -/
def LANE_STATUS_LOT_VALID : Fld := ⟨16, 1⟩
/-- `LANE_STATUS.FAULT_REASON`, bits 15:8. -/
def LANE_STATUS_FAULT_REASON : Fld := ⟨8, 8⟩
/-- `LANE_STATUS.ALARM`, bits 7:7. -/
def LANE_STATUS_ALARM : Fld := ⟨7, 1⟩
/-- `LANE_STATUS.WAITING`, bits 6:6. -/
def LANE_STATUS_WAITING : Fld := ⟨6, 1⟩
/-- `LANE_STATUS.RUNNING`, bits 5:5. -/
def LANE_STATUS_RUNNING : Fld := ⟨5, 1⟩
/-- `LANE_STATUS.TETHER_OK`, bits 4:4. -/
def LANE_STATUS_TETHER_OK : Fld := ⟨4, 1⟩
/-- `LANE_STATUS.MAN_ACTIVE`, bits 3:3. -/
def LANE_STATUS_MAN_ACTIVE : Fld := ⟨3, 1⟩
/-- `LANE_STATUS.HOLD_CAUSE`, bits 2:2. -/
def LANE_STATUS_HOLD_CAUSE : Fld := ⟨2, 1⟩
/-- `LANE_STATUS.STATE`, bits 1:0. -/
def LANE_STATUS_STATE : Fld := ⟨0, 2⟩
/-- `LANE_EVENT.CTR_SAT`, bits 16:16. -/
def LANE_EVENT_CTR_SAT : Fld := ⟨16, 1⟩
/-- `LANE_EVENT.PARAM_REFUSED`, bits 8:8. -/
def LANE_EVENT_PARAM_REFUSED : Fld := ⟨8, 1⟩
/-- `LANE_EVENT.CFG_REFUSED`, bits 7:7. -/
def LANE_EVENT_CFG_REFUSED : Fld := ⟨7, 1⟩
/-- `LANE_EVENT.CMD_ERR`, bits 6:6. -/
def LANE_EVENT_CMD_ERR : Fld := ⟨6, 1⟩
/-- `LANE_EVENT.NONFINITE`, bits 5:5. -/
def LANE_EVENT_NONFINITE : Fld := ⟨5, 1⟩
/-- `LANE_EVENT.FAILSAFE`, bits 4:4. -/
def LANE_EVENT_FAILSAFE : Fld := ⟨4, 1⟩
/-- `LANE_EVENT.ALARM`, bits 3:3. -/
def LANE_EVENT_ALARM : Fld := ⟨3, 1⟩
/-- `LANE_EVENT.OVERRUN`, bits 2:2. -/
def LANE_EVENT_OVERRUN : Fld := ⟨2, 1⟩
/-- `LANE_EVENT.FAULT`, bits 1:1. -/
def LANE_EVENT_FAULT : Fld := ⟨1, 1⟩
/-- `LANE_EVENT.STATE`, bits 0:0. -/
def LANE_EVENT_STATE : Fld := ⟨0, 1⟩
/-- `LANE_IRQ_EN.EN`, bits 16:0. -/
def LANE_IRQ_EN_EN : Fld := ⟨0, 17⟩
/-- `LANE_EXEC.MAX`, bits 31:16. -/
def LANE_EXEC_MAX : Fld := ⟨16, 16⟩
/-- `LANE_EXEC.LAST`, bits 15:0. -/
def LANE_EXEC_LAST : Fld := ⟨0, 16⟩
/-- `BLK_CFG.OPT`, bits 23:16. -/
def BLK_CFG_OPT : Fld := ⟨16, 8⟩
/-- `BLK_CFG.IN_B`, bits 15:12. -/
def BLK_CFG_IN_B : Fld := ⟨12, 4⟩
/-- `BLK_CFG.IN_A`, bits 11:8. -/
def BLK_CFG_IN_A : Fld := ⟨8, 4⟩
/-- `BLK_CFG.TYPE`, bits 4:0. -/
def BLK_CFG_TYPE : Fld := ⟨0, 5⟩
/-- `BLK_Q.LATCHED`, bits 13:13. -/
def BLK_Q_LATCHED : Fld := ⟨13, 1⟩
/-- `BLK_Q.GAP`, bits 12:12. -/
def BLK_Q_GAP : Fld := ⟨12, 1⟩
/-- `BLK_Q.HELD_OFF`, bits 11:11. -/
def BLK_Q_HELD_OFF : Fld := ⟨11, 1⟩
/-- `BLK_Q.PV_BAD`, bits 10:10. -/
def BLK_Q_PV_BAD : Fld := ⟨10, 1⟩
/-- `BLK_Q.ACTIVE`, bits 9:9. -/
def BLK_Q_ACTIVE : Fld := ⟨9, 1⟩
/-- `BLK_Q.PARAM_ERR`, bits 8:8. -/
def BLK_Q_PARAM_ERR : Fld := ⟨8, 1⟩
/-- `BLK_Q.Q`, bits 7:0. -/
def BLK_Q_Q : Fld := ⟨0, 8⟩
/-- `ENGINE_STATUS.ACTIVE_LANES`, bits 31:16. -/
def ENGINE_STATUS_ACTIVE_LANES : Fld := ⟨16, 16⟩
/-- `ENGINE_STATUS.CORE_BUSY`, bits 3:0. -/
def ENGINE_STATUS_CORE_BUSY : Fld := ⟨0, 4⟩
/-- `ENGINE_LOAD.PEAK`, bits 25:16. -/
def ENGINE_LOAD_PEAK : Fld := ⟨16, 10⟩
/-- `ENGINE_LOAD.LOAD`, bits 9:0. -/
def ENGINE_LOAD_LOAD : Fld := ⟨0, 10⟩
/-- `LANE_SUMMARY.ENGINE`, bits 16:16. -/
def LANE_SUMMARY_ENGINE : Fld := ⟨16, 1⟩
/-- `LANE_SUMMARY.LANE`, bits 15:0. -/
def LANE_SUMMARY_LANE : Fld := ⟨0, 16⟩
/-- `ENGINE_EVENT.LOT_CHANGE`, bits 15:0. -/
def ENGINE_EVENT_LOT_CHANGE : Fld := ⟨0, 16⟩
/-- `ENGINE_IRQ_EN.EN`, bits 15:0. -/
def ENGINE_IRQ_EN_EN : Fld := ⟨0, 16⟩
/-- `LOT_STATUS.CLEAR`, bits 1:1. -/
def LOT_STATUS_CLEAR : Fld := ⟨1, 1⟩
/-- `LOT_STATUS.VALID`, bits 0:0. -/
def LOT_STATUS_VALID : Fld := ⟨0, 1⟩
/-- `OD_REQ.TYPE`, bits 31:24. -/
def OD_REQ_TYPE : Fld := ⟨24, 8⟩
/-- `OD_REQ.ADDR`, bits 23:0. -/
def OD_REQ_ADDR : Fld := ⟨0, 24⟩
/-- `OD_CMD.WRITE`, bits 1:1. -/
def OD_CMD_WRITE : Fld := ⟨1, 1⟩
/-- `OD_CMD.READ`, bits 0:0. -/
def OD_CMD_READ : Fld := ⟨0, 1⟩
/-- `OD_LEN.LEN`, bits 8:0. -/
def OD_LEN_LEN : Fld := ⟨0, 9⟩
/-- `OD_STATUS.BUSY`, bits 16:16. -/
def OD_STATUS_BUSY : Fld := ⟨16, 1⟩
/-- `OD_STATUS.TYPE`, bits 15:8. -/
def OD_STATUS_TYPE : Fld := ⟨8, 8⟩
/-- `OD_STATUS.RESULT`, bits 7:0. -/
def OD_STATUS_RESULT : Fld := ⟨0, 8⟩
/-- `OD_EVENT.CTR_SAT`, bits 16:16. -/
def OD_EVENT_CTR_SAT : Fld := ⟨16, 1⟩
/-- `OD_EVENT.CMD_LOST`, bits 4:4. -/
def OD_EVENT_CMD_LOST : Fld := ⟨4, 1⟩
/-- `OD_EVENT.SNAP_DONE`, bits 3:3. -/
def OD_EVENT_SNAP_DONE : Fld := ⟨3, 1⟩
/-- `OD_EVENT.SESSION`, bits 2:2. -/
def OD_EVENT_SESSION : Fld := ⟨2, 1⟩
/-- `OD_EVENT.AUTH_FAIL`, bits 1:1. -/
def OD_EVENT_AUTH_FAIL : Fld := ⟨1, 1⟩
/-- `OD_EVENT.DONE`, bits 0:0. -/
def OD_EVENT_DONE : Fld := ⟨0, 1⟩
/-- `OD_IRQ_EN.EN`, bits 16:0. -/
def OD_IRQ_EN_EN : Fld := ⟨0, 17⟩
/-- `OD_KEY_CTL.LEVEL`, bits 5:4. -/
def OD_KEY_CTL_LEVEL : Fld := ⟨4, 2⟩
/-- `OD_KEY_CTL.CLEAR`, bits 1:1. -/
def OD_KEY_CTL_CLEAR : Fld := ⟨1, 1⟩
/-- `OD_KEY_CTL.LOAD`, bits 0:0. -/
def OD_KEY_CTL_LOAD : Fld := ⟨0, 1⟩
/-- `OD_KEY_STATUS.LOADED`, bits 3:1. -/
def OD_KEY_STATUS_LOADED : Fld := ⟨1, 3⟩
/-- `OD_SESSION.VALID`, bits 31:31. -/
def OD_SESSION_VALID : Fld := ⟨31, 1⟩
/-- `OD_SESSION.LEVEL`, bits 25:24. -/
def OD_SESSION_LEVEL : Fld := ⟨24, 2⟩
/-- `OD_SESSION.IDLE`, bits 23:16. -/
def OD_SESSION_IDLE : Fld := ⟨16, 8⟩
/-- `OD_SESSION.NODE`, bits 7:0. -/
def OD_SESSION_NODE : Fld := ⟨0, 8⟩
/-- `TEST_UNLOCK.KEY`, bits 15:0. -/
def TEST_UNLOCK_KEY : Fld := ⟨0, 16⟩
/-- `ATB_SEL.EN1`, bits 15:15. -/
def ATB_SEL_EN1 : Fld := ⟨15, 1⟩
/-- `ATB_SEL.DIE1`, bits 14:12. -/
def ATB_SEL_DIE1 : Fld := ⟨12, 3⟩
/-- `ATB_SEL.NODE1`, bits 11:7. -/
def ATB_SEL_NODE1 : Fld := ⟨7, 5⟩
/-- `ATB_SEL.EN0`, bits 6:6. -/
def ATB_SEL_EN0 : Fld := ⟨6, 1⟩
/-- `ATB_SEL.DIE0`, bits 5:3. -/
def ATB_SEL_DIE0 : Fld := ⟨3, 3⟩
/-- `ATB_NODE0.NODE0`, bits 4:0. -/
def ATB_NODE0_NODE0 : Fld := ⟨0, 5⟩

end Sys2Proof.Fld

namespace Sys2Proof.Machine

/-- What a register table row of the spec says: its offset in the block, its repetitions (`n1` at stride `s1`, the whole
repeated `n2` times at stride `s2`), its Reset column, and which bits are RW, RC, W1P, guarded (G) or locked (LK) (R8, R9);
`m16` for a masked-write register (R42); `excite` for a register of the MD block that sits in EXCITE (R34). -/
structure RegDesc where
  off    : Nat
  n1     : Nat
  s1     : Nat
  n2     : Nat
  s2     : Nat
  reset  : BitVec 32
  rw     : BitVec 32
  rc     : BitVec 32
  w1p    : BitVec 32
  g      : BitVec 32
  lk     : BitVec 32
  m16    : Bool
  excite : Bool
  deriving DecidableEq, Repr

/-- Registers of block sys (part 1). -/
def sysRegs1 : List RegDesc :=
  [⟨0x0, 1, 4, 1, 0x10000, 0x16960001, 0x0, 0x0, 0x0, 0x0, 0x0, false, false⟩ /- PART_ID -/,
   ⟨0x4, 1, 4, 1, 0x10000, 0x0, 0x0, 0x0, 0x0, 0x0, 0x0, false, false⟩ /- CD_DIE_REV -/,
   ⟨0x8, 1, 4, 1, 0x10000, 0x0, 0x0, 0x0, 0x0, 0x0, 0x0, false, false⟩ /- UNIQUE_ID_LO -/,
   ⟨0xC, 1, 4, 1, 0x10000, 0x0, 0x0, 0x0, 0x0, 0x0, 0x0, false, false⟩ /- UNIQUE_ID_HI -/,
   ⟨0x10, 1, 4, 1, 0x10000, 0x909, 0x0, 0x0, 0x0, 0x0, 0x0, false, false⟩ /- SYS_DIE_STATUS -/,
   ⟨0x14, 1, 4, 1, 0x10000, 0x0, 0x0, 0xFF01FFFF, 0x0, 0x0, 0x0, false, false⟩ /- SYS_DIE_EVENT -/,
   ⟨0x18, 1, 4, 1, 0x10000, 0x0, 0xFFFFFFFF, 0x0, 0x0, 0x0, 0x0, false, false⟩ /- SYS_LINK_RETRY -/,
   ⟨0x20, 1, 4, 1, 0x10000, 0x0, 0x0, 0x7FFFFF, 0x0, 0x0, 0x0, false, false⟩ /- IRQ_STATUS -/,
   ⟨0x24, 1, 4, 1, 0x10000, 0x0, 0x7FFFFF, 0x0, 0x0, 0x7FFFFF, 0x0, false, false⟩ /- IRQ_ENABLE -/,
   ⟨0x30, 1, 4, 1, 0x10000, 0x0, 0x0, 0x7F, 0x0, 0x0, 0x0, false, false⟩ /- HOST_EVENT -/,
   ⟨0x34, 1, 4, 1, 0x10000, 0x0, 0x0, 0x0, 0x0, 0x0, 0x0, false, false⟩ /- HOST_FAULT -/,
   ⟨0x40, 1, 4, 1, 0x10000, 0x0, 0x0, 0x0, 0x0, 0x0, 0x0, false, false⟩ /- TB_LO -/,
   ⟨0x44, 1, 4, 1, 0x10000, 0x0, 0x0, 0x0, 0x0, 0x0, 0x0, false, false⟩ /- TB_HI -/,
   ⟨0x48, 1, 4, 1, 0x10000, 0x0, 0xFFFFFFFF, 0x0, 0x0, 0x0, 0x0, false, false⟩ /- TB_SET_LO -/,
   ⟨0x4C, 1, 4, 1, 0x10000, 0x0, 0xFFFFFFFF, 0x0, 0x0, 0x0, 0x0, false, false⟩ /- TB_SET_HI -/,
   ⟨0x50, 1, 4, 1, 0x10000, 0x0, 0x0, 0x0, 0x3, 0x0, 0x0, true, false⟩ /- TB_CTL -/,
   ⟨0x54, 1, 4, 1, 0x10000, 0x0, 0x0, 0x3, 0x0, 0x0, 0x0, false, false⟩ /- TB_EVENT -/,
   ⟨0x60, 1, 4, 1, 0x10000, 0x0, 0x7, 0x0, 0x8, 0x6, 0x0, true, false⟩ /- GUARD_CTL -/,
   ⟨0x64, 1, 4, 1, 0x10000, 0x0, 0xFFFF, 0x0, 0x0, 0x0, 0x0, false, false⟩ /- GUARD_UNLOCK -/,
   ⟨0x68, 1, 4, 1, 0x10000, 0x0, 0x0, 0x0, 0x0, 0x0, 0x0, false, false⟩ /- GUARD_STATUS -/,
   ⟨0x6C, 1, 4, 1, 0x10000, 0x0, 0x0, 0x10003, 0x0, 0x0, 0x0, false, false⟩ /- GUARD_EVENT -/,
   ⟨0x70, 1, 4, 1, 0x10000, 0x0, 0xFFFFFFFF, 0x0, 0x0, 0x0, 0x0, false, false⟩ /- GUARD_MISMATCH_COUNT -/,
   ⟨0x100, 1, 4, 1, 0x10000, 0x0, 0x0, 0x0, 0xFFFFFFFF, 0x0, 0x0, false, false⟩ /- RST_FUNC0 -/,
   ⟨0x104, 1, 4, 1, 0x10000, 0x0, 0x0, 0x0, 0xFFFFFFFF, 0x0, 0x0, false, false⟩ /- RST_FUNC1 -/]

/-- Registers of block sys (part 2). -/
def sysRegs2 : List RegDesc :=
  [⟨0x108, 1, 4, 1, 0x10000, 0x0, 0x0, 0x0, 0x0, 0x0, 0x0, false, false⟩ /- RST_BUSY0 -/,
   ⟨0x10C, 1, 4, 1, 0x10000, 0x0, 0x0, 0x0, 0x0, 0x0, 0x0, false, false⟩ /- RST_BUSY1 -/,
   ⟨0x110, 1, 4, 1, 0x10000, 0x0, 0xFFFF0000, 0x0, 0x1, 0x0, 0x0, false, false⟩ /- RST_SYS -/,
   ⟨0x114, 1, 4, 1, 0x10000, 0x101, 0x0, 0x0, 0x0, 0x0, 0x0, false, false⟩ /- RESET_CAUSE -/,
   ⟨0x200, 4, 64, 1, 0x10000, 0x0, 0x3, 0x0, 0x0, 0x3, 0x0, true, false⟩ /- SPOOL_CTL -/,
   ⟨0x204, 4, 64, 1, 0x10000, 0x800000, 0xFFFFFF, 0x0, 0x0, 0xFFFFFF, 0x0, false, false⟩ /- SPOOL_BASE -/,
   ⟨0x208, 4, 64, 1, 0x10000, 0xA, 0x1F, 0x0, 0x0, 0x1F, 0x0, false, false⟩ /- SPOOL_SIZE -/,
   ⟨0x20C, 4, 64, 1, 0x10000, 0x200, 0x1FFFF, 0x0, 0x0, 0x1FFFF, 0x0, false, false⟩ /- SPOOL_WM -/,
   ⟨0x210, 4, 64, 1, 0x10000, 0x0, 0x0, 0x0, 0x0, 0x0, 0x0, false, false⟩ /- SPOOL_WP -/,
   ⟨0x214, 4, 64, 1, 0x10000, 0x0, 0xFFFFFFFF, 0x0, 0x0, 0x0, 0x0, false, false⟩ /- SPOOL_RP -/,
   ⟨0x218, 4, 64, 1, 0x10000, 0x0, 0x0, 0x0, 0x0, 0x0, 0x0, false, false⟩ /- SPOOL_FILL -/,
   ⟨0x21C, 4, 64, 1, 0x10000, 0x0, 0xFFFFFFFF, 0x0, 0x0, 0x0, 0x0, false, false⟩ /- SPOOL_LOST -/,
   ⟨0x220, 4, 64, 1, 0x10000, 0x0, 0x0, 0x10007, 0x0, 0x0, 0x0, false, false⟩ /- SPOOL_EVENT -/,
   ⟨0x224, 4, 64, 1, 0x10000, 0x0, 0x1FFFF, 0x0, 0x0, 0x1FFFF, 0x0, false, false⟩ /- SPOOL_IRQ_EN -/,
   ⟨0x228, 4, 64, 1, 0x10000, 0x0, 0x0, 0x0, 0x0, 0x0, 0x0, false, false⟩ /- SPOOL_STATUS -/,
   ⟨0x300, 1, 4, 1, 0x10000, 0x3E80000, 0x3FFFFFF, 0x0, 0x0, 0x3FFFFFF, 0x0, false, false⟩ /- SPOOL2_SRC -/,
   ⟨0x1000, 256, 4, 1, 0x10000, 0x0, 0xFFFFFFFF, 0x0, 0x0, 0x0, 0x0, false, false⟩ /- CAL_STAGE -/,
   ⟨0x1400, 1, 4, 1, 0x10000, 0x0, 0x0, 0x0, 0x3, 0x0, 0x0, true, false⟩ /- CAL_BLOCK_CTL -/,
   ⟨0x1404, 1, 4, 1, 0x10000, 0x0, 0x0, 0x0, 0x0, 0x0, 0x0, false, false⟩ /- CAL_BLOCK_STATUS -/,
   ⟨0x1408, 1, 4, 1, 0x10000, 0x0, 0xFFFFFFFF, 0x0, 0x0, 0x0, 0x0, false, false⟩ /- CAL_GEN -/,
   ⟨0x140C, 1, 4, 1, 0x10000, 0x1F4, 0xFFF, 0x0, 0x0, 0xFFF, 0x0, false, false⟩ /- CAL_BG_LIM -/,
   ⟨0x1410, 1, 4, 1, 0x10000, 0x0, 0x0, 0x1FF1F, 0x0, 0x0, 0x0, false, false⟩ /- CAL_EVENT -/,
   ⟨0x1414, 1, 4, 1, 0x10000, 0x0, 0x0, 0xFFFF, 0x0, 0x0, 0x0, false, false⟩ /- LOOP_TRIM_EVENT -/,
   ⟨0x1418, 1, 4, 1, 0x10000, 0x0, 0x1FFFF, 0x0, 0x0, 0x1FFFF, 0x0, false, false⟩ /- CAL_IRQ_EN -/]

/-- Registers of block sys (part 3). -/
def sysRegs3 : List RegDesc :=
  [⟨0x141C, 1, 4, 1, 0x10000, 0x0, 0x1FFFF, 0x0, 0x0, 0x1FFFF, 0x0, false, false⟩ /- LOOP_TRIM_IRQ_EN -/]

/-- Registers of block sys. -/
def sysRegs : List RegDesc := sysRegs1 ++ sysRegs2 ++ sysRegs3

/-- Registers of block aon (part 1). -/
def aonRegs1 : List RegDesc :=
  [⟨0x0, 1, 4, 1, 0x10000, 0x0, 0x1, 0x0, 0xE, 0x1, 0x0, true, false⟩ /- PWR_CTL -/,
   ⟨0x4, 1, 4, 1, 0x10000, 0x410000, 0x0, 0x0, 0x0, 0x0, 0x0, false, false⟩ /- PWR_STATUS -/,
   ⟨0x8, 1, 4, 1, 0x10000, 0x1, 0x3F, 0x0, 0x0, 0x3F, 0x0, false, false⟩ /- PWR_RUN_SET -/,
   ⟨0xC, 1, 4, 1, 0x10000, 0x30, 0x3F, 0x0, 0x0, 0x3F, 0x0, false, false⟩ /- PWR_STANDBY_SET -/,
   ⟨0x10, 1, 4, 1, 0x10000, 0x9, 0x11F, 0x0, 0x0, 0x11F, 0x0, false, false⟩ /- PWR_WAKE_EN -/,
   ⟨0x14, 1, 4, 1, 0x10000, 0x40, 0x0, 0x0, 0x0, 0x0, 0x0, false, false⟩ /- PWR_WAKE_CAUSE -/,
   ⟨0x18, 1, 4, 1, 0x10000, 0x0, 0xFFFFFFFF, 0x0, 0x0, 0x0, 0x0, false, false⟩ /- PWR_ALARM_LO -/,
   ⟨0x1C, 1, 4, 1, 0x10000, 0x0, 0xFFFFFFFF, 0x0, 0x0, 0x0, 0x0, false, false⟩ /- PWR_ALARM_HI -/,
   ⟨0x20, 1, 4, 1, 0x10000, 0x43, 0xFF, 0x0, 0x0, 0xFF, 0x0, false, false⟩ /- PWR_WAKE_CFG -/,
   ⟨0x24, 1, 4, 1, 0x10000, 0x57140, 0xFF777F, 0x0, 0x0, 0xFF777F, 0x0, false, false⟩ /- PWR_REG_CFG -/,
   ⟨0x28, 1, 4, 1, 0x10000, 0x3520352, 0xFFFF, 0x0, 0x0, 0xFFFF, 0x0, false, false⟩ /- PWR_VCORE -/,
   ⟨0x30, 1, 4, 1, 0x10000, 0x0, 0x0, 0x103FF, 0x0, 0x0, 0x0, false, false⟩ /- PWR_EVENT -/,
   ⟨0x34, 1, 4, 1, 0x10000, 0x0, 0x1FFFF, 0x0, 0x0, 0x1FFFF, 0x0, false, false⟩ /- PWR_IRQ_EN -/,
   ⟨0x38, 1, 4, 1, 0x10000, 0x0, 0x0, 0x0, 0x0, 0x0, 0x0, false, false⟩ /- PWR_FAIL -/,
   ⟨0x3C, 1, 4, 1, 0x10000, 0x0, 0xFFFFFFFF, 0x0, 0x0, 0x0, 0x0, false, false⟩ /- PWR_RETRY_COUNT -/,
   ⟨0x40, 1, 4, 1, 0x10000, 0x0, 0x0, 0x0, 0x3F, 0x0, 0x0, false, false⟩ /- PAD_RELEASE -/,
   ⟨0x44, 1, 4, 1, 0x10000, 0x0, 0x0, 0x0, 0x0, 0x0, 0x0, false, false⟩ /- PAD_STATUS -/,
   ⟨0x50, 1, 4, 1, 0x10000, 0x0, 0x1, 0x0, 0x2, 0x1, 0x0, true, false⟩ /- CLK_CTL -/,
   ⟨0x54, 1, 4, 1, 0x10000, 0x7C, 0x0, 0x0, 0x0, 0x0, 0x0, false, false⟩ /- CLK_STATUS -/,
   ⟨0x60, 3, 4, 1, 0x10000, 0x0, 0x0, 0x0, 0x0, 0x0, 0x0, false, false⟩ /- PWR_RAIL -/,
   ⟨0x80, 1, 4, 1, 0x10000, 0x100, 0xF03, 0x0, 0x0, 0xF03, 0x0, false, false⟩ /- TETHER_CFG -/,
   ⟨0x84, 1, 4, 1, 0x10000, 0x0, 0x0, 0x0, 0x0, 0x0, 0x0, false, false⟩ /- TETHER_STATUS -/,
   ⟨0x88, 1, 4, 1, 0x10000, 0x0, 0xFFFFFFFF, 0x0, 0x0, 0x0, 0x0, false, false⟩ /- TETHER_ENTRY_COUNT -/,
   ⟨0xA0, 1, 4, 1, 0x10000, 0x7D00000, 0xFFFF0003, 0x0, 0x0, 0xFFFF0003, 0x0, false, false⟩ /- WDT_CTL -/]

/-- Registers of block aon (part 2). -/
def aonRegs2 : List RegDesc :=
  [⟨0xA4, 1, 4, 1, 0x10000, 0x0, 0xFFFFFFFF, 0x0, 0x0, 0x0, 0x0, false, false⟩ /- WDT_KICK -/,
   ⟨0xA8, 1, 4, 1, 0x10000, 0x0, 0x0, 0x0, 0x0, 0x0, 0x0, false, false⟩ /- WDT_STATUS -/,
   ⟨0xAC, 1, 4, 1, 0x10000, 0x0, 0x0, 0x7, 0x0, 0x0, 0x0, false, false⟩ /- WDT_EVENT -/,
   ⟨0xB0, 1, 4, 1, 0x10000, 0x0, 0x7, 0x0, 0x0, 0x7, 0x0, false, false⟩ /- WDT_IRQ_EN -/]

/-- Registers of block aon. -/
def aonRegs : List RegDesc := aonRegs1 ++ aonRegs2

/-- Registers of block log. -/
def logRegs : List RegDesc :=
  [⟨0x0, 1, 4, 1, 0x10000, 0x300, 0x71D, 0x0, 0x2, 0x71D, 0x0, true, false⟩ /- LOG_CTL -/,
   ⟨0x4, 1, 4, 1, 0x10000, 0x0, 0x0, 0x0, 0x1, 0x0, 0x0, false, false⟩ /- LOG_CLEAR -/,
   ⟨0x8, 1, 4, 1, 0x10000, 0x0, 0x0, 0x0, 0x0, 0x0, 0x0, false, false⟩ /- LOG_WP -/,
   ⟨0xC, 1, 4, 1, 0x10000, 0x0, 0xFFFFFFFF, 0x0, 0x0, 0x0, 0x0, false, false⟩ /- LOG_RP -/,
   ⟨0x10, 1, 4, 1, 0x10000, 0x0, 0xFFFFFFFF, 0x0, 0x0, 0x0, 0x0, false, false⟩ /- LOG_LOST -/,
   ⟨0x14, 1, 4, 1, 0x10000, 0x0, 0x3, 0x0, 0x0, 0x0, 0x0, false, false⟩ /- LOG_PAGE -/,
   ⟨0x18, 1, 4, 1, 0x10000, 0x0, 0x0, 0x0, 0x0, 0x0, 0x0, false, false⟩ /- LOG_STATUS -/,
   ⟨0x1C, 1, 4, 1, 0x10000, 0x0, 0x0, 0x10007, 0x0, 0x0, 0x0, false, false⟩ /- LOG_EVENT -/,
   ⟨0x20, 1, 4, 1, 0x10000, 0x0, 0x1FFFF, 0x0, 0x0, 0x1FFFF, 0x0, false, false⟩ /- LOG_IRQ_EN -/,
   ⟨0x8000, 8192, 4, 1, 0x10000, 0x0, 0x0, 0x0, 0x0, 0x0, 0x0, false, false⟩ /- LOG_ENTRY -/]

/-- Registers of block meas (part 1). -/
def measRegs1 : List RegDesc :=
  [⟨0x0, 1, 4, 1, 0x10000, 0x0, 0x1, 0x0, 0x0, 0x1, 0x0, true, false⟩ /- CONV_CTL -/,
   ⟨0x4, 1, 4, 1, 0x10000, 0x140010, 0xFF00F1, 0x0, 0x0, 0xFF00F1, 0x0, false, false⟩ /- FRAME_CTL -/,
   ⟨0x8, 1, 4, 1, 0x10000, 0x0, 0x3B, 0x0, 0x0, 0x3B, 0x0, true, false⟩ /- MAINS_CTL -/,
   ⟨0xC, 1, 4, 1, 0x10000, 0x0, 0x0, 0x0, 0x0, 0x0, 0x0, false, false⟩ /- MAINS_PERIOD -/,
   ⟨0x10, 1, 4, 1, 0x10000, 0x3C0000, 0x0, 0x0, 0x0, 0x0, 0x0, false, false⟩ /- FRAME_LEN -/,
   ⟨0x14, 1, 4, 1, 0x10000, 0x0, 0x0, 0x0, 0x0, 0x0, 0x0, false, false⟩ /- MAINS_STATUS -/,
   ⟨0x18, 1, 4, 1, 0x10000, 0x0, 0x0, 0x11F9F, 0x0, 0x0, 0x0, false, false⟩ /- CONV_EVENT -/,
   ⟨0x1C, 1, 4, 1, 0x10000, 0x0, 0x1FFFF, 0x0, 0x0, 0x1FFFF, 0x0, false, false⟩ /- CONV_IRQ_EN -/,
   ⟨0x20, 1, 4, 1, 0x10000, 0x30, 0xF3, 0x0, 0x0, 0xF3, 0x0, true, false⟩ /- REF_CTL -/,
   ⟨0x24, 1, 4, 1, 0x10000, 0x0, 0x0, 0x0, 0x0, 0x0, 0x0, false, false⟩ /- REF_STATUS -/,
   ⟨0x28, 1, 4, 1, 0x10000, 0x0, 0xFFFFFFFF, 0x0, 0x0, 0x0, 0x0, false, false⟩ /- REF_TRIG_IGNORED -/,
   ⟨0x2C, 1, 4, 1, 0x10000, 0x0, 0xFFFFFFFF, 0x0, 0x0, 0x0, 0x0, false, false⟩ /- EXC_UNPAIRED -/,
   ⟨0x30, 5, 4, 1, 0x10000, 0x0, 0xFFFFFFFF, 0x0, 0x0, 0x0, 0x0, false, false⟩ /- CLAMP_COUNT -/,
   ⟨0x50, 5, 4, 1, 0x10000, 0x0, 0x0, 0x0, 0x0, 0x0, 0x0, false, false⟩ /- SLICE_STATUS -/,
   ⟨0xFC, 1, 4, 1, 0x10000, 0x0, 0x0, 0x0, 0x0, 0x0, 0x0, false, false⟩ /- MD_DIE_REV -/,
   ⟨0x100, 20, 4, 1, 0x10000, 0x0, 0xF, 0x0, 0x0, 0xF, 0x0, false, false⟩ /- CHAN_CFG -/,
   ⟨0x200, 4, 4, 1, 0x10000, 0x0, 0x3F, 0x0, 0x0, 0x3F, 0x0, true, true⟩ /- EXC_CTL -/,
   ⟨0x210, 1, 4, 1, 0x10000, 0x0, 0x0, 0x0, 0x0, 0x0, 0x0, false, true⟩ /- EXC_STATUS -/,
   ⟨0x300, 1, 4, 1, 0x10000, 0x0, 0x3C, 0x0, 0x3, 0x3C, 0x0, true, false⟩ /- SEQ_CTL -/,
   ⟨0x304, 1, 4, 1, 0x10000, 0x1, 0x3F, 0x0, 0x0, 0x3F, 0x0, false, false⟩ /- SEQ_CFG -/,
   ⟨0x308, 1, 4, 1, 0x10000, 0x0, 0x0, 0x0, 0x0, 0x0, 0x0, false, false⟩ /- SEQ_STATUS -/,
   ⟨0x310, 1, 4, 1, 0x10000, 0x0, 0x1E, 0x0, 0x1, 0x1E, 0x0, true, false⟩ /- INJ_CTL -/,
   ⟨0x314, 1, 4, 1, 0x10000, 0x501, 0xFFFF1F3F, 0x0, 0x0, 0xFFFF1F3F, 0x0, false, false⟩ /- INJ_CFG -/,
   ⟨0x318, 1, 4, 1, 0x10000, 0x0, 0x0, 0x100FF, 0x0, 0x0, 0x0, false, false⟩ /- SEQ_EVENT -/]

/-- Registers of block meas (part 2). -/
def measRegs2 : List RegDesc :=
  [⟨0x31C, 1, 4, 1, 0x10000, 0x0, 0x1FFFF, 0x0, 0x0, 0x1FFFF, 0x0, false, false⟩ /- SEQ_IRQ_EN -/,
   ⟨0x320, 1, 4, 1, 0x10000, 0x0, 0xFFFFFFFF, 0x0, 0x0, 0x0, 0x0, false, false⟩ /- REQUEUE_COUNT -/,
   ⟨0x324, 1, 4, 1, 0x10000, 0x0, 0xFFFFFFFF, 0x0, 0x0, 0x0, 0x0, false, false⟩ /- TRIG_OVERRUN_COUNT -/,
   ⟨0x328, 1, 4, 1, 0x10000, 0x0, 0xFFFFFFFF, 0x0, 0x0, 0x0, 0x0, false, false⟩ /- AVG_DISCARD_COUNT -/,
   ⟨0x400, 32, 4, 1, 0x10000, 0x0, 0xFF, 0x0, 0x0, 0xFF, 0x0, false, false⟩ /- SEQ_ENTRY -/,
   ⟨0x480, 8, 4, 1, 0x10000, 0x0, 0xFF, 0x0, 0x0, 0xFF, 0x0, false, false⟩ /- INJ_ENTRY -/,
   ⟨0x500, 20, 4, 1, 0x10000, 0x0, 0xF0F, 0x0, 0x0, 0xF0F, 0x0, false, false⟩ /- CHAN_AVG -/,
   ⟨0x600, 13, 4, 1, 0x10000, 0x0, 0xF0F, 0x0, 0x0, 0xF0F, 0x0, false, false⟩ /- CHAN_AVG_INT -/,
   ⟨0x1000, 1, 4, 1, 0x10000, 0x1, 0x1, 0x0, 0x1F00, 0x1, 0x0, true, false⟩ /- REEL_CTL -/,
   ⟨0x1004, 1, 4, 1, 0x10000, 0xA, 0x3FF, 0x0, 0x0, 0x3FF, 0x0, false, false⟩ /- REEL_PERIOD -/,
   ⟨0x1008, 1, 4, 1, 0x10000, 0x40005, 0x700FF, 0x0, 0x0, 0x700FF, 0x0, false, false⟩ /- CAL_RUN -/,
   ⟨0x100C, 1, 4, 1, 0x10000, 0x4, 0x0, 0x0, 0x0, 0x0, 0x0, false, false⟩ /- REEL_STATUS -/,
   ⟨0x1010, 1, 4, 1, 0x10000, 0x7D005DC, 0xFFF0FFF, 0x0, 0x0, 0xFFF0FFF, 0x0, false, false⟩ /- CAL_LIM_RANGE -/,
   ⟨0x1014, 1, 4, 1, 0x10000, 0x140064, 0xFFF0FFF, 0x0, 0x0, 0xFFF0FFF, 0x0, false, false⟩ /- CAL_LIM_STEP -/,
   ⟨0x1018, 1, 4, 1, 0x10000, 0xC803E8, 0xFFF0FFF, 0x0, 0x0, 0xFFF0FFF, 0x0, false, false⟩ /- CAL_LIM_FIRST -/,
   ⟨0x101C, 1, 4, 1, 0x10000, 0x140032, 0xFF00FF, 0x0, 0x0, 0xFF00FF, 0x0, false, false⟩ /- CAL_LIM_CHECK -/,
   ⟨0x1020, 1, 4, 1, 0x10000, 0x12C, 0xFFFF, 0x0, 0x0, 0xFFFF, 0x0, false, false⟩ /- CAL_MAXAGE -/,
   ⟨0x1024, 1, 4, 1, 0x10000, 0x0, 0xFFFFFFFF, 0x0, 0x0, 0x0, 0x0, false, false⟩ /- REEL_SKIP_COUNT -/,
   ⟨0x1100, 5, 32, 1, 0x10000, 0x0, 0xFFF0FFF, 0x0, 0x0, 0x0, 0x0, false, false⟩ /- SLICE_TRIM -/,
   ⟨0x1104, 5, 32, 1, 0x10000, 0x0, 0x0, 0x0, 0x0, 0x0, 0x0, false, false⟩ /- SLICE_TRIM_STAGED -/,
   ⟨0x1108, 5, 32, 1, 0x10000, 0x4000, 0x0, 0x0, 0x0, 0x0, 0x0, false, false⟩ /- SLICE_CAL_STATUS -/,
   ⟨0x110C, 5, 32, 1, 0x10000, 0x0, 0xFFFFFFFF, 0x0, 0x0, 0x0, 0x0, false, false⟩ /- SLICE_CAL_COUNT -/,
   ⟨0x1110, 5, 32, 1, 0x10000, 0x0, 0xFFFFFFFF, 0x0, 0x0, 0x0, 0x0, false, false⟩ /- SLICE_REJECT_COUNT -/,
   ⟨0x1114, 5, 32, 1, 0x10000, 0x0, 0x0, 0x0, 0x0, 0x0, 0x0, false, false⟩ /- SLICE_CAL_TIME_LO -/]

/-- Registers of block meas (part 3). -/
def measRegs3 : List RegDesc :=
  [⟨0x1118, 5, 32, 1, 0x10000, 0x0, 0x0, 0x0, 0x0, 0x0, 0x0, false, false⟩ /- SLICE_CAL_TIME_HI -/]

/-- Registers of block meas. -/
def measRegs : List RegDesc := measRegs1 ++ measRegs2 ++ measRegs3

/-- Registers of block port (part 1). -/
def portRegs1 : List RegDesc :=
  [⟨0x0, 1, 4, 1, 0x10000, 0x0, 0x17F, 0x0, 0x80, 0x15F, 0x0, true, false⟩ /- PORT_CTL -/,
   ⟨0x4, 1, 4, 1, 0x10000, 0x1C20, 0xFFFF, 0x0, 0x0, 0x0, 0x0, false, false⟩ /- LOOP_SET -/,
   ⟨0x8, 1, 4, 1, 0x10000, 0x0, 0xFFFF, 0x0, 0x0, 0xFFFF, 0x0, false, false⟩ /- LOOP_SLEW -/,
   ⟨0xC, 1, 4, 1, 0x10000, 0xA4101C20, 0xFFFFFFFF, 0x0, 0x0, 0xFFFFFFFF, 0x0, false, false⟩ /- LOOP_FS -/,
   ⟨0x10, 1, 4, 1, 0x10000, 0x320028, 0xFFFFFFFF, 0x0, 0x0, 0xFFFFFFFF, 0x0, false, false⟩ /- LOOP_TOL -/,
   ⟨0x14, 1, 4, 1, 0x10000, 0xA, 0xF, 0x0, 0x0, 0xF, 0x0, false, false⟩ /- PORT_PROT -/,
   ⟨0x18, 1, 4, 1, 0x10000, 0x0, 0x0, 0x0, 0x0, 0x0, 0x0, false, false⟩ /- LOOP_RB -/,
   ⟨0x1C, 1, 4, 1, 0x10000, 0x0, 0x0, 0x0, 0x0, 0x0, 0x0, false, false⟩ /- LOOP_TARGET -/,
   ⟨0x20, 1, 4, 1, 0x10000, 0x0, 0x0, 0x0, 0x0, 0x0, 0x0, false, false⟩ /- PORT_STATUS -/,
   ⟨0x24, 1, 4, 1, 0x10000, 0x0, 0x0, 0x133FC, 0x0, 0x0, 0x0, false, false⟩ /- PORT_EVENT -/,
   ⟨0x28, 1, 4, 1, 0x10000, 0x0, 0x1FFFF, 0x0, 0x0, 0x1FFFF, 0x0, false, false⟩ /- PORT_IRQ_EN -/,
   ⟨0x2C, 1, 4, 1, 0x10000, 0x0, 0xFFFFFFFF, 0x0, 0x0, 0x0, 0x0, false, false⟩ /- MISWIRE_COUNT -/,
   ⟨0x30, 1, 4, 1, 0x10000, 0x0, 0x0, 0x0, 0x0, 0x0, 0x0, false, false⟩ /- PORT_VTERM -/,
   ⟨0x400, 1, 4, 1, 0x10000, 0x604, 0xF07, 0x0, 0x38, 0xF07, 0x0, true, false⟩ /- MODEM_CTL -/,
   ⟨0x404, 1, 4, 1, 0x10000, 0x8001, 0xFFFF, 0x0, 0x0, 0xFFFF, 0x0, false, false⟩ /- MODEM_ADDR -/,
   ⟨0x408, 1, 4, 1, 0x10000, 0x4080240, 0xF0F03FF, 0x0, 0x0, 0xF0F03FF, 0x0, false, false⟩ /- MODEM_TIMING -/,
   ⟨0x40C, 1, 4, 1, 0x10000, 0x0, 0x0, 0x0, 0x0, 0x0, 0x0, false, false⟩ /- MODEM_STATUS -/,
   ⟨0x410, 1, 4, 1, 0x10000, 0x0, 0x0, 0x103FF, 0x0, 0x0, 0x0, false, false⟩ /- MODEM_EVENT -/,
   ⟨0x414, 1, 4, 1, 0x10000, 0x0, 0x1FFFF, 0x0, 0x0, 0x1FFFF, 0x0, false, false⟩ /- MODEM_IRQ_EN -/,
   ⟨0x418, 1, 4, 1, 0x10000, 0x0, 0xFFFFFFFF, 0x0, 0x0, 0x0, 0x0, false, false⟩ /- MODEM_RX_COUNT -/,
   ⟨0x41C, 1, 4, 1, 0x10000, 0x0, 0xFFFFFFFF, 0x0, 0x0, 0x0, 0x0, false, false⟩ /- MODEM_ERR_COUNT -/,
   ⟨0x420, 1, 4, 1, 0x10000, 0x0, 0xFFFFFFFF, 0x0, 0x0, 0x0, 0x0, false, false⟩ /- MODEM_TMO_COUNT -/,
   ⟨0x440, 1, 4, 1, 0x10000, 0x0, 0x17FFFFF, 0x0, 0x0, 0x0, 0x0, false, false⟩ /- MODEM_TX_HDR -/,
   ⟨0x480, 16, 4, 1, 0x10000, 0x0, 0xFFFFFFFF, 0x0, 0x0, 0x0, 0x0, false, false⟩ /- MODEM_TX_DATA -/]

/-- Registers of block port (part 2). -/
def portRegs2 : List RegDesc :=
  [⟨0x4C0, 1, 4, 1, 0x10000, 0x0, 0x0, 0x0, 0x0, 0x0, 0x0, false, false⟩ /- MODEM_RX_HDR -/,
   ⟨0x4C4, 1, 4, 1, 0x10000, 0x0, 0x0, 0x0, 0x0, 0x0, 0x0, false, false⟩ /- MODEM_RX_TIME_LO -/,
   ⟨0x4C8, 1, 4, 1, 0x10000, 0x0, 0x0, 0x0, 0x0, 0x0, 0x0, false, false⟩ /- MODEM_RX_TIME_HI -/,
   ⟨0x500, 16, 4, 1, 0x10000, 0x0, 0x0, 0x0, 0x0, 0x0, 0x0, false, false⟩ /- MODEM_RX_DATA -/,
   ⟨0x1000, 1, 4, 1, 0x10000, 0x0, 0x4, 0x0, 0x3, 0x4, 0x0, true, false⟩ /- LOOP_TRIM_CTL -/,
   ⟨0x1004, 1, 4, 1, 0x10000, 0x0, 0x0, 0x0, 0x0, 0x0, 0x0, false, false⟩ /- LOOP_TRIM_STATUS -/,
   ⟨0x1008, 1, 4, 1, 0x10000, 0x0, 0xFFF3FFF, 0x0, 0x0, 0x0, 0x0, false, false⟩ /- LOOP_TRIM -/,
   ⟨0x100C, 1, 4, 1, 0x10000, 0x0, 0x0, 0x0, 0x0, 0x0, 0x0, false, false⟩ /- LOOP_TRIM_STAGED -/,
   ⟨0x1010, 1, 4, 1, 0x10000, 0x0, 0x0, 0x0, 0x0, 0x0, 0x0, false, false⟩ /- LOOP_TRIM_POINTS_LO -/,
   ⟨0x1014, 1, 4, 1, 0x10000, 0x0, 0x0, 0x0, 0x0, 0x0, 0x0, false, false⟩ /- LOOP_TRIM_POINTS_HI -/,
   ⟨0x1018, 1, 4, 1, 0x10000, 0x0, 0xFFFFFFFF, 0x0, 0x0, 0x0, 0x0, false, false⟩ /- LOOP_CAL_COUNT -/,
   ⟨0x101C, 1, 4, 1, 0x10000, 0x0, 0xFFFFFFFF, 0x0, 0x0, 0x0, 0x0, false, false⟩ /- LOOP_REJECT_COUNT -/,
   ⟨0x1020, 1, 4, 1, 0x10000, 0x0, 0x0, 0x0, 0x0, 0x0, 0x0, false, false⟩ /- LOOP_CAL_TIME_LO -/,
   ⟨0x1024, 1, 4, 1, 0x10000, 0x0, 0x0, 0x0, 0x0, 0x0, 0x0, false, false⟩ /- LOOP_CAL_TIME_HI -/]

/-- Registers of block port. -/
def portRegs : List RegDesc := portRegs1 ++ portRegs2

/-- Registers of block ld. -/
def ldRegs : List RegDesc :=
  [⟨0x0, 1, 4, 1, 0x10000, 0x640000, 0xFFFF00F1, 0x0, 0x0, 0xFFFF00F1, 0x0, false, false⟩ /- KEEPER_CTL -/,
   ⟨0x4, 1, 4, 1, 0x10000, 0x0, 0x0, 0x0, 0x1, 0x0, 0x0, false, false⟩ /- KEEPER_KICK -/,
   ⟨0x8, 1, 4, 1, 0x10000, 0x0, 0x0, 0x0, 0x0, 0x0, 0x0, false, false⟩ /- KEEPER_STATUS -/,
   ⟨0x10, 1, 4, 1, 0x10000, 0x0, 0x0, 0x7, 0x0, 0x0, 0x0, false, false⟩ /- LD_EVENT -/,
   ⟨0x14, 1, 4, 1, 0x10000, 0x0, 0x7, 0x0, 0x0, 0x7, 0x0, false, false⟩ /- LD_IRQ_EN -/,
   ⟨0x18, 1, 4, 1, 0x10000, 0x0, 0x0, 0x0, 0x0, 0x0, 0x0, false, false⟩ /- LD_SUMMARY -/,
   ⟨0xFC, 1, 4, 1, 0x10000, 0x0, 0x0, 0x0, 0x0, 0x0, 0x0, false, false⟩ /- LD_DIE_REV -/,
   ⟨0x1000, 1, 4, 1, 0x10000, 0x0, 0x0, 0x0, 0x0, 0x0, 0x0, false, false⟩ /- BG_CHECK -/]

/-- Registers of block trx. -/
def trxRegs : List RegDesc :=
  [⟨0x0, 1, 4, 1, 0x10000, 0x4, 0x1C5, 0x0, 0x0, 0x1C5, 0x0, true, false⟩ /- TRX_CTL -/,
   ⟨0x4, 1, 4, 1, 0x10000, 0x2806, 0xFF0F, 0x0, 0x0, 0xFF0F, 0x0, false, false⟩ /- TRX_DETECT -/,
   ⟨0x8, 1, 4, 1, 0x10000, 0x14000A, 0xFF003F, 0x0, 0x0, 0xFF003F, 0x0, false, false⟩ /- TRX_TIMING -/,
   ⟨0xC, 1, 4, 1, 0x10000, 0x0, 0x0, 0x0, 0x0, 0x0, 0x0, false, false⟩ /- TRX_STATUS -/,
   ⟨0x10, 1, 4, 1, 0x10000, 0x0, 0x0, 0x0, 0x0, 0x0, 0x0, false, false⟩ /- TRX_LEVEL -/,
   ⟨0x14, 1, 4, 1, 0x10000, 0x0, 0x0, 0x0, 0x0, 0x0, 0x0, false, false⟩ /- TRX_SNR -/,
   ⟨0x18, 1, 4, 1, 0x10000, 0x0, 0x0, 0x103FF, 0x0, 0x0, 0x0, false, false⟩ /- TRX_EVENT -/,
   ⟨0x1C, 1, 4, 1, 0x10000, 0x0, 0x1FFFF, 0x0, 0x0, 0x1FFFF, 0x0, false, false⟩ /- TRX_IRQ_EN -/,
   ⟨0x20, 1, 4, 1, 0x10000, 0x0, 0xFFFFFFFF, 0x0, 0x0, 0x0, 0x0, false, false⟩ /- TRX_CAPTURE_COUNT -/,
   ⟨0x24, 1, 4, 1, 0x10000, 0x0, 0xFFFFFFFF, 0x0, 0x0, 0x0, 0x0, false, false⟩ /- TRX_LOST_TO_CAPTURE -/,
   ⟨0x28, 1, 4, 1, 0x10000, 0x0, 0xFFFFFFFF, 0x0, 0x0, 0x0, 0x0, false, false⟩ /- TRX_HDR_FAIL_COUNT -/,
   ⟨0x2C, 1, 4, 1, 0x10000, 0x0, 0xFFFFFFFF, 0x0, 0x0, 0x0, 0x0, false, false⟩ /- TRX_ACQ_TIMEOUT_COUNT -/,
   ⟨0x30, 1, 4, 1, 0x10000, 0x0, 0xFFFFFFFF, 0x0, 0x0, 0x0, 0x0, false, false⟩ /- TRX_RX_FRAME_COUNT -/,
   ⟨0x34, 1, 4, 1, 0x10000, 0x0, 0xFFFFFFFF, 0x0, 0x0, 0x0, 0x0, false, false⟩ /- TRX_TX_FRAME_COUNT -/,
   ⟨0x40, 1, 4, 1, 0x10000, 0x0, 0x0, 0x0, 0x0, 0x0, 0x0, false, false⟩ /- TRX_RX_TIME_LO -/,
   ⟨0x44, 1, 4, 1, 0x10000, 0x0, 0x0, 0x0, 0x0, 0x0, 0x0, false, false⟩ /- TRX_RX_TIME_HI -/,
   ⟨0x48, 1, 4, 1, 0x10000, 0x0, 0x0, 0x0, 0x0, 0x0, 0x0, false, false⟩ /- TRX_TX_TIME_LO -/,
   ⟨0x4C, 1, 4, 1, 0x10000, 0x0, 0x0, 0x0, 0x0, 0x0, 0x0, false, false⟩ /- TRX_TX_TIME_HI -/,
   ⟨0x50, 1, 4, 1, 0x10000, 0x0, 0x0, 0x0, 0x0, 0x0, 0x0, false, false⟩ /- TRX_CODE8_16 -/,
   ⟨0x54, 1, 4, 1, 0x10000, 0x0, 0x0, 0x0, 0x0, 0x0, 0x0, false, false⟩ /- TRX_CODE32 -/,
   ⟨0x58, 1, 4, 1, 0x10000, 0x0, 0x0, 0x0, 0x0, 0x0, 0x0, false, false⟩ /- TRX_CODE64_LO -/,
   ⟨0x5C, 1, 4, 1, 0x10000, 0x0, 0x0, 0x0, 0x0, 0x0, 0x0, false, false⟩ /- TRX_CODE64_HI -/]

/-- Registers of block dec. -/
def decRegs : List RegDesc :=
  [⟨0x0, 1, 4, 1, 0x10000, 0x10, 0x1F, 0x0, 0x0, 0x1F, 0x0, false, false⟩ /- DEC_CTL -/,
   ⟨0x4, 1, 4, 1, 0x10000, 0x0, 0x0, 0x0, 0x0, 0x0, 0x0, false, false⟩ /- DEC_STATUS -/,
   ⟨0x8, 1, 4, 1, 0x10000, 0x0, 0x0, 0x10001, 0x0, 0x0, 0x0, false, false⟩ /- DEC_EVENT -/,
   ⟨0xC, 1, 4, 1, 0x10000, 0x0, 0x1FFFF, 0x0, 0x0, 0x1FFFF, 0x0, false, false⟩ /- DEC_IRQ_EN -/,
   ⟨0x10, 1, 4, 1, 0x10000, 0x0, 0xFFFFFFFF, 0x0, 0x0, 0x0, 0x0, false, false⟩ /- DEC_CW_COUNT -/,
   ⟨0x14, 1, 4, 1, 0x10000, 0x0, 0xFFFFFFFF, 0x0, 0x0, 0x0, 0x0, false, false⟩ /- DEC_CW_FAIL_COUNT -/,
   ⟨0x18, 1, 4, 1, 0x10000, 0x0, 0xFFFFFFFF, 0x0, 0x0, 0x0, 0x0, false, false⟩ /- DEC_ITER_SUM -/,
   ⟨0xFC, 1, 4, 1, 0x10000, 0x0, 0x0, 0x0, 0x0, 0x0, 0x0, false, false⟩ /- TD_DIE_REV -/,
   ⟨0x400, 1, 4, 1, 0x10000, 0x203, 0x70F, 0x0, 0x30, 0x70F, 0x0, true, false⟩ /- DPD_CTL -/,
   ⟨0x404, 1, 4, 1, 0x10000, 0x0, 0x0, 0x0, 0x0, 0x0, 0x0, false, false⟩ /- DPD_STATUS -/,
   ⟨0x408, 1, 4, 1, 0x10000, 0x0, 0x0, 0x0, 0x0, 0x0, 0x0, false, false⟩ /- DPD_ERR -/,
   ⟨0x410, 1, 4, 1, 0x10000, 0x0, 0x0, 0x10003, 0x0, 0x0, 0x0, false, false⟩ /- DPD_EVENT -/,
   ⟨0x414, 1, 4, 1, 0x10000, 0x0, 0x1FFFF, 0x0, 0x0, 0x1FFFF, 0x0, false, false⟩ /- DPD_IRQ_EN -/,
   ⟨0x418, 1, 4, 1, 0x10000, 0x0, 0xFFFFFFFF, 0x0, 0x0, 0x0, 0x0, false, false⟩ /- DPD_REVERT_COUNT -/,
   ⟨0x500, 15, 4, 1, 0x10000, 0x40000000, 0xFFFFFFFF, 0x0, 0x0, 0x0, 0x0, false, false⟩ /- DPD_COEF_TW -/,
   ⟨0x580, 15, 4, 1, 0x10000, 0x40000000, 0xFFFFFFFF, 0x0, 0x0, 0x0, 0x0, false, false⟩ /- DPD_COEF_TE -/]

/-- Registers of block ring (part 1). -/
def ringRegs1 : List RegDesc :=
  [⟨0x0, 1, 4, 1, 0x10000, 0x7, 0x7, 0x0, 0x0, 0x7, 0x0, true, false⟩ /- RING_CTL -/,
   ⟨0x4, 1, 4, 1, 0x10000, 0x640100, 0x3FF3F7F, 0x0, 0x0, 0x3FF3F7F, 0x0, false, false⟩ /- RING_CFG_REQ -/,
   ⟨0x8, 1, 4, 1, 0x10000, 0x640100, 0x0, 0x0, 0x0, 0x0, 0x0, false, false⟩ /- RING_CFG -/,
   ⟨0xC, 1, 4, 1, 0x10000, 0x1000, 0x0, 0x0, 0x0, 0x0, 0x0, false, false⟩ /- RING_STATUS -/,
   ⟨0x10, 1, 4, 1, 0x10000, 0x0, 0x0, 0x0, 0x0, 0x0, 0x0, false, false⟩ /- RING_TOPO -/,
   ⟨0x14, 1, 4, 1, 0x10000, 0x0, 0x0, 0x0, 0x0, 0x0, 0x0, false, false⟩ /- RING_CYCLE_NO -/,
   ⟨0x18, 1, 4, 1, 0x10000, 0x0, 0x0, 0x10FFF, 0x0, 0x0, 0x0, false, false⟩ /- RING_EVENT -/,
   ⟨0x1C, 1, 4, 1, 0x10000, 0x0, 0x1FFFF, 0x0, 0x0, 0x1FFFF, 0x0, false, false⟩ /- RING_IRQ_EN -/,
   ⟨0x20, 1, 4, 1, 0x10000, 0x0, 0x0, 0x0, 0x0, 0x0, 0x0, false, false⟩ /- RING_DELAY_TW -/,
   ⟨0x24, 1, 4, 1, 0x10000, 0x0, 0x0, 0x0, 0x0, 0x0, 0x0, false, false⟩ /- RING_DELAY_TE -/,
   ⟨0x28, 1, 4, 1, 0x10000, 0x0, 0x0, 0x0, 0x0, 0x0, 0x0, false, false⟩ /- RING_TIME_ERR -/,
   ⟨0x2C, 1, 4, 1, 0x10000, 0x0, 0x0, 0x0, 0x0, 0x0, 0x0, false, false⟩ /- RING_STEER -/,
   ⟨0x30, 1, 4, 1, 0x10000, 0x0, 0xFF00FF, 0x0, 0x0, 0xFF00FF, 0x0, false, false⟩ /- RING_DEST -/,
   ⟨0x40, 1, 4, 1, 0x10000, 0x0, 0xFFFFFFFF, 0x0, 0x0, 0x0, 0x0, false, false⟩ /- RING_RX_MSG_COUNT -/,
   ⟨0x44, 1, 4, 1, 0x10000, 0x0, 0xFFFFFFFF, 0x0, 0x0, 0x0, 0x0, false, false⟩ /- RING_DUP_COUNT -/,
   ⟨0x48, 1, 4, 1, 0x10000, 0x0, 0xFFFFFFFF, 0x0, 0x0, 0x0, 0x0, false, false⟩ /- RING_DROP_COUNT -/,
   ⟨0x4C, 1, 4, 1, 0x10000, 0x0, 0xFFFFFFFF, 0x0, 0x0, 0x0, 0x0, false, false⟩ /- RING_QFULL_COUNT -/,
   ⟨0x50, 1, 4, 1, 0x10000, 0x0, 0xFFFFFFFF, 0x0, 0x0, 0x0, 0x0, false, false⟩ /- RING_FLUSH_COUNT -/,
   ⟨0x54, 1, 4, 1, 0x10000, 0x0, 0xFFFFFFFF, 0x0, 0x0, 0x0, 0x0, false, false⟩ /- RING_HOP_GAP_COUNT -/,
   ⟨0x58, 1, 4, 1, 0x10000, 0x0, 0xFFFFFFFF, 0x0, 0x0, 0x0, 0x0, false, false⟩ /- RING_TIME_STEP_COUNT -/,
   ⟨0x5C, 1, 4, 1, 0x10000, 0x0, 0xFFFFFFFF, 0x0, 0x0, 0x0, 0x0, false, false⟩ /- RING_BYPASS_RX_COUNT -/,
   ⟨0x60, 1, 4, 1, 0x10000, 0x0, 0xFFFFFFFF, 0x0, 0x0, 0x0, 0x0, false, false⟩ /- RING_OFFER_DROP_COUNT -/,
   ⟨0x64, 1, 4, 1, 0x10000, 0x0, 0xFFFFFFFF, 0x0, 0x0, 0x0, 0x0, false, false⟩ /- RING_RX_LOST_COUNT -/,
   ⟨0x100, 1, 4, 1, 0x10000, 0x0, 0xFFFFFF33, 0x0, 0x0, 0x0, 0x0, false, false⟩ /- RING_TX_HDR -/]

/-- Registers of block ring (part 2). -/
def ringRegs2 : List RegDesc :=
  [⟨0x104, 1, 4, 1, 0x10000, 0x0, 0x1FF, 0x0, 0x0, 0x0, 0x0, false, false⟩ /- RING_TX_LEN -/,
   ⟨0x108, 1, 4, 1, 0x10000, 0x0, 0x0, 0x0, 0x1, 0x0, 0x0, true, false⟩ /- RING_TX_CTL -/,
   ⟨0x10C, 1, 4, 1, 0x10000, 0x0, 0x0, 0x0, 0x0, 0x0, 0x0, false, false⟩ /- RING_TX_STATUS -/,
   ⟨0x180, 1, 4, 1, 0x10000, 0x1F00, 0x1F00, 0x0, 0x1, 0x1F00, 0x0, true, false⟩ /- RING_RX_CTL -/,
   ⟨0x184, 1, 4, 1, 0x10000, 0x0, 0x0, 0x0, 0x0, 0x0, 0x0, false, false⟩ /- RING_RX_STATUS -/,
   ⟨0x188, 1, 4, 1, 0x10000, 0x0, 0x0, 0x0, 0x0, 0x0, 0x0, false, false⟩ /- RING_RX_HDR -/,
   ⟨0x18C, 1, 4, 1, 0x10000, 0x0, 0x0, 0x0, 0x0, 0x0, 0x0, false, false⟩ /- RING_RX_LEN -/,
   ⟨0x190, 1, 4, 1, 0x10000, 0x0, 0x0, 0x0, 0x0, 0x0, 0x0, false, false⟩ /- RING_RX_TIME_LO -/,
   ⟨0x194, 1, 4, 1, 0x10000, 0x0, 0x0, 0x0, 0x0, 0x0, 0x0, false, false⟩ /- RING_RX_TIME_HI -/,
   ⟨0x200, 116, 4, 1, 0x10000, 0x0, 0xFFFFFFFF, 0x0, 0x0, 0x0, 0x0, false, false⟩ /- RING_TX_DATA -/,
   ⟨0x400, 116, 4, 1, 0x10000, 0x0, 0x0, 0x0, 0x0, 0x0, 0x0, false, false⟩ /- RING_RX_DATA -/]

/-- Registers of block ring. -/
def ringRegs : List RegDesc := ringRegs1 ++ ringRegs2

/-- Registers of block bd. -/
def bdRegs : List RegDesc :=
  [⟨0x0, 1, 4, 1, 0x10000, 0x11, 0x0, 0x0, 0x0, 0x0, 0x0, false, false⟩ /- BD_STATUS -/,
   ⟨0x4, 1, 4, 1, 0x10000, 0x0, 0x1, 0x0, 0x0, 0x1, 0x0, true, false⟩ /- BD_BYPASS_CTL -/,
   ⟨0x8, 1, 4, 1, 0x10000, 0x0, 0x0, 0x3F, 0x0, 0x0, 0x0, false, false⟩ /- BD_EVENT -/,
   ⟨0xC, 1, 4, 1, 0x10000, 0x0, 0x3F, 0x0, 0x0, 0x3F, 0x0, false, false⟩ /- BD_IRQ_EN -/,
   ⟨0xFC, 1, 4, 1, 0x10000, 0x0, 0x0, 0x0, 0x0, 0x0, 0x0, false, false⟩ /- BD_DIE_REV -/]

/-- Registers of block lane. -/
def laneRegs : List RegDesc :=
  [⟨0x0, 1, 4, 1, 0x10000, 0x400, 0x700, 0x0, 0x3F, 0x600, 0x0, true, false⟩ /- LANE_CTL -/,
   ⟨0x4, 1, 4, 1, 0x10000, 0x1, 0xF0F3F, 0x0, 0x0, 0xF0F3F, 0x0, false, false⟩ /- LANE_CFG -/,
   ⟨0x8, 1, 4, 1, 0x10000, 0x64, 0x3FFF3FFF, 0x0, 0x0, 0x3FFF3FFF, 0x0, false, false⟩ /- LANE_PERIOD -/,
   ⟨0xC, 1, 4, 1, 0x10000, 0x0, 0x0, 0x0, 0x0, 0x0, 0x0, false, false⟩ /- LANE_STATUS -/,
   ⟨0x10, 1, 4, 1, 0x10000, 0x0, 0x0, 0x101FF, 0x0, 0x0, 0x0, false, false⟩ /- LANE_EVENT -/,
   ⟨0x14, 1, 4, 1, 0x10000, 0x0, 0x1FFFF, 0x0, 0x0, 0x1FFFF, 0x0, false, false⟩ /- LANE_IRQ_EN -/,
   ⟨0x18, 1, 4, 1, 0x10000, 0x0, 0xFFFFFFFF, 0x0, 0x0, 0x0, 0x0, false, false⟩ /- LANE_ACT_COUNT -/,
   ⟨0x1C, 1, 4, 1, 0x10000, 0x0, 0xFFFFFFFF, 0x0, 0x0, 0x0, 0x0, false, false⟩ /- LANE_OVERRUN_COUNT -/,
   ⟨0x20, 1, 4, 1, 0x10000, 0x0, 0x0, 0x0, 0x0, 0x0, 0x0, false, false⟩ /- LANE_ACT_TIME_LO -/,
   ⟨0x24, 1, 4, 1, 0x10000, 0x0, 0x0, 0x0, 0x0, 0x0, 0x0, false, false⟩ /- LANE_ACT_TIME_HI -/,
   ⟨0x28, 1, 4, 1, 0x10000, 0x0, 0x0, 0x0, 0x0, 0x0, 0x0, false, false⟩ /- LANE_EXEC -/,
   ⟨0x2C, 1, 4, 1, 0x10000, 0x0, 0xFFFFFFFF, 0x0, 0x0, 0x0, 0x0, false, false⟩ /- MAN_VALUE -/,
   ⟨0x30, 1, 4, 1, 0x10000, 0x0, 0x0, 0x0, 0x0, 0x0, 0x0, false, false⟩ /- LANE_LOT -/,
   ⟨0x100, 12, 64, 1, 0x10000, 0xFF00, 0xFFFF1F, 0x0, 0x0, 0xFFFF1F, 0x0, false, false⟩ /- BLK_CFG -/,
   ⟨0x104, 8, 4, 12, 0x40, 0x0, 0xFFFFFFFF, 0x0, 0x0, 0xFFFFFFFF, 0x0, false, false⟩ /- BLK_P -/,
   ⟨0x124, 12, 64, 1, 0x10000, 0x0, 0x0, 0x0, 0x0, 0x0, 0x0, false, false⟩ /- BLK_Y -/,
   ⟨0x128, 12, 64, 1, 0x10000, 0x0, 0x0, 0x0, 0x0, 0x0, 0x0, false, false⟩ /- BLK_Q -/,
   ⟨0x12C, 4, 4, 12, 0x40, 0x0, 0xFFFFFFFF, 0x0, 0x0, 0x0, 0x0, false, false⟩ /- BLK_STATE -/,
   ⟨0x400, 64, 4, 1, 0x10000, 0x0, 0xFFFFFFFF, 0x0, 0x0, 0xFFFFFFFF, 0x0, false, false⟩ /- LANE_TABLE -/]

/-- Registers of block engine. -/
def engineRegs : List RegDesc :=
  [⟨0x0, 1, 4, 1, 0x10000, 0x0, 0x0, 0x0, 0x0, 0x0, 0x0, false, false⟩ /- ENGINE_STATUS -/,
   ⟨0x4, 1, 4, 1, 0x10000, 0x0, 0x0, 0x0, 0x0, 0x0, 0x0, false, false⟩ /- ENGINE_LOAD -/,
   ⟨0x8, 1, 4, 1, 0x10000, 0x0, 0x0, 0x0, 0x0, 0x0, 0x0, false, false⟩ /- LANE_SUMMARY -/,
   ⟨0x10, 1, 4, 1, 0x10000, 0x0, 0x0, 0xFFFF, 0x0, 0x0, 0x0, false, false⟩ /- ENGINE_EVENT -/,
   ⟨0x14, 1, 4, 1, 0x10000, 0x0, 0xFFFF, 0x0, 0x0, 0xFFFF, 0x0, false, false⟩ /- ENGINE_IRQ_EN -/,
   ⟨0x100, 16, 8, 1, 0x10000, 0x0, 0xFFFFFFFF, 0x0, 0x0, 0x0, 0x0, false, false⟩ /- LOT_ID -/,
   ⟨0x104, 16, 8, 1, 0x10000, 0x0, 0x0, 0x0, 0x2, 0x0, 0x0, false, false⟩ /- LOT_STATUS -/]

/-- Registers of block od. -/
def odRegs : List RegDesc :=
  [⟨0x0, 1, 4, 1, 0x10000, 0x0, 0xFFFFFFFF, 0x0, 0x0, 0x0, 0x0, false, false⟩ /- OD_REQ -/,
   ⟨0x4, 1, 4, 1, 0x10000, 0x0, 0x0, 0x0, 0x3, 0x0, 0x0, true, false⟩ /- OD_CMD -/,
   ⟨0x8, 1, 4, 1, 0x10000, 0x0, 0x1FF, 0x0, 0x0, 0x0, 0x0, false, false⟩ /- OD_LEN -/,
   ⟨0xC, 1, 4, 1, 0x10000, 0x0, 0x0, 0x0, 0x0, 0x0, 0x0, false, false⟩ /- OD_STATUS -/,
   ⟨0x10, 1, 4, 1, 0x10000, 0x0, 0x0, 0x1001F, 0x0, 0x0, 0x0, false, false⟩ /- OD_EVENT -/,
   ⟨0x14, 1, 4, 1, 0x10000, 0x0, 0x1FFFF, 0x0, 0x0, 0x1FFFF, 0x0, false, false⟩ /- OD_IRQ_EN -/,
   ⟨0x18, 1, 4, 1, 0x10000, 0x0, 0xFFFFFFFF, 0x0, 0x0, 0x0, 0x0, false, false⟩ /- OD_AUTH_FAIL_COUNT -/,
   ⟨0x20, 1, 4, 1, 0x10000, 0x10, 0x30, 0x0, 0x3, 0x0, 0x0, true, false⟩ /- OD_KEY_CTL -/,
   ⟨0x24, 1, 4, 1, 0x10000, 0x0, 0x0, 0x0, 0x0, 0x0, 0x0, false, false⟩ /- OD_KEY_STATUS -/,
   ⟨0x40, 16, 4, 1, 0x10000, 0x0, 0x0, 0x0, 0x0, 0x0, 0x0, false, false⟩ /- OD_SESSION -/,
   ⟨0x80, 8, 4, 1, 0x10000, 0x0, 0xFFFFFFFF, 0x0, 0x0, 0x0, 0x0, false, false⟩ /- OD_KEY -/,
   ⟨0x100, 64, 4, 1, 0x10000, 0x0, 0xFFFFFFFF, 0x0, 0x0, 0x0, 0x0, false, false⟩ /- OD_DATA -/]

/-- Registers of block test. -/
def testRegs : List RegDesc :=
  [⟨0x0, 1, 4, 1, 0x10000, 0x0, 0xFFFF, 0x0, 0x0, 0x0, 0x0, false, false⟩ /- TEST_UNLOCK -/,
   ⟨0x4, 1, 4, 1, 0x10000, 0x0, 0x0, 0x0, 0x0, 0x0, 0xFFF8, false, false⟩ /- ATB_SEL -/,
   ⟨0x8, 1, 4, 1, 0x10000, 0x0, 0x0, 0x0, 0x0, 0x0, 0x1F, false, false⟩ /- ATB_NODE0 -/]

end Sys2Proof.Machine
end

