-- ==== Sys2Proof/Machine/State.lean ====
section
/-! DEFINITION. The state of the part as plain data. Registers live in `State.regs`, keyed by host address: an address the
list does not name holds its Reset value (Machine/Ops.lean reads and writes them). What the spec gives the part beside its
registers (engines, queues, buffers, timers, pins) stands in the structures below, one per chapter. Every field's default is
its value after power-on reset. -/

namespace Sys2Proof.Machine

/-! ### Reasons to stop -/

/-- Faults. No command of the part ends the machine: the block goes on after every event (the host port answers errors
with a status byte, R31). The one constructor is reached by no meaning; safe. -/
inductive Fault where
  | unreachable
  deriving DecidableEq, Repr

/-- Refusals. -/
inductive Refusal where
  /-- No meaning yet: raised only by an arm of `exec` of a command this model does not give a meaning; safe. -/
  | notModelled (mnemonic : String)
  deriving DecidableEq, Repr

/-! ### Factory fuses (R11, R35, R109) -/

/-- The one-time fuses: die revisions (MAJOR, MINOR), UNIQUE_ID, slice trims and port trims as their registers lay them
out. The spec gives no values: zeros, log entry 9. -/
structure Fuses where
  dieRev    : Vector (BitVec 16) 8 := Vector.replicate 8 0
  uniqueId  : BitVec 64 := 0
  sliceTrim : Vector Word 5 := Vector.replicate 5 0
  portTrim  : Vector Word 16 := Vector.replicate 16 0
  deriving DecidableEq, Repr

/-! ### Timers -/

/-- The one-shot deadlines of the spec. A deadline is held in `State.timers` as the elapsed time at which it falls due. -/
inductive Timer where
  | refSettle | recovery (s : Nat) | calRun | bgCheck (d : Nat) | injSettle (s : Nat)
  | miswireProbe (n : Nat) | shortRetry (n : Nat)
  | modemQuiet (n : Nat) | modemRsp (n : Nat) | modemTa (n : Nat) | modemTx (n : Nat) | modemSync (n : Nat)
  | sessionIdle (p : OdPath) | challenge (p : OdPath) | lockout (p : OdPath) | snapOwner
  | selftest (t : Trx) | acq (t : Trx) | rxBlank (t : Trx) | silent (t : Trx) | dpd (t : Trx)
  | tetherHold | noCycle | election | codeHunt | dupEntry (src : Nat)
  | xtalCheck | pageAck | vcoreAck | pllLock | wakeRetry | tetherRetry | railPoll | funcReset (f : Func)
  | resetnRelease
  deriving DecidableEq, Repr

/-- A write that missed its boundary and waits for the next one (R15): its address, the word as sent, and the bits it no longer
writes, because the guard lock refused them when it was accepted (R51) or a newer write of the register has been accepted since. -/
structure LateWrite where
  addr : Nat
  v    : Word
  off  : Word := 0
  deriving DecidableEq, Repr

/-! ### Measurement die (R53 to R113) -/

/-- A conversion in progress, or ended and not yet delivered: its channel and list entry, the range and averaging in force
for it (R63, R92); `due`: when an injected one ends (R85). `half`: 0 no reversal pair, 1 first half, 2 second half, 3 first half whose partner will not come (R67);
`clamp`: the sign of the overload once the protection has conducted (R73); `endStamp`: TIME and TB_VALID of its end (R72);
`closes`: it ended at the boundary at which its channel's sum is discarded, and is the last to join that sum (R92). -/
structure Conv where
  ch       : Nat
  entry    : Nat := 0
  inj      : Bool := false
  gain     : Nat := 0
  div10    : Bool := false
  avgK     : Nat := 0
  avgShift : Nat := 0
  half     : Nat := 0
  due      : Nat := 0
  reversed : Bool := false
  dirty    : Bool := false
  clamp    : Option Bool := none
  endStamp : Option (BitVec 64 × Bool) := none
  closes   : Bool := false
  deriving DecidableEq, Repr

/-- The flags of a result word (R71, W1 bits 19:16); `clamp` carries the sign of the clamp code. -/
structure Flags where
  ovr      : Bool := false
  clamp    : Option Bool := none
  dirty    : Bool := false
  calstale : Bool := false
  deriving DecidableEq, Repr

/-- One slice: its conversion and the one that has ended but is not delivered; its protection and recovery hold with the
CK cycles the hold still has to count (R74); the reservation (entry, channel) for a pair's second half (R83) with the held
first half (R67); its part in an injected sequence: taken, the entry it is to start, whether that start waits for the hold
(R75), and the idle time after INJ_DONE (R86); its per-function reset; its crosspoint row; its trim banks (R99), a software
trim (R111) or a restored record (R122) waiting for its boundary, the step reference (R102) and the instant its trims entered
force (R110). -/
structure Slice where
  conv       : Option Conv := none
  ended      : Option Conv := none
  conducting : Bool := false
  overNeg    : Bool := false
  holding    : Bool := false
  holdLeft   : Nat := 0
  resv       : Option (Nat × Nat) := none
  half       : Option (Int × Flags) := none
  injRole    : Bool := false
  injNext    : Option Nat := none
  injDue     : Bool := false
  injIdle    : Bool := false
  inReset    : Bool := false
  row        : Nat := 0
  bankA      : Word := 0
  bankB      : Word := 0
  trimReq    : Option Word := none
  stepRef    : Word := 0
  trimSince  : Nat := 0
  restore    : Option (Word × Word × Word × BitVec 64 × Bool) := none
  deriving DecidableEq, Repr

/-- The averager of one channel (R90): the 40-bit accumulator, the samples in it and the OR of their flags. -/
structure Acc where
  ch    : Nat
  sum   : Int := 0
  n     : Nat := 0
  flags : Flags := {}
  deriving DecidableEq, Repr

/-- The newest result delivered for a channel (R71), with the range and averaging in force for it (R54, R91). -/
structure Newest where
  ch    : Nat
  w0    : Word
  w1    : Word
  time  : BitVec 64
  tbv   : Bool
  gain  : Nat
  div10 : Bool
  shiftUp : Int
  at_   : Nat
  deriving DecidableEq, Repr

/-- The regular sequence (R77 to R83): the working list of channels, the next entry of it, the (entry, channel) pairs
waiting for requeue dispatch and the reversal entries that keep their place for an even boundary; a start or stop waiting for
its boundary; the frame number (R66); the channels whose CHAN_AVG or CHAN_CFG changed since the last boundary (R92). -/
structure Seq where
  list        : List Nat := []
  next        : Nat := 0
  fresh       : Bool := false
  requeued    : List (Nat × Nat) := []
  deferred    : List (Nat × Nat) := []
  stopReq     : Bool := false
  inReset     : Bool := false
  frameNo     : Nat := 0
  frameSeen   : Bool := false
  frameAt     : Nat := 0
  changed     : List Nat := []
  deriving DecidableEq, Repr

/-- Where an injected sequence stands (R84 to R89). -/
inductive InjPhase where
  | idle | waitBoundary | running
  deriving DecidableEq, Repr

/-- The injected sequence: the copied list of channels, the entries not yet given to a slice, the results still to come, and
how many slices it may use at once. -/
structure Inj where
  phase   : InjPhase := .idle
  list    : List Nat := []
  pool    : List Nat := []
  left    : Nat := 0
  want    : Nat := 0
  deriving DecidableEq, Repr

/-- One mains source of the tracker (R57, R58): its last edge, the run in progress and the longest run of this second,
with spans in CK cycles. -/
structure Track where
  last    : Option Nat := none
  runLen  : Nat := 0
  runSpan : Nat := 0
  bestM   : Nat := 0
  bestS   : Nat := 0
  deriving DecidableEq, Repr

/-- The mains tracker: both sources, seconds without an update (R59), the M and S of the last update, and the number of the second
that runs, floor(TIME / 12 288 000) (R58). -/
structure Mains where
  sync   : Track := {}
  ripple : Track := {}
  missed : Nat := 0
  m      : Nat := 0
  s      : Nat := 0
  second : Nat := 0
  deriving DecidableEq, Repr

/-- The Reel (R100 to R112): the instant the offline slice went offline, its run (`none`: none in progress; `some false`:
waiting for its start; `some true`: measuring), whether REF_READY was lost or the protection conducted during it, whether a
fresh run starts at the next boundary, and manual requests. -/
structure Reel where
  offlineSince : Nat := 0
  run          : Option Bool := some false
  refLost      : Bool := false
  clamped      : Bool := false
  restart      : Bool := false
  requests     : List Nat := []
  deriving DecidableEq, Repr

/-- Calibration block traffic (R121, R122): an EXPORT waiting for its loop tick; a restore waiting for its frame boundary
and then its loop tick. -/
structure CalBlock where
  exportReq    : Bool := false
  image        : Option (Nat × List Byte) := none
  restoreFrame : Bool := false
  restoreTick  : Bool := false
  ports        : List (Nat × Word × Word × Word × BitVec 64 × Bool) := []
  gen          : Word := 0
  deriving DecidableEq, Repr

/-! ### Loop dies (R124 to R169) -/

/-- A running output trim (R115): whether its tick t0 has passed, ticks since then, the samples of the two points, whether it has been
disturbed (R116), which point the port drives, TIME and TB_VALID of the last tick up to that of the result (R117). -/
structure TrimRun where
  begun : Bool := false
  tick  : Nat := 0
  high  : Bool := false
  back  : Bool := false
  lo    : List Int := []
  hi    : List Int := []
  upset : Bool := false
  stamp : BitVec 64 × Bool := (0, false)
  deriving DecidableEq, Repr

/-- One process port beside its registers: `roleStep` of a role change (1 requested, 2 switches open; R125), FS_FORCE as the last loop tick
found it and the latched causes of R143, whether the port is held and the target it holds (R146), whether P0's stage is without supply since a power failure that Tether mode
does not follow (R314), whether the keeper took it on a timeout (R145), a release write that waits for its tick and the
instant the last one counted (R144), the ticks its per-function reset still lasts (R299), the instant of a MISWIRE opening and a probe in progress (R140), the instant of
its last readback sample, its last per-function reset, which cleared the readback window, the target at the end of the last tick and the counts in ticks of R135 to R137, a MISWIRE opening whose next tick
has still to end a trim run and a transmission (R139), and the output trim: in force, a request, the run, an APPLY that waits (R114 to R118). -/
structure Port where
  roleStep   : Nat := 0
  fsForced   : Bool := false
  keeperLat  : Bool := false
  guardLat   : Bool := false
  resetLat   : Bool := false
  ckLat      : Bool := false
  parkLat    : Bool := false
  parked     : Bool := false
  held       : Nat := 0
  dark       : Bool := false
  taken      : Bool := false
  released   : Bool := false
  relAt      : Option Nat := none
  resetTicks : Nat := 0
  openAt     : Option Nat := none
  probing    : Bool := false
  rbAt       : Option Nat := none
  winFrom    : Option Nat := none
  openT      : Nat := 0
  cutDue     : Bool := false
  mmBad      : Nat := 0
  mmGood     : Nat := 0
  mmHold     : Nat := 0
  satRun     : Nat := 0
  satFree    : Nat := 0
  clipFree   : Nat := 0
  trim       : Word := 0
  trimReq    : Bool := false
  trimRun    : Option TrimRun := none
  applyReq   : Bool := false
  deriving DecidableEq, Repr

/-- A loop die's keeper (R145, R146): ticks since the last heartbeat that counted and since its last take, whether a kick
came, whether heartbeats count now, whether it is parked: a park strobe came and no heartbeat has counted since. -/
structure Keeper where
  age     : Nat := 0
  sinceTake : Nat := 0
  kicked  : Bool := false
  beats   : Bool := false
  parked  : Bool := false
  deriving DecidableEq, Repr

/-- Where a SEND stands (R163). -/
inductive TxPhase where
  | idle | quiet | sending | waiting
  deriving DecidableEq, Repr

/-- One Elvan modem: the bytes on the line, preamble first (R155), whether they are a slave's response (R162), and whether the next bit
boundary cuts what is under way short (R164); the frame of the SEND in progress, whether a response is awaited, the retries left, whether
the frame has been sent (R163), and since when CARRIER may have been quiet; the response that waits for its turn-around with its requester,
SEQ and the request's CRC, and the last one answered (R161); the reception: whether the frame on the line is heard since its carrier rose,
whether the tone present began while the receiver was blanked, the end of the last transmission (R154), the first bit boundary of the recovered
timing, and where the last reception with it ended (R133); the per-function reset. -/
structure Modem where
  line       : List Byte := []
  response   : Bool := false
  cut        : Bool := false
  phase      : TxPhase := .idle
  frame      : List Byte := []
  expect     : Bool := false
  retries    : Nat := 0
  sent       : Bool := false
  quietSince : Nat := 0
  answer     : Option (Byte × Nat × BitVec 16 × List Byte) := none
  stored     : Option (Byte × Nat × BitVec 16 × List Byte) := none
  hearing    : Bool := false
  deafTone   : Bool := false
  txEnd      : Option Nat := none
  bitAt      : Nat := 0
  bitEnd     : Option Nat := none
  inReset    : Bool := false
  deriving DecidableEq, Repr

/-! ### Lanes (R170 to R198) -/

/-- What a block keeps beside its registers: the inputs AVG accepted, whether it has delivered a Y since it was set up (R172), whether it has
had its first input, the instants since
which its condition has held and has been absent, the level of its IN_B, its DECIM count, whether CLEAR_LATCH has come since it
entered (R191), words of its own (filter states, the parameters PID last used), the parameters in force and those last examined
(R182), the ticks of BAD intervals, whether it restarts at its next activation (R193). -/
structure Blk where
  hist     : List Word := []
  ran      : Bool := false
  begun    : Bool := false
  onSince  : Option Nat := none
  offSince : Option Nat := none
  prevB    : Bool := false
  count    : Nat := 0
  canLeave : Bool := false
  w        : List Word := []
  params   : List Word := []
  seen     : List Word := []
  badTicks : Nat := 0
  restart  : Bool := false
  deriving DecidableEq, Repr

/-- One lane beside its registers (R174 to R193): when the activation that waits fell due (R175), whether its next activation is the first after RUN, the start of its last
activation and the end of the last completed one, the lot snapshot of the last, the instant of RUN, RESET_STATS and CLEAR_LATCH
that wait, whether the guard put it in HOLD while an activation of it was waiting or running (R179), the table in force and the one last examined, its blocks. -/
structure Lane where
  dueAt     : Nat := 0
  first     : Bool := true
  prevStart : Nat := 0
  doneAt    : Option Nat := none
  prevLot   : Option (Word × Bool) := none
  runAt     : Nat := 0
  closeReq  : Bool := false
  latchReq  : Bool := false
  caught    : Bool := false
  table     : List Word := []
  tableSeen : List Word := []
  blk       : Vector Blk 12 := Vector.replicate 12 {}
  deriving DecidableEq, Repr

/-- Lane 0's chain as copied to the keeper core's store (R197): NBLK and, per slot, BLK_CFG and the eight parameters. -/
structure Store where
  nblk : Nat := 0
  blks : List (Word × List Word) := []
  deriving DecidableEq, Repr

/-- The keeper core (R197, R198): the stored chain, whether it runs in STANDBY or Tether mode, the blocks' state and each
block's last Y, Q and state words. -/
structure KeeperCore where
  store : Option Store := none
  active : Bool := false
  lane  : Lane := {}
  out   : List (Word × Nat × List Word) := []
  deriving DecidableEq, Repr

/-! ### Object dictionary (R199 to R219) -/

/-- A session (R213): who holds it, its level, and the instant of its last request. -/
structure Session where
  path  : OdPath
  level : Nat
  last  : Nat
  deriving DecidableEq, Repr

/-- What the engine keeps per source: the live challenge with its level (R211), the instants of failed
authentications, and a lockout (R213). -/
structure Auth where
  path      : OdPath
  challenge : Option (Nat × BitVec 128) := none
  fails     : List Nat := []
  locked    : Bool := false
  deriving DecidableEq, Repr

/-- The snapshot buffer (R214 to R218): the state code of SNAP_STATUS, refusal code and record index, the image bytes received, the
next chunk expected, whether a chunk that another followed was not of 256 bytes, the owner, whether an accepted image is applied with a commit, and the loop tick from which a capture or an apply
makes its pass (R216, R217). -/
structure Snap where
  state   : Nat := 0
  code    : Nat := 0
  index   : Nat := 0
  image   : List Byte := []
  nextK   : Nat := 0
  gaps    : Bool := false
  owner   : Option OdPath := none
  commit  : Bool := false
  due     : Nat := 0
  deriving DecidableEq, Repr

/-- The dictionary engine: TAG, the keys (AON-retained, R210), sessions (trunk slots of OD_SESSION and tone), per-source
authentication state, the last transaction of each trunk source (R270), the last record of each lane (area 0xA), the
number of challenges drawn, the snapshot buffer, the payload of the last answer the engine gave, and the host window's pending request
(R219; true: a read). -/
structure Od where
  tag      : List Byte := []
  keys     : Vector (List Byte) 4 := Vector.replicate 4 []
  trunk    : Vector (Option Session) 16 := Vector.replicate 16 none
  tone     : Vector (Option Session) 16 := Vector.replicate 16 none
  auth     : List Auth := []
  lastTid  : List (Nat × BitVec 16 × List Byte) := []
  records  : List (Nat × List Word) := []
  drawn    : Nat := 0
  inReset  : Bool := false
  snap     : Snap := {}
  answer   : List Byte := []
  window   : Option Bool := none
  deriving DecidableEq, Repr

/-! ### Trunk (R220 to R274) -/

/-- What a queued frame is: a message of no special kind, the host's (R271), LAST_GASP (R273), a CYCLE (R257), a TIME answer to a
CYCLE whose reference instant was at elapsed time `at_` (R260), a frame forwarded by cut-through from a port (R264). -/
inductive TxKind where
  | plain | host | gasp | cycle
  | time (at_ : Nat)
  | cut (from_ : Trx)
  deriving DecidableEq, Repr

/-- A frame to send: its priority, its message bytes, its kind; a frame forwarded by cut-through keeps SF and LENGTH (R264). -/
structure TxFrame where
  prio : Nat
  msg  : List Byte
  kind : TxKind := .plain
  sf   : Option Nat := none
  len  : Nat := 0
  deriving DecidableEq, Repr

/-- The candidate of the shadow chain (R237): its level, its chip offset and the edge it qualified on, whether its delimiter has been found,
and its stamp. -/
structure Candidate where
  level : Int
  chip  : BitVec 6 := 0
  qual  : Nat := 0
  found : Bool := false
  time  : BitVec 64 := 0
  tbv   : Bool := false
  ck    : Nat := 0
  deriving DecidableEq, Repr

/-- A frame whose payload is being received or decoded (R250): its header, the codewords decoded so far, their bytes,
whether every one passed, the reception stamp with its elapsed time, and whether it is already being forwarded (R264). -/
structure DecJob where
  hdr   : BitVec 128
  got   : Nat := 0
  bytes : List Byte := []
  pass  : Bool := true
  time  : BitVec 64 := 0
  tbv   : Bool := false
  ck    : Nat := 0
  fwd   : Bool := false
  deriving DecidableEq, Repr

/-- A frame that the adapter of a predistorter is solving for (R240, R241): the set it was sent with, the set before it where this is the first
frame of a new one, and whether the adapter learns from it. -/
structure DpdRun where
  coef   : Vector Word 15
  prev   : Option (Vector Word 15)
  learns : Bool
  deriving DecidableEq, Repr

/-- One transceiver: its hop queue (R266), the frame being sent and its end, the end of the last frame and whether this port
sent it (R265), since when a request has waited on a quiet line (R265), the level, chip offset, qualifying edge and stamp
followed, the candidate, the edge of the last failed header at which a found candidate took over (R238), the frame in PAYLOAD and those
still in the decoder, HOP_SEQ sent and last seen (R254), its per-function reset; what it sends: the reference instant (R230) and whether
it has been stamped, the header's bits, the coded header and codewords (R249), the predistortion set (R239); CYCLEs that wait for their
echo (number, tA1, deadline), the last 8 delays in 1/16 tick, missed echoes (R260, R269); the predistorter: set in force, the one
before, the one to come and whether that one goes back, software writes and a RESET that wait (R239 to R241), the errors of the last
frames, whether the set in force is new and no frame has been judged with it, the frame being solved for; the instant of the last
CLIP. -/
structure Trunk where
  queue     : List TxFrame := []
  sending   : Option TxFrame := none
  sendEnd   : Nat := 0
  lastEnd   : Option (Nat × Bool) := none
  quietAt   : Nat := 0
  level     : Int := 0
  chip      : BitVec 6 := 0
  qualAt    : Nat := 0
  rxCk      : Nat := 0
  cand      : Option Candidate := none
  tookOver  : Option Nat := none
  job       : Option DecJob := none
  frames    : List DecJob := []
  hopSeq    : BitVec 16 := 0
  hopSeen   : Option (BitVec 16) := none
  inReset   : Bool := false
  refAt     : Nat := 0
  stamped   : Bool := true
  hdrBits   : BitVec 128 := 0
  sentHdr   : List Byte := []
  sentCws   : List (List Byte) := []
  sentSf    : Nat := 0
  sentCoef  : Vector Word 15 := (Vector.replicate 15 0).set 0 0x40000000
  echoes    : List (Word × BitVec 64 × Nat) := []
  delays    : List Nat := []
  missed    : Nat := 0
  coef      : Vector Word 15 := (Vector.replicate 15 0).set 0 0x40000000
  prevCoef  : Option (Vector Word 15) := none
  nextCoef  : Option (Vector Word 15) := none
  goesBack  : Bool := false
  writes    : List (Nat × Word) := []
  ident     : Bool := false
  errs      : List Int := []
  fresh     : Bool := false
  dpdRun    : Option DpdRun := none
  clipAt    : Option Nat := none
  deriving DecidableEq, Repr

/-- A message accepted from the ring (R254): its bytes, the port, the stamp of its reference instant with its elapsed time, and
TIME at which it was accepted. -/
structure RxMsg where
  bytes : List Byte
  port  : Trx
  time  : BitVec 64
  ck    : Nat
  stamp : BitVec 64
  valid : Bool
  deriving DecidableEq, Repr

/-- One source of the duplicate filter (R263). -/
structure DupEntry where
  src  : Nat
  high : BitVec 16
  mask : Word := 0
  deriving DecidableEq, Repr

/-- The ring link: MSG_SEQ and the last 32 numbers originated (R255), the duplicate filter with its tentative keys and held
copies (R263), messages accepted that wait for their step, the host receive queue and the host's message still to leave (R271),
the operating period and the values that wait for a boundary: SF, code index and period from the next one, or from that of a
cycle number (R259); the KEY followed, the newest CYCLE_NO accepted from it, the cycles heard in a row from a higher one, a mastership that
waits, the last CYCLE_NO heard (R258); the cycle numbers of late that time was taken from, good syncs in a row, cycles without one, F in ppb, the tick of the last sync
(R261); cycles without a return (R269); the number of the next boundary, where an election gives it (R258); whether a load of TIME has
passed over a boundary (R257); whether
the code index found by a hunt is kept (R259); boundaries since a CYCLE of the master followed; the best copy so far of a CYCLE that is
still to be synchronised to, with its distance (R261); whether a cause has begun to close the bypass (R244); the per-function reset. -/
structure Ring where
  msgSeq    : BitVec 16 := 0
  own       : List (BitVec 16) := []
  dup       : List DupEntry := []
  tentative : List (Nat × BitVec 16 × Trx) := []
  held      : List (Trx × DecJob) := []
  inbox     : List RxMsg := []
  rxq       : List RxMsg := []
  hostLeft  : Nat := 0
  opMs      : Nat := 100
  adopt     : Option (Nat × Nat × Nat) := none
  change    : Option (Word × Nat × Nat × Nat) := none
  masterKey : Option Nat := none
  newest    : Option Word := none
  higher    : Nat := 0
  higherNo  : Option Word := none
  beMaster  : Bool := false
  lastNo    : Option Word := none
  taken     : List Word := []
  goodSyncs : Nat := 0
  sinceSync : Nat := 0
  steerF    : Int := 0
  lastSync  : Option Nat := none
  closedW   : Nat := 0
  closedE   : Nat := 0
  nextNo    : Option Word := none
  crossed   : Bool := false
  huntKept  : Bool := false
  silent    : Nat := 0
  copy      : Option (RxMsg × Nat) := none
  closing   : Bool := false
  inReset   : Bool := false
  deriving DecidableEq, Repr

/-! ### Clock, power, Tether mode (R275 to R297) -/

/-- Where a wake or a PWR_RUN_SET sequence stands (R289, R290). -/
inductive WakePhase where
  | page | xtal | pll | domains | retry
  deriving DecidableEq, Repr

/-- A sequence of the power manager in progress. `runSet`: it carries out a PWR_RUN_SET write, not a wake; `target`: the domain set; `pages`: pages
still to be acknowledged, the first one awaited; `turnedOn`: pages and domains this attempt turned on; `from_`: the STATE it
started from. -/
structure Wake where
  runSet   : Bool := false
  target   : Nat := 0
  phase    : WakePhase := .page
  pages    : List Nat := []
  onPages  : List Nat := []
  onDoms   : List Nat := []
  attempts : Nat := 1
  status   : Word := 0
  from_    : Nat := 0
  xtalAt   : Nat := 0
  deriving DecidableEq, Repr

/-- The levels the pads of CORE hold (R284): HIRQn and FAULTn driven low, CKOUT, GPIO0 to GPIO5 (none: high impedance). -/
structure Pads where
  hirq  : Bool := false
  fault : Bool := false
  ckout : Bool := false
  gpio  : Option Bool := none
  deriving DecidableEq, Repr

/-- The power manager: the sequence in progress, a PWR_RUN_SET write kept for its end (R281), which pages are on and have
had their first turn-on (R286), the bytes of the last PMBus sequence, the VOUT_MODE the regulator answers per page, latched
wake sources, the armed alarm, FAULTn, the held pads of CORE (R284), the VCORE in force in mV (R287),
page fault bits already reported (R287), a RESETn latched in Tether mode, whether the pin is low, whether the wake after a global reset
waits for it to rise, the instant of the last global reset (R301), the divided clock's divisor (0: PLL),
whether the crystal is stopped, a power failure being handled, a part without power, a return to the source at the next tick
(R278), a STATE_REQ that waits with the instant it was accepted (R282), the first transaction of the PMBus sequence that is not known to be over and
whether a try of it has failed (R285), a software full reset
that waits for HCSn (R304), the instant of the last entry to STANDBY or HIBERNATE (R288), whether VIO is present (R329), the instant of the
power-fail warning, at which the BALLAST voltage is known (R332); a change of VCORE in progress, with the last STATUS_WORD read and whether
PGOOD has been high since (R287, R299). -/
structure Pwr where
  wake      : Option Wake := none
  keptSet   : Option Word := none
  pageOn    : Vector Bool 3 := #v[true, false, false]
  pageInit  : Vector Bool 3 := #v[true, false, false]
  bus       : List (List Byte) := []
  voutMode  : Vector Byte 3 := Vector.replicate 3 0x14
  latched   : Word := 0
  alarmSet  : Bool := false
  faultLow  : Bool := false
  padHeld   : Pads := {}
  vcoreMv   : Nat := 850
  faultSeen : Vector Word 3 := Vector.replicate 3 0
  resetHeld : Bool := false
  resetLow  : Bool := false
  resetWait : Bool := false
  resetAt   : Option Nat := none
  divisor   : Nat := 0
  xtalOff   : Bool := false
  pfwActive : Bool := false
  off       : Bool := false
  xtalBack  : Bool := false
  stateReq  : Option (Nat × Nat) := none
  busAt     : Nat := 0
  busRetry  : Bool := false
  fullReq   : Bool := false
  entryAt   : Option Nat := none
  vio       : Bool := true
  holdupAt  : Option Nat := none
  vcoreNow  : Option (Option Word × Bool) := none
  deriving DecidableEq, Repr

/-- One integration of the MD island (R292): its DIRTY and the sign of its overload once the protection has conducted (R71, R73). -/
structure TetherConv where
  dirty : Bool := false
  clamp : Option Bool := none
  deriving DecidableEq, Repr

/-- Tether mode: the MD island's copies (R291), with the instant S4's trims entered force and the age that makes them stale (log entry
70); the integration in progress, the one that has ended and whose result is still to come, the sign of an overload while the protection
conducts, S4's recovery hold with what it still has to count (R74), the start and length of the frame in progress in CK cycles; the island's own mains tracker (R292); the governor's counter in ms (R295, R296), and a step that waits for the
next S4 frame boundary. -/
structure Tether where
  gain     : Nat := 0
  trim     : Word := 0
  excMode  : Nat := 0
  excLevel : Nat := 0
  period   : Word := 0
  trimSince : Nat := 0
  maxAge   : Nat := 0
  conv     : Option TetherConv := none
  ended    : Option TetherConv := none
  clamped  : Option Bool := none
  holding  : Bool := false
  holdLeft : Nat := 0
  frameAt  : Nat := 0
  frameLen : Nat := 0
  mains    : Mains := {}
  okMs     : Nat := 0
  nextStep : Option Nat := none
  deriving DecidableEq, Repr

/-! ### The whole part -/

/-- The state. `ck` is elapsed time in cycles of the 196.608 MHz clock (a cycle of the clock divided by D counts 8·D of
them, R24); `time` is TIME and `timeAt` the TB tick of elapsed time up to which it has counted (R24); `tbLoad` a captured TB_SET
with the elapsed time from which it is due (R46); `linkFails` the failed sends in a row of each die-link word that has some, keyed by
die and word (R16); `commitRun`: the scan of a commit runs (R48); `jumps`: the loads and invalidations of the last second, newest first, each
with its TB tick and the TIME and TB_VALID up to that tick (R158, R230); `gridAt`: the elapsed time at which the tone bit grid began
(R133). -/
structure State where
  pending   : List Instr := []
  regs      : List (Nat × Word) := []
  sram      : List Host.Cell := []
  sramEpoch : Nat := 0
  fuses     : Fuses := {}
  ck        : Nat := 0
  time      : BitVec 64 := 0
  timeAt    : Nat := 0
  tbValid   : Bool := false
  tbLoad    : Option (BitVec 64 × Nat) := none
  jumps     : List (Nat × BitVec 64 × Bool) := []
  timers    : List (Timer × Nat) := []
  -- host port
  hostData  : List Word := []
  hostStat  : Option Byte := none
  latches   : List (Nat × Word) := []
  hostNo    : Nat := 0
  guardKey  : Option (Nat × Nat) := none
  testKey   : Option (Nat × Nat) := none
  testEn    : Bool := false
  -- control die
  linkFails : List (Nat × Nat) := []
  linkDown  : Vector Bool 8 := Vector.replicate 8 false
  ckLost    : Vector Bool 8 := Vector.replicate 8 false
  late      : List LateWrite := []
  commitReq : Bool := false
  commitRun : Bool := false
  refCrc    : Vector Word 7 := Vector.replicate 7 0
  tick      : Nat := 0
  tickAt    : Nat := 0
  -- Tail log
  logMem    : List (Nat × List Word) := []
  logSeq    : BitVec 16 := 0
  offCount  : Vector Nat 7 := Vector.replicate 7 0
  offLast   : Vector (Option Nat) 7 := Vector.replicate 7 none
  retryCount : Vector Nat 8 := Vector.replicate 8 0
  retryLast : Vector (Option Nat) 8 := Vector.replicate 8 none
  -- spools
  spoolSet  : Vector (Nat × Nat) 4 := Vector.replicate 4 (0, 4)
  spoolRst  : Vector Bool 4 := Vector.replicate 4 false
  seqReg    : BitVec 16 := 0
  seqInj    : BitVec 16 := 0
  seqLoop   : BitVec 16 := 0
  seqRec    : BitVec 16 := 0
  -- measurement die
  slices    : Vector Slice 5 := Vector.replicate 5 {}
  seq       : Seq := {}
  inj       : Inj := {}
  accs      : List Acc := []
  newReg    : List Newest := []
  newInj    : List Newest := []
  mains     : Mains := {}
  reel      : Reel := {}
  cal       : CalBlock := {}
  refSince  : Nat := 0
  excMode   : Vector Nat 4 := Vector.replicate 4 0
  -- loop dies
  gridAt    : Nat := 0
  ports     : Vector Port 16 := Vector.replicate 16 {}
  keepers   : Vector Keeper 4 := Vector.replicate 4 {}
  modems    : Vector Modem 16 := Vector.replicate 16 {}
  -- lanes
  lanes     : Vector Lane 16 := Vector.replicate 16 {}
  actQueue  : List Nat := []
  engBusy   : Nat := 0
  keeperCore : KeeperCore := {}
  -- dictionary, trunk, power
  od        : Od := {}
  trunks    : Vector Trunk 2 := Vector.replicate 2 {}
  ring      : Ring := {}
  wdtFrom   : Nat := 0
  pwr       : Pwr := {}
  tether    : Tether := {}
  -- the model's own: how many free values have been taken (log entry 8)
  freeN     : Nat := 0
  deriving DecidableEq, Repr

/-- The part just after its power-on reset has brought CORE up (R302, R309): every register at its Reset value and the
RESET entry in the cleared Tail log; nothing is waiting. -/
def State.reset : State :=
  { regs := [(0x0F0008, 1)]
    logMem := [(0, [0, 0, 0x00010000, 0x00000001, 0x00000101, 0, 0, 0xACACEB4D])]
    logSeq := 1
    pwr := { holdupAt := some 0 } }

end Sys2Proof.Machine
end

