-- ==== Sys2Proof/Machine/Ops.lean ====
section
/-! DEFINITION. The named operations over the part's state that every meaning is made of: registers, fields, events,
counters, domains, dies, elapsed time, deadlines and the interrupt summary. -/

namespace Sys2Proof.Machine

/-! ### The address map (R34) -/

/-- A block of the address map: its base, its registers, its die and its domain. -/
structure RegBlock where
  base   : Nat
  regs   : List RegDesc
  die    : Die
  domain : Domain
  deriving DecidableEq, Repr

/-- Loop die of port `n` (spec/01). -/
def ldOf (n : Nat) : Nat := n / 4

/-- The die LDd. -/
def ldDie (d : Nat) : Die := match d with | 0 => .ld0 | 1 => .ld1 | 2 => .ld2 | _ => .ld3

/-- The domain of loop die `d` (spec/01, Power domains). -/
def ldDomain (d : Nat) : Domain := if d ≤ 1 then .loopA else .loopB

/-- The domain of port `n`. -/
def portDomain (n : Nat) : Domain := ldDomain (ldOf n)

/-- The block an address lies in (R34); the spool SRAM is no register block. -/
def regBlock (a : Nat) : Option RegBlock :=
  let hi := a / 0x10000
  if hi = 0 then some ⟨0, sysRegs, .cd, .core⟩
  else if hi = 0x0E then some ⟨0x0E0000, aonRegs, .cd, .aon⟩
  else if hi = 0x0F then some ⟨0x0F0000, logRegs, .cd, .aon⟩
  else if hi = 0x10 then some ⟨0x100000, measRegs, .md, .meas⟩
  else if 0x20 ≤ hi ∧ hi < 0x30 then
    some ⟨0x10000 * hi, portRegs, ldDie (ldOf (hi - 0x20)), portDomain (hi - 0x20)⟩
  else if 0x30 ≤ hi ∧ hi < 0x34 then some ⟨0x10000 * hi, ldRegs, ldDie (hi - 0x30), ldDomain (hi - 0x30)⟩
  else if hi = 0x40 ∨ hi = 0x41 then some ⟨0x10000 * hi, trxRegs, .td, .trunk⟩
  else if hi = 0x42 then some ⟨0x420000, decRegs, .td, .trunk⟩
  else if hi = 0x44 then some ⟨0x440000, ringRegs, .td, .trunk⟩
  else if hi = 0x50 then some ⟨0x500000, bdRegs, .bd, .aon⟩
  else if hi = 0x60 then some ⟨0x1000 * (a / 0x1000), laneRegs, .cd, .core⟩
  else if hi = 0x61 then some ⟨0x610000, engineRegs, .cd, .core⟩
  else if hi = 0x70 then some ⟨0x700000, odRegs, .cd, .core⟩
  else if hi = 0xF0 then some ⟨0xF00000, testRegs, .cd, .aon⟩
  else none

/-- Whether a register of this description sits at offset `off` of its block. -/
def RegDesc.has (d : RegDesc) (off : Nat) : Bool :=
  let r := off - d.off
  decide (d.off ≤ off) && decide (r / d.s2 < d.n2) && decide (r % d.s2 % d.s1 = 0) && decide (r % d.s2 / d.s1 < d.n1)

/-- The register at an address, with its block. -/
def findReg (a : Nat) : Option (RegBlock × RegDesc) :=
  match regBlock a with
  | none => none
  | some b =>
    match b.regs.find? (fun d => d.has (a - b.base)) with
    | none => none
    | some d => some (b, d)

/-- The RC register a PEEK alias shows: the one 0x800 below (R40). -/
def peekOf (a : Nat) : Option Nat :=
  if a < 0x800 then none
  else match regBlock (a - 0x800), findReg (a - 0x800) with
    | some b, some (_, d) => if d.rc != 0 && decide (b.base + 0x800 ≤ a) then some (a - 0x800) else none
    | _, _ => none

/-- The domain of a register: its block's, EXCITE for the excitation registers (R34). -/
def domainOf (b : RegBlock) (d : RegDesc) : Domain := if d.excite then .excite else b.domain

/-- The die order of SYS_DIE_STATUS. -/
def allDies : List Die := [.cd, .md, .td, .bd, .ld0, .ld1, .ld2, .ld3]

/-- The DIE_REV value of a die (R35). -/
def dieRev (f : Fuses) (d : Die) : Word := BitVec.ofNat 32 (d.bit <<< 24 + (nth f.dieRev.toList d.bit 0).toNat)

/-- A register's value at a global reset: its Reset column (R11), with the entries that depend on an index or a fuse. -/
def resetOf (f : Fuses) (a : Nat) : Word :=
  match findReg a with
  | none => 0
  | some (b, d) =>
    let off := a - b.base
    if b.base = 0 ∧ 0x204 ≤ off ∧ off < 0x300 ∧ off % 0x40 = 4 then BitVec.ofNat 32 (0x800000 + 0x100000 * ((off - 0x204) / 0x40))
    else if a = Reg.CD_DIE_REV then dieRev f .cd
    else if a = Reg.UNIQUE_ID_LO then lo32 f.uniqueId
    else if a = Reg.UNIQUE_ID_HI then hi32 f.uniqueId
    else if b.base = 0x100000 ∧ off = 0xFC then dieRev f .md
    else if b.base = 0x420000 then
      (if off = 0xFC then dieRev f .td
       else if (0x500 ≤ off ∧ off < 0x600) ∧ off ≠ 0x500 ∧ off ≠ 0x580 then 0 else d.reset)
    else if b.base = 0x500000 ∧ off = 0xFC then dieRev f .bd
    else if 0x300000 ≤ b.base ∧ b.base < 0x340000 ∧ off = 0xFC then dieRev f b.die
    else if 0x200000 ≤ b.base ∧ b.base < 0x300000 ∧ off = 0x1008 then nth f.portTrim.toList (b.base / 0x10000 - 0x20) 0
    else if 0x600000 ≤ b.base ∧ b.base < 0x610000 ∧ off = 4 then
      d.reset ||| BitVec.ofNat 32 (((b.base / 0x1000) % 16) <<< Fld.LANE_CFG_STATION.lo)
    else d.reset

/-! ### Registers and fields -/

/-- What a register holds. -/
def State.reg (s : State) (a : Nat) : Word := (lookupKey s.regs a).getD (resetOf s.fuses a)

/-- A register put to a value. -/
def State.setReg (s : State) (a : Nat) (v : Word) : State := { s with regs := insertKey s.regs a v }

/-- What a field of a register holds. -/
def State.fld (s : State) (a : Nat) (f : Fld) : Nat := f.get (s.reg a)

/-- Whether a one-bit field is 1. -/
def State.flag (s : State) (a : Nat) (f : Fld) : Bool := f.on (s.reg a)

/-- A field of a register put to a value; the register's other bits stay. -/
def State.setFld (s : State) (a : Nat) (f : Fld) (x : Nat) : State := s.setReg a (f.set (s.reg a) x)

/-- A one-bit field set to 1 (an event bit, a status bit). -/
def State.raise (s : State) (a : Nat) (f : Fld) : State := s.setFld a f 1

/-- A one-bit field cleared. -/
def State.lower (s : State) (a : Nat) (f : Fld) : State := s.setFld a f 0

/-- A one-bit field put to a truth value. -/
def State.setFlag (s : State) (a : Nat) (f : Fld) (b : Bool) : State := s.setFld a f (b2n b)

/-- `n` added to a 32-bit counter, which saturates and then sets its block's CTR_SAT bit (R45). DESIGN CHOICE, log entry 64: CTR_SAT
sets at the first event the counter cannot hold, not when it reaches 0xFFFF_FFFF. -/
def State.count (s : State) (a ev : Nat) (sat : Fld) (n : Nat) : State :=
  let v := (s.reg a).toNat + n
  if v < 2 ^ 32 then s.setReg a (BitVec.ofNat 32 v) else (s.setReg a 0xFFFFFFFF).raise ev sat

/-- A one-step condition. -/
def State.when (s : State) (c : Bool) (f : State → State) : State := if c then f s else s

/-- Whether the guard lock is set (R51). -/
def State.locked (s : State) : Bool := s.flag Reg.GUARD_CTL Fld.GUARD_CTL_LOCK

/-! ### Domains and dies -/

/-- Whether the power manager reports a domain on (R38). -/
def State.on (s : State) (d : Domain) : Bool := (Fld.PWR_STATUS_ON.bit d.bit).on (s.reg Reg.PWR_STATUS)

/-- Whether a die's substrate link is declared down (R16). -/
def State.linkIsDown (s : State) (d : Die) : Bool := nth s.linkDown.toList d.bit false

/-- Whether CK is lost at a die (R17). -/
def State.ckIsLost (s : State) (d : Die) : Bool := nth s.ckLost.toList d.bit false

/-- The switched domain that powers a die's switched logic; LD dies share their LOOP domain, CD and BD are up whenever the
host can read (spec/01). -/
def dieDomain : Die → Domain
  | .cd => .core | .md => .meas | .td => .trunk | .bd => .aon
  | .ld0 => .loopA | .ld1 => .loopA | .ld2 => .loopB | .ld3 => .loopB

/-- Whether a die's switched logic is powered and its link up: SYS_DIE_STATUS.DIE_UP. DESIGN CHOICE, log entry 64: R16 clears BD's bit
too while its link is declared down, against the field's text that BD reads 1 whenever the host can read. -/
def State.dieUp (s : State) (d : Die) : Bool := s.on (dieDomain d) && !s.linkIsDown d

/-- Whether a die receives CK and is aligned: SYS_DIE_STATUS.CK_OK. -/
def State.ckOk (s : State) (d : Die) : Bool := s.on (dieDomain d) && !s.ckIsLost d

/-- Whether a die works: powered, with CK. -/
def State.runs (s : State) (d : Die) : Bool := s.on (dieDomain d) && !s.ckIsLost d

/-- Whether software can reach a register: its domain is on and its die's link is up (R16, R38, R207). -/
def State.reachable (s : State) (a : Nat) : Bool :=
  match findReg a with
  | none => true
  | some (b, d) => s.on (domainOf b d) && !s.linkIsDown b.die

/-- In Tether mode: TETHER_STATUS.ACTIVE (R293, R297). -/
def State.inTether (s : State) : Bool := s.flag Reg.TETHER_STATUS Fld.TETHER_STATUS_ACTIVE

/-- Whether the P0 block is held in the LD0 Tether island (R291). -/
def State.p0Held (s : State) : Bool := s.fld (Reg.PORT_CTL 0) Fld.PORT_CTL_ROLE == 4


/-! ### Ports: their supply -/

/-- Port `n`. -/
def State.port (s : State) (n : Nat) : Port := ((s.ports)[n]?).getD {}
def State.setPort (s : State) (n : Nat) (x : Port) : State := { s with ports := s.ports.setIfInBounds n x }

/-- TETHER_CFG.CH, the channel of the keeper core's chain in STANDBY and Tether mode (R283, R292). -/
def State.tetherCh (s : State) : Nat := s.fld Reg.TETHER_CFG Fld.TETHER_CFG_CH

/-- Whether P0's stage is supplied in the LD0 island: P0 is held there, and its supply has not gone with a power failure (R291, R314). -/
def State.islandOn (s : State) : Bool := s.p0Held && !(s.port 0).dark

/-- Whether port `n` is powered: its domain is on, or it is P0 in the island. -/
def State.portPowered (s : State) (n : Nat) : Bool := s.on (portDomain n) || (n == 0 && s.islandOn)

/-- Whether port `n` works: powered, its die with CK. -/
def State.portRuns (s : State) (n : Nat) : Bool := s.portPowered n && !s.ckIsLost (ldDie (ldOf n))

/-! ### Elapsed time and TIME (R6, R24, R46) -/

/-- CK cycles of the 196.608 MHz clock in `n` milliseconds (R21). -/
def msCk (n : Nat) : Nat := n * 196608

/-- CK cycles in `n` microseconds, cut to whole cycles (R21). -/
def usCk (n : Nat) : Nat := n * 196608 / 1000

/-- CK cycles in `n` seconds. -/
def secCk (n : Nat) : Nat := n * 196608000

/-- The instant of the first TB tick at or after elapsed time `c` (R21: TB is CK/16). -/
def tickAfter (c : Nat) : Nat := (c + 15) / 16

/-- TIME counted on by `n` ticks; a wrap sets TB_EVENT.WRAP and leaves TB_VALID (R45). -/
def State.countTime (s : State) (n : Nat) : State :=
  let t := s.time.toNat + n
  let s' := { s with time := BitVec.ofNat 64 t }
  if t < 2 ^ 64 then s' else s'.raise Reg.TB_EVENT Fld.TB_EVENT_WRAP

/-- Ticks between two ring-cycle boundaries (R257). -/
def State.ringPeriod (s : State) : Nat := max 1 (s.ring.opMs * 12288)

/-- TIME put to a value that is valid ring time: TB_VALID and TB_EVENT.SET (R46); one that passes over a ring-cycle boundary
produces it (R257). -/
def State.loadTime (s : State) (t : BitVec 64) : State :=
  let crosses := decide (s.time.toNat / s.ringPeriod < t.toNat / s.ringPeriod)
  { s with time := t, tbValid := true, ring := { s.ring with crossed := s.ring.crossed || crosses } }.raise Reg.TB_EVENT
    Fld.TB_EVENT_SET

/-- TIME is about to be put to a value, or TB_VALID to fall: what both were up to this tick is kept for a second (R158, R230). -/
def State.noteJump (s : State) : State :=
  { s with jumps := (s.timeAt, s.time, s.tbValid) :: s.jumps.filter fun j => decide (s.timeAt ≤ j.1 + 12288000) }

/-- TIME and TB_VALID as they were at elapsed time `c` of the last second. -/
def State.stampAt (s : State) (c : Nat) : BitVec 64 × Bool :=
  let p := s.jumps.foldl (fun p j => if c / 16 ≤ j.1 then j else p) (s.timeAt, s.time, s.tbValid)
  (p.2.1 - BitVec.ofNat 64 (p.1 - c / 16), p.2.2)

/-- TB ticks that one clock cycle adds to TIME while CK is a divided clock, D/2; one while it is not (R24). -/
def State.tickLen (s : State) : Nat := if s.pwr.divisor = 0 then 1 else max 1 (s.pwr.divisor / 2)

/-- TIME counts up to tick `t` of elapsed time, in whole steps of the clock (R24). -/
def State.countTo (s : State) (t : Nat) : State :=
  let n := (t - s.timeAt) / s.tickLen * s.tickLen
  { s.countTime n with timeAt := s.timeAt + n }

/-- A captured load takes the place of tick `k` (R46). -/
def State.loadDue (s : State) (v : BitVec 64) (k : Nat) : State :=
  { (s.countTo (k - 1)).noteJump with tbLoad := none, timeAt := max s.timeAt k }.loadTime v

/-- TIME counts up to tick `t` of elapsed time; a captured load takes the place of the first tick at which it is due (R45, R46). -/
def State.tickTo (s : State) (t : Nat) : State :=
  match s.tbLoad with
  | some (v, due) => if tickAfter due ≤ t then (s.loadDue v (tickAfter due)).countTo t else s.countTo t
  | none => s.countTo t

/-- `n` cycles of 196.608 MHz pass. -/
def State.pass (s : State) (n : Nat) : State := { s.tickTo ((s.ck + n) / 16) with ck := s.ck + n }

/-- Time passes up to the elapsed time `due`, if that is still ahead. -/
def State.passTo (s : State) (due : Nat) : State := if s.ck < due then s.pass (due - s.ck) else s

/-- The elapsed time at which TIME will have counted `n` more ticks: at the end of the step that brings the last of them (R24). -/
def State.ckAtTick (s : State) (n : Nat) : Nat := 16 * (s.timeAt + (n + s.tickLen - 1) / s.tickLen * s.tickLen)

/-- One clock cycle: one CK cycle, or 8·D of the nominal clock while CK is the source divided by D (R24). -/
def State.cycleLen (s : State) : Nat := if s.pwr.divisor = 0 then 1 else 8 * s.pwr.divisor

/-! ### Deadlines -/

/-- The elapsed time at which a deadline falls due, if it is armed. -/
def State.dueOf (s : State) (t : Timer) : Option Nat := (s.timers.find? (fun p => p.1 == t)).map (·.2)

/-- A deadline taken off. -/
def State.disarm (s : State) (t : Timer) : State := { s with timers := s.timers.filter (fun p => p.1 != t) }

/-- A deadline set `n` cycles from now; setting it again restarts it. -/
def State.arm (s : State) (t : Timer) (n : Nat) : State :=
  { s.disarm t with timers := (t, s.ck + n) :: (s.disarm t).timers }

/-- A deadline falls: if it is armed, time has passed up to it and it is taken off; if not, nothing happens. -/
def State.fall (s : State) (t : Timer) (f : State → State) : State :=
  match s.dueOf t with
  | none => s
  | some due => f ((s.passTo due).disarm t)

/-! ### Writes of registers with a row of their own (R48) -/

/-- The G bits of the register at an address. -/
def gBits (a : Nat) : Word := match findReg a with | some (_, d) => d.g | none => 0

/-- A write `f` of register `a` by the row that register has; one that changes a G field while a commit scan runs restarts the scan at
the following tick (R48). -/
def State.gRow (s : State) (a : Nat) (f : State → State) : State :=
  let t := f s
  if t.commitRun && ((t.reg a ^^^ s.reg a) &&& gBits a) != 0 then { t with commitRun := false } else t

/-! ### Late writes (R15) -/

/-- A write of the bits `m` of register `a` is accepted: an older write that still waits for its boundary no longer writes them. -/
def State.overLate (s : State) (a : Nat) (m : Word) : State :=
  if s.late.isEmpty then s
  else { s with late := s.late.map fun w => if w.addr = a then { w with off := w.off ||| m } else w }

/-- The late writes of registers `p` are dropped: their die or their domain is gone (R16, R38). -/
def State.dropLate (s : State) (p : Nat → Bool) : State := { s with late := s.late.filter fun w => !p w.addr }

/-! ### Free values (log entry 8) -/

/-- The next free value, and the state that has used it up. -/
def State.free (s : State) : Word × State := (Config.freeWord s.freeN, { s with freeN := s.freeN + 1 })

/-- A quotient with its fraction cut either way by a free bit (log entry 8). -/
def State.divFree (s : State) (n : Int) (d : Nat) : Int × State :=
  if n % (d : Int) = 0 then (n / (d : Int), s)
  else
    let (x, s) := s.free
    (n / (d : Int) + (if x.getLsbD 0 then 1 else 0), s)

/-! ### Element access -/

/-- A vector's element `i`, or `d` beyond its end. -/
def vget {α : Type} {n : Nat} (v : Vector α n) (i : Nat) (d : α) : α := (v[i]?).getD d

/-- A vector with element `i` replaced, or unchanged beyond its end. -/
def vset {α : Type} {n : Nat} (v : Vector α n) (i : Nat) (x : α) : Vector α n := v.setIfInBounds i x

/-- Slice `i` of the part. -/
def State.slice (s : State) (i : Nat) : Slice := vget s.slices i {}
def State.setSlice (s : State) (i : Nat) (x : Slice) : State := { s with slices := vset s.slices i x }

/-- The modem of port `n`. -/
def State.modem (s : State) (n : Nat) : Modem := vget s.modems n {}
def State.setModem (s : State) (n : Nat) (x : Modem) : State := { s with modems := vset s.modems n x }

/-- The keeper of loop die `d`. -/
def State.keeper (s : State) (d : Nat) : Keeper := vget s.keepers d {}
def State.setKeeper (s : State) (d : Nat) (x : Keeper) : State := { s with keepers := vset s.keepers d x }

/-- Lane `n`. -/
def State.lane (s : State) (n : Nat) : Lane := vget s.lanes n {}
def State.setLane (s : State) (n : Nat) (x : Lane) : State := { s with lanes := vset s.lanes n x }

/-- Trunk port `t`. -/
def State.trunk (s : State) (t : Trx) : Trunk := vget s.trunks t.idx {}
def State.setTrunk (s : State) (t : Trx) (x : Trunk) : State := { s with trunks := vset s.trunks t.idx x }

/-! ### Interrupts (R52) -/

/-- Whether an event register holds a bit its enable register admits. -/
def State.pends (s : State) (ev en : Nat) : Bool := (s.reg ev &&& s.reg en) != 0

/-- LD_SUMMARY of loop die `d`: ports, modems and the common block with an enabled event (R148). -/
def State.ldSummary (s : State) (d : Nat) : Word :=
  let bit (i : Nat) (b : Bool) : Nat := b2n b <<< i
  BitVec.ofNat 32 ((List.range 4).foldl (fun acc i =>
      acc + bit (Fld.LD_SUMMARY_PORT.lo + i) (s.pends (Reg.PORT_EVENT (4 * d + i)) (Reg.PORT_IRQ_EN (4 * d + i)))
          + bit (Fld.LD_SUMMARY_MODEM.lo + i) (s.pends (Reg.MODEM_EVENT (4 * d + i)) (Reg.MODEM_IRQ_EN (4 * d + i)))) 0
    + bit Fld.LD_SUMMARY_COMMON.lo (s.pends (Reg.LD_EVENT d) (Reg.LD_IRQ_EN d)))

/-- LANE_SUMMARY: lanes and the engine with an enabled event. -/
def State.laneSummary (s : State) : Word :=
  BitVec.ofNat 32 ((List.range 16).foldl (fun acc n => acc + b2n (s.pends (Reg.LANE_EVENT n) (Reg.LANE_IRQ_EN n)) <<< n) 0
    + b2n (s.pends Reg.ENGINE_EVENT Reg.ENGINE_IRQ_EN) <<< Fld.LANE_SUMMARY_ENGINE.lo)

/-- The blocks whose events are pending, in the bit order of IRQ_STATUS (R52). -/
def State.irqSources (s : State) : List Bool :=
  [s.reg Reg.SYS_DIE_EVENT != 0, s.reg Reg.HOST_EVENT != 0, s.reg Reg.TB_EVENT != 0, s.reg Reg.GUARD_EVENT != 0,
   s.pends Reg.CONV_EVENT Reg.CONV_IRQ_EN || s.pends Reg.SEQ_EVENT Reg.SEQ_IRQ_EN,
   s.pends Reg.CAL_EVENT Reg.CAL_IRQ_EN || s.pends Reg.LOOP_TRIM_EVENT Reg.LOOP_TRIM_IRQ_EN,
   s.pends (Reg.SPOOL_EVENT 0) (Reg.SPOOL_IRQ_EN 0), s.pends (Reg.SPOOL_EVENT 1) (Reg.SPOOL_IRQ_EN 1),
   s.pends (Reg.SPOOL_EVENT 2) (Reg.SPOOL_IRQ_EN 2), s.pends (Reg.SPOOL_EVENT 3) (Reg.SPOOL_IRQ_EN 3),
   s.ldSummary 0 != 0, s.ldSummary 1 != 0, s.ldSummary 2 != 0, s.ldSummary 3 != 0,
   s.laneSummary != 0, s.pends Reg.OD_EVENT Reg.OD_IRQ_EN,
   s.pends (Reg.TRX_EVENT 0) (Reg.TRX_IRQ_EN 0), s.pends (Reg.TRX_EVENT 1) (Reg.TRX_IRQ_EN 1),
   s.pends Reg.DEC_EVENT Reg.DEC_IRQ_EN || s.pends Reg.DPD_EVENT Reg.DPD_IRQ_EN,
   s.pends Reg.RING_EVENT Reg.RING_IRQ_EN,
   s.pends Reg.PWR_EVENT Reg.PWR_IRQ_EN || s.pends Reg.WDT_EVENT Reg.WDT_IRQ_EN,
   s.pends Reg.BD_EVENT Reg.BD_IRQ_EN, s.pends Reg.LOG_EVENT Reg.LOG_IRQ_EN]

/-- A list of truth values as a word, the first one bit 0. -/
def bitsOf : List Bool → Nat
  | [] => 0
  | b :: bs => b2n b + 2 * bitsOf bs

/-- The pending summary bits as a word. -/
def State.irqPending (s : State) : Word := BitVec.ofNat 32 (bitsOf s.irqSources)

/-- IRQ_STATUS latches every pending block while CORE is on (R52). -/
def State.settle (s : State) : State :=
  if s.on .core then s.setReg Reg.IRQ_STATUS (s.reg Reg.IRQ_STATUS ||| s.irqPending) else s

/-- HIRQn is asserted (R52). -/
def State.hirq (s : State) : Bool := (s.reg Reg.IRQ_STATUS &&& s.reg Reg.IRQ_ENABLE) != 0

/-! ### The pads of CORE (R22, R52, R279, R284) -/

/-- Whether the pads of CORE are held. -/
def State.coreHeld (s : State) : Bool := (Fld.PAD_STATUS_DOMAIN.bit Domain.core.bit).on (s.reg Reg.PAD_STATUS)

/-- Whether CKOUT delivers TB: CLK_CTL.CKOUT_EN, while the PLL is locked. -/
def State.ckoutRuns (s : State) : Bool :=
  s.flag Reg.CLK_CTL Fld.CLK_CTL_CKOUT_EN && s.flag Reg.CLK_STATUS Fld.CLK_STATUS_PLL_LOCK

/-- The level of CKOUT without a hold: TB, which rises as TIME counts (R22), or low. -/
def State.ckoutLevel (s : State) : Bool := s.ckoutRuns && decide (s.ck % 16 < 8)

/-- The level of the pad CKOUT. -/
def State.ckoutPad (s : State) : Bool := if s.coreHeld then s.pwr.padHeld.ckout else s.ckoutLevel

/-- Whether the pad HIRQn is driven low; without VIO it is high impedance (R329). -/
def State.hirqPad (s : State) : Bool := s.pwr.vio && (if s.coreHeld then s.pwr.padHeld.hirq else s.hirq)

/-- Whether the pad FAULTn is driven low: the power manager can drive it so through a hold (R290). -/
def State.faultPad (s : State) : Bool := s.pwr.faultLow || (s.coreHeld && s.pwr.padHeld.fault)

/-- What GPIO0 to GPIO5 drive without a hold: low while CORE is on, else nothing (R326). -/
def State.gpioLevel (s : State) : Option Bool := if s.on .core then some false else none

/-- The level each of GPIO0 to GPIO5 drives, none if high impedance (R284, R326). -/
def State.gpioPad (s : State) : Option Bool := if s.coreHeld then s.pwr.padHeld.gpio else s.gpioLevel

/-- The pads of CORE latch their levels, unless they are held already (R284). -/
def State.corePadLatch (s : State) : State :=
  if s.coreHeld then s
  else { s with pwr := { s.pwr with padHeld := { hirq := s.hirq, fault := s.pwr.faultLow, ckout := s.ckoutLevel, gpio := s.gpioLevel } } }

/-- What every meaning answers: the next state, with the interrupt summary up to date. -/
def State.done (s : State) : Host.Outcome State Fault Refusal := .next s.settle

end Sys2Proof.Machine
end

