-- ==== Sys2Proof/Machine/TailLog.lean ====
section
/-! DEFINITION. The Tail log (R306 to R310): writing an entry, its check, freezing, the rate-limited entries, and the
commands UNFREEZE and LOG_CLEAR. -/

namespace Sys2Proof.Machine

/-- Severities (R307). -/
inductive Sev where
  | info | notice | warning | error | fatal
  deriving DecidableEq, Repr

/-- The severity's code. -/
def Sev.code : Sev → Nat
  | .info => 0 | .notice => 1 | .warning => 2 | .error => 3 | .fatal => 4

/-- Undrained entries: min((WP − RP) mod 2^32, 4096) (R306). -/
def State.logFill (s : State) : Nat := min (s.reg Reg.LOG_WP - s.reg Reg.LOG_RP).toNat 4096

/-- Whether the log is frozen (R308). -/
def State.logFrozen (s : State) : Bool := s.flag Reg.LOG_STATUS Fld.LOG_STATUS_FROZEN

/-- One more entry lost: LOG_LOST, saturating (R45). -/
def State.logLose (s : State) : State := s.count Reg.LOG_LOST Reg.LOG_EVENT Fld.LOG_EVENT_CTR_SAT 1

/-- The CHECK word over an entry's first seven words (R307). -/
def logCheck (ws : List Word) : Word := crc32c ((ws.take 7).flatMap wordBytes)

/-- The eight words of an entry (R307). -/
def logWords (time : BitVec 64) (tbv : Bool) (seq : BitVec 16) (sev : Sev) (code cls idx : Nat) (d0 d1 d2 : Word) :
    List Word :=
  let ws := [lo32 time, hi32 time,
    BitVec.ofNat 32 (seq.toNat + sev.code * 0x10000 + b2n tbv * 0x800000),
    BitVec.ofNat 32 (code + idx * 0x10000 + cls * 0x1000000), d0, d1, d2]
  ws ++ [logCheck ws]

/-- The words of slot `q`; a slot nothing has written since power-on reads as zeros (R302: POR clears the log). -/
def State.logSlot (s : State) (q : Nat) : List Word := (lookupKey s.logMem q).getD (List.replicate 8 0)

/-- An entry is written at WP: the fill of 4096 overwrites the oldest (R308). -/
def State.logPut (s : State) (sev : Sev) (ws : List Word) : State :=
  let full := s.logFill == 4096
  let wp := s.reg Reg.LOG_WP
  let s := { s with logMem := insertKey s.logMem (wp.toNat % 4096) ws, logSeq := s.logSeq + 1 }
  let s := s.when full fun s => s.logLose.raise Reg.LOG_EVENT Fld.LOG_EVENT_OVERWRITE
  let s := s.setReg Reg.LOG_WP (wp + 1)
  let s := s.when (s.fld Reg.LOG_CTL Fld.LOG_CTL_IRQ_SEV ≤ sev.code) fun s => s.raise Reg.LOG_EVENT Fld.LOG_EVENT_NEW
  s.when (sev == .fatal && s.flag Reg.LOG_CTL Fld.LOG_CTL_FREEZE_FATAL) fun s =>
    (s.raise Reg.LOG_STATUS Fld.LOG_STATUS_FROZEN).raise Reg.LOG_EVENT Fld.LOG_EVENT_FROZEN

/-- A log entry arises (R308): below MIN_SEV it is not written, while the log is frozen it is dropped and counted. -/
def State.log (s : State) (sev : Sev) (code cls idx : Nat) (d0 d1 d2 : Word) : State :=
  if sev.code < s.fld Reg.LOG_CTL Fld.LOG_CTL_MIN_SEV then s
  else if s.logFrozen then s.logLose
  else s.logPut sev (logWords s.time s.tbValid s.logSeq sev code cls idx d0 d1 d2)

/-- Whether at least 1 s has passed since `last`, or there was none (R38, R310). -/
def State.secondSince (s : State) (last : Option Nat) : Bool :=
  match last with
  | none => true
  | some t => decide (t + secCk 1 ≤ s.ck)

/-- A DOMAIN_OFF access to domain `d` at address `a` is counted, and logged at most once a second (R38). DESIGN CHOICE, log entry 64:
an entry that MIN_SEV or a frozen log drops counts as the domain's previous entry, so it starts the second and the count afresh. -/
def State.offAccess (s : State) (d : Domain) (a : Nat) : State :=
  let n := vget s.offCount d.bit 0 + 1
  if s.secondSince (vget s.offLast d.bit none) then
    { s with offCount := vset s.offCount d.bit 0, offLast := vset s.offLast d.bit (some s.ck) }.log .warning 0x0010 0x01 d.bit
      (BitVec.ofNat 32 n) (BitVec.ofNat 32 a) 0
  else { s with offCount := vset s.offCount d.bit n }

/-- A repeat on die `d`'s link is logged at most once a second (R16, R310). -/
def State.retryEntry (s : State) (d : Die) : State :=
  let n := vget s.retryCount d.bit 0 + 1
  if s.secondSince (vget s.retryLast d.bit none) then
    { s with retryCount := vset s.retryCount d.bit 0, retryLast := vset s.retryLast d.bit (some s.ck) }.log .notice 0x0011 0x02
      d.bit (BitVec.ofNat 32 n) 0 0
  else { s with retryCount := vset s.retryCount d.bit n }

/-- Every undrained entry whose CHECK fails is overwritten with zeros and counted (R309). -/
def State.logVerify (s : State) : State :=
  iterate s.logFill (fun i s =>
    let q := (s.reg Reg.LOG_RP).toNat + (if 4096 < (s.reg Reg.LOG_WP - s.reg Reg.LOG_RP).toNat
      then (s.reg Reg.LOG_WP - s.reg Reg.LOG_RP).toNat - 4096 else 0) + i
    let ws := s.logSlot (q % 4096)
    if nth ws 7 0 = logCheck ws then s
    else { s with logMem := insertKey s.logMem (q % 4096) (List.replicate 8 0) }.logLose) s

/-- LOG_CTL.UNFREEZE ends a freeze (R308). -/
def State.unfreeze (s : State) : State := s.lower Reg.LOG_STATUS Fld.LOG_STATUS_FROZEN

/-- LOG_CLEAR.CLEAR sets RP equal to WP without counting a loss (R308). -/
def State.clearLog (s : State) : State := s.setReg Reg.LOG_RP (s.reg Reg.LOG_WP)

/-! ### Host transactions (R31, R34, R51) -/

/-- Status codes (R31). -/
inductive HostCode where
  | ok | domainOff | alignFault | sizeFault | guardLock | noReg
  deriving DecidableEq, Repr

/-- The code's number. -/
def HostCode.num : HostCode → Nat
  | .ok => 0 | .domainOff => 1 | .alignFault => 2 | .sizeFault => 3 | .guardLock => 4 | .noReg => 5

/-- The code's bit of HOST_EVENT. -/
def HostCode.event : HostCode → Option Fld
  | .ok => none
  | .domainOff => some Fld.HOST_EVENT_DOMAIN_OFF
  | .alignFault => some Fld.HOST_EVENT_ALIGN_FAULT
  | .sizeFault => some Fld.HOST_EVENT_SIZE_FAULT
  | .guardLock => some Fld.HOST_EVENT_GUARD_LOCK
  | .noReg => some Fld.HOST_EVENT_NO_REG

/-- OP as the command word carries it. -/
def hostOpNum : HostOp → Nat
  | .read => 0 | .write => 1 | .burstRead => 2 | .burstWrite => 3

/-- A host transaction begins: `hostNo` numbers them, so that the two keys of R51 and R315 can be told to come in consecutive
ones. -/
def State.hostBegin (s : State) : State := { s with hostNo := s.hostNo + 1 }

/-- An access at `a` of register `r` is answered: its code shows in HOST_EVENT; one to a domain that is off is logged (R38). -/
def State.answerAt (s : State) (r a : Nat) (c : HostCode) : State :=
  let s := match c.event with | some f => s.raise Reg.HOST_EVENT f | none => s
  if c = .domainOff then
    match findReg r with
    | some (b, d) => s.offAccess (domainOf b d) a
    | none => s
  else s

/-- HOST_FAULT of a transaction that did not complete with OK: OP, SIZE, the code and the address. -/
def State.faultAt (s : State) (op : HostOp) (z : BitVec 2) (c : HostCode) (a : Nat) : State :=
  s.setReg Reg.HOST_FAULT (Fld.HOST_FAULT_OP.put (hostOpNum op) ||| Fld.HOST_FAULT_SIZE.put z.toNat |||
    Fld.HOST_FAULT_CODE.put c.num ||| Fld.HOST_FAULT_ADDR.put a)

/-- What HMISO sends at a transaction's end: the words read and the status byte, or none of it where HCSn cut it short (R31, R33); all
0 while the pads of CORE are held (R34). -/
def State.hostSends (s : State) (data : List Word) (under : Bool) (code : Nat) (aborted : Bool) : State :=
  { s with hostData := if s.coreHeld then data.map (fun _ => 0) else data,
           hostStat := if aborted then none
             else some (if s.coreHeld then 0 else byte (b2n s.hirq * 128 + b2n under * 64 + code)) }

end Sys2Proof.Machine
end

