-- ==== Sys2Proof/Machine/Wake.lean ====
section
/-! DEFINITION. The power manager up to the start of a wake: STATE, the regulator pages and their PMBus sequences, and wake
sources (spec/12, R285, R286, R288, R289). -/

namespace Sys2Proof.Machine

/-- PWR_STATUS.STATE. -/
def State.pwrState (s : State) : Nat := s.fld Reg.PWR_STATUS Fld.PWR_STATUS_STATE

/-- STATE changes; PWR_EVENT.STATE sets. -/
def State.setPwrState (s : State) (st : Nat) : State :=
  if s.pwrState = st then s
  else (s.setFld Reg.PWR_STATUS Fld.PWR_STATUS_STATE st).raise Reg.PWR_EVENT Fld.PWR_EVENT_STATE

/-- The code of RUN, or of IDLE while IDLE_EN is 1 (R280). -/
def State.runCode (s : State) : Nat := if s.flag Reg.PWR_CTL Fld.PWR_CTL_IDLE_EN then 1 else 0

/-- The domain set of PWR_RUN_SET; CORE is always in it (R281). -/
def State.runSet (s : State) : Nat := s.fld Reg.PWR_RUN_SET Fld.PWR_RUN_SET_DOMAINS ||| 1

/-! ### A domain's registers (R38, R49, R284, R291) -/

/-- The domain of the register at an address. -/
def regDomain (a : Nat) : Option Domain := (findReg a).map fun p => domainOf p.1 p.2

/-- Registers that outlive their domain: RESET_CAUSE, and P0's block while the LD0 Tether island holds it. -/
def State.outlives (s : State) (a : Nat) : Bool :=
  a == Reg.RESET_CAUSE || (s.p0Held && decide (0x200000 ≤ a) && decide (a < 0x210000))

/-- A domain's registers go back to their reset values. -/
def State.forget (s : State) (d : Domain) : State :=
  { s with regs := s.regs.filter fun p => regDomain p.1 != some d || s.outlives p.1 }

/-- Bit `d` of PWR_STATUS.ON. -/
def State.setOn (s : State) (d : Domain) (b : Bool) : State :=
  s.setFlag Reg.PWR_STATUS (Fld.PWR_STATUS_ON.bit d.bit) b

/-- The RST_BUSY bit of a function with its register. -/
def funcBusy : Func → Nat × Fld
  | .port n => (Reg.RST_BUSY0, Fld.RST_BUSY0_PORT.bit n)
  | .modem n => (Reg.RST_BUSY0, Fld.RST_BUSY0_MODEM.bit n)
  | .lane n => (Reg.RST_BUSY1, Fld.RST_BUSY1_LANE.bit n)
  | .slice i => (Reg.RST_BUSY1, Fld.RST_BUSY1_SLICE.bit i)
  | .seq => (Reg.RST_BUSY1, Fld.RST_BUSY1_SEQ)
  | .spool k => (Reg.RST_BUSY1, Fld.RST_BUSY1_SPOOL.bit k)
  | .tw => (Reg.RST_BUSY1, Fld.RST_BUSY1_TW)
  | .te => (Reg.RST_BUSY1, Fld.RST_BUSY1_TE)
  | .dec => (Reg.RST_BUSY1, Fld.RST_BUSY1_DEC)
  | .ring => (Reg.RST_BUSY1, Fld.RST_BUSY1_RING)
  | .od => (Reg.RST_BUSY1, Fld.RST_BUSY1_OD)
  | .pmbus => (Reg.RST_BUSY1, Fld.RST_BUSY1_PMBUS)

/-- The functions with a reset of their own that end with a domain, P0's and its modem's not while the LD0 Tether island holds them (R291). -/
def State.domainFuncs (s : State) : Domain → List Func
  | .meas => .seq :: (List.finRange 5).map .slice
  | .trunk => [.tw, .te, .dec, .ring]
  | .loopA => ((List.finRange 16).filter fun n => decide (n < 8) && !(n == 0 && s.p0Held)).flatMap fun n => [.port n, .modem n]
  | .loopB => ((List.finRange 16).filter fun n => decide (8 ≤ n)).flatMap fun n => [.port n, .modem n]
  | _ => []

/-- A domain is off: its registers lost, and the late writes to them, its pads latched, its guard suspended, its functions' resets over. -/
def State.domainDown (s : State) (d : Domain) : State :=
  let s := ((s.forget d).setOn d false).raise Reg.PAD_STATUS (Fld.PAD_STATUS_DOMAIN.bit d.bit)
  let s := s.dropLate fun a => regDomain a == some d && !s.outlives a
  s.when (s.on .core) fun s =>
    let s := (s.domainFuncs d).foldl (fun s f => s.lower (funcBusy f).1 (funcBusy f).2) s
    (s.lower Reg.GUARD_STATUS (Fld.GUARD_STATUS_REF_VALID.bit d.bit)).lower Reg.GUARD_STATUS
      (Fld.GUARD_STATUS_MISMATCH.bit d.bit)

/-- The dies a domain powers. -/
def domainDies (d : Domain) : List Die := allDies.filter fun x => dieDomain x == d && x != .bd

/-- A domain is on: registers at reset values, links up, CK there (R16, R38). -/
def State.domainUp (s : State) (d : Domain) : State :=
  let s := (s.forget d).setOn d true
  (domainDies d).foldl (fun s x => { s with linkFails := s.linkFails.filter fun p => p.1 % 8 != x.bit,
                                            linkDown := vset s.linkDown x.bit false, ckLost := vset s.ckLost x.bit false }) s

/-! ### PMBus (R285, R286) -/

/-- One bit of CRC-8, polynomial 0x07 (R285). -/
def crc8Bit (c : Byte) : Byte := if c.getLsbD 7 then (c <<< 1) ^^^ 0x07#8 else c <<< 1

/-- The packet error code over a transaction's bytes (R285). -/
def crc8 (bs : List Byte) : Byte :=
  bs.foldl (fun c b => crc8Bit (crc8Bit (crc8Bit (crc8Bit (crc8Bit (crc8Bit (crc8Bit (crc8Bit (c ^^^ b))))))))) 0

/-- A write transaction on the bus: the address byte, the command and its data, low byte first, and the PEC if used. -/
def State.pmbusWrite (s : State) (cmd : Nat) (data : List Byte) : List Byte :=
  let bs : List Byte := BitVec.ofNat 8 (2 * s.fld Reg.PWR_REG_CFG Fld.PWR_REG_CFG_ADDR) :: BitVec.ofNat 8 cmd :: data
  if s.flag Reg.PWR_REG_CFG Fld.PWR_REG_CFG_PEC then bs ++ [crc8 bs] else bs

/-- The bytes the part sends in a read transaction. -/
def State.pmbusRead (s : State) (cmd : Nat) : List Byte :=
  let a := 2 * s.fld Reg.PWR_REG_CFG Fld.PWR_REG_CFG_ADDR
  [BitVec.ofNat 8 a, BitVec.ofNat 8 cmd, BitVec.ofNat 8 (a + 1)]

/-- The data of a read of `n` bytes, low byte first: of the first try, or of the second where it fails; a wrong packet error code fails a
try too. None is a PMBus failure (R285). -/
def State.pmbusData (s : State) (cmd n : Nat) (r : PmRead) : Option Nat :=
  let pec := s.flag Reg.PWR_REG_CFG Fld.PWR_REG_CFG_PEC
  ((r.take 2).find? fun bs =>
    if pec then decide (bs.length = n + 1) && crc8 (s.pmbusRead cmd ++ bs.take n) == nth bs n 0 else decide (bs.length = n)).map
      fun bs => leNat (bs.take n)

/-- The bytes a target sends in a read whose data are `data`: with the packet error code, where it is used (R285). -/
def State.pmbusSends (s : State) (cmd : Nat) (data : List Byte) : List Byte :=
  if s.flag Reg.PWR_REG_CFG Fld.PWR_REG_CFG_PEC then data ++ [crc8 (s.pmbusRead cmd ++ data)] else data

/-- The sequence on the bus, of transactions that have not failed before (R285). -/
def State.onBus (s : State) (ts : List (List Byte)) : State := { s with pwr := { s.pwr with bus := ts, busAt := 0, busRetry := false } }

/-- VOUT_MODE of page `p` as the regulator answers it. -/
def State.voutModeOf (s : State) (p : Nat) : Byte := vget s.pwr.voutMode p 0

/-- Whether a VOUT_MODE shows the linear format (R285). -/
def voutLinear (m : Byte) : Bool := m.toNat / 32 == 0

/-- VOUT_COMMAND for a voltage in mV: round(V × 2^−N), N the signed exponent of VOUT_MODE (R285). -/
def voutCommand (m : Byte) (mv : Nat) : Nat :=
  let n := m.toNat % 32
  if n < 16 then (roundDiv mv (1000 * 2 ^ n)).toNat else (roundDiv (mv * 2 ^ (32 - n)) 1000).toNat

/-- READ_VOUT in mV as a quotient: its word × 2^N V, N the signed exponent of VOUT_MODE (R285). -/
def voutRead (m : Byte) (w : Nat) : Int × Nat :=
  let n := m.toNat % 32
  if n < 16 then (w * 1000 * 2 ^ n, 1) else (w * 1000, 2 ^ (32 - n))

/-- READ_IOUT in mA as a quotient: LINEAR11, a signed mantissa in bits 10:0 × 2^N A, N the signed exponent in bits 15:11 (R285). -/
def ioutRead (w : Nat) : Int × Nat :=
  let y := (BitVec.ofNat 11 w).toInt
  let n := w / 2048 % 32
  if n < 16 then (y * 1000 * 2 ^ n, 1) else (y * 1000, 2 ^ (32 - n))

/-- PWR_VCORE.REQ_MV as it acts: 750 to 950 mV (R287). -/
def State.vcoreReq (s : State) : Nat := clampNat 750 950 (s.fld Reg.PWR_VCORE Fld.PWR_VCORE_REQ_MV)

/-- PAGE p. -/
def State.pageSelect (s : State) (p : Nat) : List Byte := s.pmbusWrite 0x00 [BitVec.ofNat 8 p]

/-- VOUT_COMMAND with `mv`. -/
def State.voutWrite (s : State) (mv : Nat) : List Byte := s.pmbusWrite 0x21 (leBytes 2 (voutCommand (s.voutModeOf 0) mv))

/-- The turn-on sequence of page `p` (R286). -/
def State.turnOnSeq (s : State) (p : Nat) : List (List Byte) :=
  (if vget s.pwr.pageInit p false then [] else [s.pageSelect p, s.pmbusWrite 0x02 [0x18], s.pmbusRead 0x20]) ++
    [s.pageSelect p, s.pmbusWrite 0x03 []] ++ (if p = 0 then [s.voutWrite s.vcoreReq] else []) ++ [s.pmbusWrite 0x01 [0x80]]

/-- The turn-off sequence of page `p` (R286). -/
def State.turnOffSeq (s : State) (p : Nat) : List (List Byte) := [s.pageSelect p, s.pmbusWrite 0x01 [0x00]]

/-- PWR_REG_CFG.ACK_TMO in CK cycles; 0 acts as 1 ms (R286). -/
def State.ackTmo (s : State) : Nat := msCk (max 1 (s.fld Reg.PWR_REG_CFG Fld.PWR_REG_CFG_ACK_TMO))

/-- The turn-on of page `p` begins: its sequence is sent and the deadline set (R286; log entry 10). At a first turn-on whose VOUT_MODE is
not linear the sequence ends with the read of it: the page stays without its first turn-on, and the attempt fails (R290). CLEAR_FAULTS
clears the page's faults, so that one which comes again appears again (R287). -/
def State.pageTurnOn (s : State) (p : Nat) : State :=
  if vget s.pwr.pageInit p false || voutLinear (s.voutModeOf p) then
    let s' := s.onBus (s.turnOnSeq p)
    { s' with pwr := { s'.pwr with pageInit := vset s'.pwr.pageInit p true, faultSeen := vset s'.pwr.faultSeen p 0,
                                   vcoreMv := if p = 0 then s.vcoreReq else s'.pwr.vcoreMv } }.arm .pageAck s.ackTmo
  else s.onBus ((s.turnOnSeq p).take 3)

/-- Page `p` is turned off (R286). -/
def State.pageOff (s : State) (p : Nat) : State :=
  if !vget s.pwr.pageOn p false then s
  else
    let s' := s.onBus (s.turnOffSeq p)
    { s' with pwr := { s'.pwr with pageOn := vset s'.pwr.pageOn p false } }

/-- Whether page `p` is managed (R285). -/
def State.pageManaged (s : State) (p : Nat) : Bool := (Fld.PWR_REG_CFG_PAGES.bit p).on (s.reg Reg.PWR_REG_CFG)

/-- Whether a domain set needs page `p` (R285). -/
def setNeeds (set p : Nat) : Bool :=
  if p = 0 then set % 64 != 0 else if p = 1 then set.testBit 1 || set.testBit 2 else set.testBit 3

/-- The pages to turn on for a domain set, in order (R286, R289). -/
def State.pagesFor (s : State) (set : Nat) : List Nat :=
  (List.range 3).filter fun p => setNeeds set p && s.pageManaged p && !vget s.pwr.pageOn p false

/-! ### Starting a wake (R288, R289) -/

/-- Whether the PLL runs. -/
def State.pllRuns (s : State) : Bool := s.pwr.divisor == 0

/-- The sequence goes on past the last page: to the source check, or straight to the domains if the PLL runs. A wake checks the source
afresh where the PLL runs on the limp oscillator (R278, R289). -/
def State.wakePastPages (s : State) (w : Wake) : State :=
  let skip := s.pllRuns && (w.runSet || s.fld Reg.CLK_STATUS Fld.CLK_STATUS_SRC == 0)
  { s with pwr := { s.pwr with wake := some { w with pages := [], phase := if skip then .domains else .xtal } } }

/-- The pages of an attempt are turned on from the first one. -/
def State.wakePages (s : State) (w : Wake) (ps : List Nat) : State :=
  match ps with
  | [] => s.wakePastPages w
  | p :: _ => { s with pwr := { s.pwr with wake := some { w with pages := ps, phase := .page } } }.pageTurnOn p

/-- A wake begins toward the target set (R289). -/
def State.wakeBegin (s : State) (target : Nat) : State :=
  let from_ := s.pwrState
  let s := (s.setPwrState 6).raise Reg.PWR_STATUS Fld.PWR_STATUS_BUSY
  let s := s.setReg Reg.PWR_WAKE_CAUSE s.pwr.latched
  let s := { s with pwr := { s.pwr with latched := 0, xtalOff := false } }.disarm .tetherRetry
  s.wakePages { target, from_, xtalAt := s.ck } (s.pagesFor target)

/-- A wake source qualifies: bit `b` of PWR_WAKE_CAUSE, in the states it acts in (R288). One that comes in the very cycle of an entry whose
wake another source has begun has qualified during that entry too, and shows beside it (log entry 58). -/
def State.wakeSource (s : State) (b : Nat) (states : List Nat) : State :=
  let enabled := decide (5 ≤ b) || (Fld.PWR_WAKE_EN_EN.bit b).on (s.reg Reg.PWR_WAKE_EN)
  if !enabled then s
  else match s.pwr.wake with
    | none =>
      if states.contains s.pwrState then { s with pwr := { s.pwr with latched := s.pwr.latched ||| oneBit b } }.wakeBegin s.runSet
      else s
    | some w =>
      if states.contains w.from_ && !w.runSet && s.pwr.entryAt == some s.ck then
        s.setReg Reg.PWR_WAKE_CAUSE (s.reg Reg.PWR_WAKE_CAUSE ||| oneBit b)
      else s

end Sys2Proof.Machine
end

