-- ==== Sys2Proof/Machine/HostRow.lean ====
section
/-! DEFINITION. Rows that only the host port can send: when the port executes a transaction, and what it does with such a row; the
commands UNFREEZE and LOG_CLEAR (spec/02, R34, R51; spec/12, R288; spec/13, R306, R308). -/

namespace Sys2Proof.Machine

/-- Whether a fall of HCSn is a wake source now: in STANDBY, HIBERNATE and WAKE_FAIL, where PWR_WAKE_EN enables it and VIO is there (R288, R329). -/
def State.hcsnWakes (s : State) : Bool :=
  s.pwr.vio && [2, 3, 7].contains s.pwrState && (Fld.PWR_WAKE_EN_EN.bit 3).on (s.reg Reg.PWR_WAKE_EN)

/-- Whether the host port executes a transaction: CORE is on (R34), VIO is there (R329), and the fall of HCSn that opens it does not wake the
part (R288). -/
def State.hostLive (s : State) : Bool := s.on .core && s.pwr.vio && !s.hcsnWakes

/-- HCSn falls: a wake begins where it is a source (R34, R288). -/
def State.hcsnFalls (s : State) : State := s.when s.pwr.vio fun s => s.wakeSource 3 [2, 3, 7]

/-- The host port does not answer: HMISO sends nothing (R34, R329). -/
def State.hostMute (s : State) : State := { s with hostData := [], hostStat := none }

/-- A command that only the host port can send, the write of register `a`: a transaction of its own (R51), not executed while the host port
is not live, where the fall of HCSn may wake the part (R34, R288, R329), refused where the register cannot be reached (R38) or where it would
change a G field (`g`) under the guard lock (R51). DEDUCED, log entry 72. -/
def State.hostRow (s : State) (a : Nat) (g : Bool) (f : State → State) : State :=
  if !s.hostLive then s.when s.hcsnWakes State.hcsnFalls
  else
    let s := s.hostBegin
    let c := if !s.reachable a then HostCode.domainOff else if g && s.locked then .guardLock else .ok
    if c = .ok then (s.gRow a f).settle.hostSends [] false 0 false
    else ((s.answerAt a a c).faultAt .write 2 c a).settle.hostSends [] false c.num false

/-- UNFREEZE. -/
def execLogUnfreeze (s : State) : Host.Outcome State Fault Refusal := (s.hostRow Reg.LOG_CTL false State.unfreeze).done

/-- LOG_CLEAR. -/
def execLogClear (s : State) : Host.Outcome State Fault Refusal := (s.hostRow Reg.LOG_CLEAR false State.clearLog).done

end Sys2Proof.Machine
end

