-- ==== Sys2Proof/Machine/Spool.lean ====
section
/-! DEFINITION. The spool SRAM and the four Spools (R93 to R97). -/

namespace Sys2Proof.Machine

/-! ### The spool SRAM -/

/-- A byte of the spool SRAM at a host address; one that nothing has written since CORE powered up is not defined (R93). -/
def State.sramByte (s : State) (a : Nat) : Byte := (lookupKey s.sram a).getD (Config.sramByte s.sramEpoch a)

/-- A byte stored in the spool SRAM. -/
def State.setSramByte (s : State) (a : Nat) (b : Byte) : State := { s with sram := insertKey s.sram a b }

/-- Bytes stored from address `a` upward. -/
def State.setSramBytes (s : State) (a : Nat) : List Byte → State
  | [] => s
  | b :: bs => (s.setSramByte a b).setSramBytes (a + 1) bs

/-- `n` bytes from address `a`, little-endian, as a number (R4). -/
def State.sramLoad (s : State) (a n : Nat) : Nat := leNat ((List.range n).map fun i => s.sramByte (a + i))

/-! ### Spool geometry -/

/-- Bytes of an entry of Spool `k`. -/
def spoolEntryLen (k : Nat) : Nat := if k = 3 then 32 else 16

/-- SPOOL_SIZE.LOG2 as it acts: 4 to 16. -/
def spoolLog2 (x : Nat) : Nat := clampNat 4 16 x

/-- The region of a spool: 2^LOG2 entries and their tag bytes. -/
def spoolRegion (k log2 : Nat) : Nat := 2 ^ log2 * spoolEntryLen k + 2 ^ log2 / 8

/-- Whether spool `k` is enabled. -/
def State.spoolOn (s : State) (k : Nat) : Bool := s.on .core && s.flag (Reg.SPOOL_CTL k) Fld.SPOOL_CTL_EN

/-- The fill, (WP − RP) mod 2^32 (R94). -/
def State.spoolFill (s : State) (k : Nat) : Nat := (s.reg (Reg.SPOOL_WP k) - s.reg (Reg.SPOOL_RP k)).toNat

/-- The watermark in entries; 0 acts as 1 (R97). -/
def State.spoolMark (s : State) (k : Nat) : Nat := max 1 (s.fld (Reg.SPOOL_WM k) Fld.SPOOL_WM_LEVEL)

/-- The base and LOG2 sampled at the enable (R93). -/
def State.spoolGeom (s : State) (k : Nat) : Nat × Nat := vget s.spoolSet k (0, 4)

/-- Whether two regions overlap. -/
def overlap (a n b m : Nat) : Bool := decide (a < b + m) && decide (b < a + n)

/-- Whether an enable of spool `k` is refused (R93). -/
def State.spoolRefuses (s : State) (k : Nat) : Bool :=
  let base := s.fld (Reg.SPOOL_BASE k) Fld.SPOOL_BASE_ADDR
  let log2 := spoolLog2 (s.fld (Reg.SPOOL_SIZE k) Fld.SPOOL_SIZE_LOG2)
  let len := spoolRegion k log2
  base % 64 != 0 || decide (base < 0x800000) || decide (0xC00000 < base + len) ||
    (List.range 4).any fun j => j != k && s.flag (Reg.SPOOL_CTL j) Fld.SPOOL_CTL_EN &&
      overlap base len (s.spoolGeom j).1 (spoolRegion j (s.spoolGeom j).2)

/-- SPOOL_CTL.EN of spool `k` rises: set up, or refused with CFG_ERR (R93). -/
def State.spoolEnable (s : State) (k : Nat) : State :=
  if s.spoolRefuses k then
    ((s.lower (Reg.SPOOL_CTL k) Fld.SPOOL_CTL_EN).raise (Reg.SPOOL_STATUS k) Fld.SPOOL_STATUS_CFG_ERR).raise
      (Reg.SPOOL_EVENT k) Fld.SPOOL_EVENT_CFG_ERR
  else
    let s := { s with spoolSet := vset s.spoolSet k (s.fld (Reg.SPOOL_BASE k) Fld.SPOOL_BASE_ADDR,
      spoolLog2 (s.fld (Reg.SPOOL_SIZE k) Fld.SPOOL_SIZE_LOG2)) }
    ((s.raise (Reg.SPOOL_CTL k) Fld.SPOOL_CTL_EN).setReg (Reg.SPOOL_WP k) (s.reg (Reg.SPOOL_RP k))).lower
      (Reg.SPOOL_STATUS k) Fld.SPOOL_STATUS_CFG_ERR

/-- SPOOL_LOST counts one entry (R96, R299). -/
def State.spoolLose (s : State) (k : Nat) : State :=
  s.count (Reg.SPOOL_LOST k) (Reg.SPOOL_EVENT k) Fld.SPOOL_EVENT_CTR_SAT 1

/-- WM sets if the fill is at least the watermark (R97). -/
def State.spoolWatch (s : State) (k : Nat) : State :=
  s.when (s.spoolMark k ≤ s.spoolFill k) fun s => s.raise (Reg.SPOOL_EVENT k) Fld.SPOOL_EVENT_WM

/-- The bytes and the tag bit of entry WP, and WP advanced (R95). -/
def State.spoolPut (s : State) (k : Nat) (bytes : List Byte) (tag : Bool) : State :=
  let (base, log2) := s.spoolGeom k
  let wp := s.reg (Reg.SPOOL_WP k)
  let p := wp.toNat % 2 ^ log2
  let s := s.setSramBytes (base + p * spoolEntryLen k) (sliceBytes bytes 0 (spoolEntryLen k))
  let ta := base + 2 ^ log2 * spoolEntryLen k + p / 8
  let old := s.sramByte ta
  let bit : Byte := BitVec.ofNat 8 (2 ^ (p % 8))
  let s := s.setSramByte ta (if tag then old ||| bit else old &&& ~~~bit)
  s.setReg (Reg.SPOOL_WP k) (wp + 1)

/-- An entry reaches the engine of spool `k` (R95 to R97); `tag` is the TB_VALID of its TIME. -/
def State.spoolWrite (s : State) (k : Nat) (bytes : List Byte) (tag : Bool) : State :=
  if !s.spoolOn k then s
  else if vget s.spoolRst k false then s.spoolLose k
  else if 2 ^ (s.spoolGeom k).2 ≤ s.spoolFill k then
    let s := (s.spoolLose k).raise (Reg.SPOOL_EVENT k) Fld.SPOOL_EVENT_OVERFLOW
    if s.flag (Reg.SPOOL_CTL k) Fld.SPOOL_CTL_POLICY then (s.spoolPut k bytes tag).spoolWatch k else s.spoolWatch k
  else (s.spoolPut k bytes tag).spoolWatch k

/-- SPOOL_ENABLE: EN of spool `k` is written from 0 to 1; the guard lock refuses a change of EN (R51). -/
def execSpoolEnable (k : SpoolId) (s : State) : Host.Outcome State Fault Refusal :=
  let off := !s.flag (Reg.SPOOL_CTL k) Fld.SPOOL_CTL_EN
  (s.hostRow (Reg.SPOOL_CTL k) off fun s => s.when off fun s => s.spoolEnable k).done

end Sys2Proof.Machine
end

