-- ==== Sys2Proof/Machine/LaneQueue.lean ====
section
/-! DEFINITION. Lanes seen from outside: their states, the queue of activations, and what falls due (R174, R175, R178). -/

namespace Sys2Proof.Machine

/-- LANE_STATUS.STATE of lane `n`: 0 STOPPED, 1 RUN, 2 HOLD, 3 FAULT. -/
def State.laneState (s : State) (n : Nat) : Nat := s.fld (Reg.LANE_STATUS n) Fld.LANE_STATUS_STATE

/-- Whether lane `n` has activations: RUN or HOLD (R178). -/
def State.laneActive (s : State) (n : Nat) : Bool := s.laneState n == 1 || s.laneState n == 2

/-- A lane's state changes; every change sets LANE_EVENT.STATE (R178). -/
def State.setLaneState (s : State) (n st : Nat) : State :=
  if s.laneState n = st then s
  else (s.setFld (Reg.LANE_STATUS n) Fld.LANE_STATUS_STATE st).raise (Reg.LANE_EVENT n) Fld.LANE_EVENT_STATE

/-- Blocks in the chain of lane `n`: 1 to 12. -/
def State.laneNblk (s : State) (n : Nat) : Nat := clampNat 1 12 (s.fld (Reg.LANE_CFG n) Fld.LANE_CFG_NBLK)

/-- TYPE of a slot. -/
def State.blkType (s : State) (n b : Nat) : Nat := s.fld (Reg.BLK_CFG n b) Fld.BLK_CFG_TYPE

/-- OPT of a slot. -/
def State.blkOpt (s : State) (n b : Nat) : Nat := s.fld (Reg.BLK_CFG n b) Fld.BLK_CFG_OPT

/-- A slot's block state. -/
def Lane.block (l : Lane) (b : Nat) : Blk := vget l.blk b {}

/-- A lane with one block's state replaced. -/
def Lane.setBlock (l : Lane) (b : Nat) (x : Blk) : Lane := { l with blk := vset l.blk b x }

/-- Parameter `j` in force for slot `b` of lane `n` (R182). -/
def State.blkParam (s : State) (n b j : Nat) : Word := nth ((s.lane n).block b).params j 0

/-- The queue with an activation of lane `n` that falls due now: after those due earlier, and after those of lower lanes due now (R175). -/
def State.actJoin (s : State) (n : Nat) : List Nat :=
  let before (m : Nat) : Bool := decide ((s.lane m).dueAt < s.ck) || decide (m < n)
  s.actQueue.takeWhile before ++ n :: s.actQueue.dropWhile before

/-- An activation of lane `n` falls due: it waits in the queue, or is dropped as an overrun if one already waits (R175). -/
def State.laneDue (s : State) (n : Nat) : State :=
  if !(s.on .core && s.laneActive n) then s
  else if s.actQueue.contains n then
    (s.count (Reg.LANE_OVERRUN_COUNT n) (Reg.LANE_EVENT n) Fld.LANE_EVENT_CTR_SAT 1).raise (Reg.LANE_EVENT n)
      Fld.LANE_EVENT_OVERRUN
  else { s.setLane n { s.lane n with dueAt := s.ck } with actQueue := s.actJoin n }

/-- Whether lane `n` is activated by deliveries to an SRC of this kind naming this source (R174). -/
def State.laneListens (s : State) (n kind src : Nat) (sameLane : Bool) : Bool :=
  let b := s.fld (Reg.LANE_CFG n) Fld.LANE_CFG_TRIG_BLK
  s.fld (Reg.LANE_CFG n) Fld.LANE_CFG_TRIG == 1 && s.blkType n b == 1 && s.blkOpt n b % 8 == kind &&
    (if sameLane then (s.blkParam n b 0).toNat / 16 == src else (s.blkParam n b 0).toNat == src)

/-- A new value is delivered to the SRC blocks of a kind: every listening lane falls due, in ascending lane number. -/
def State.deliver (s : State) (kind src : Nat) : State :=
  iterate 16 (fun n s => s.when (s.laneListens n kind src (kind == 3)) fun s => s.laneDue n) s

/-- At loop tick `k` every lane with a PERIOD trigger whose count comes up falls due (R174). -/
def State.periodDue (s : State) (k : Nat) : State :=
  iterate 16 (fun n s =>
    let per := clampNat 1 10000 (s.fld (Reg.LANE_PERIOD n) Fld.LANE_PERIOD_PERIOD_MS)
    let ph := s.fld (Reg.LANE_PERIOD n) Fld.LANE_PERIOD_PHASE_MS % per
    s.when (s.fld (Reg.LANE_CFG n) Fld.LANE_CFG_TRIG != 1 && (k + per - ph) % per == 0) fun s => s.laneDue n) s

/-- Every lane in RUN enters HOLD by a guard action, also in the middle of an activation (R50, R178, R179). -/
def State.guardHold (s : State) : State :=
  iterate 16 (fun n s => s.when (s.on .core && s.laneState n == 1) fun s =>
    ((s.setLaneState n 2).raise (Reg.LANE_STATUS n) Fld.LANE_STATUS_HOLD_CAUSE).setLane n
      { s.lane n with caught := s.actQueue.contains n }) s

end Sys2Proof.Machine
end

