-- ==== Sys2Proof/Machine/Measure.lean ====
section
/-! DEFINITION. The reference and its buffer, excitation, the mains tracker, frame lengths, the input protection, and what
holds of a slice and a channel (spec/03). -/

namespace Sys2Proof.Machine

/-! ### Reference (R68 to R70) -/

/-- MEAS works: powered, with CK at MD. -/
def State.measRuns (s : State) : Bool := s.runs .md

/-- MD's Tether island works: Tether mode, with CK at MD (R17, R292). -/
def State.islandRuns (s : State) : Bool := s.inTether && !s.ckIsLost .md

/-- REF_READY. -/
def State.refReady (s : State) : Bool := s.flag Reg.REF_STATUS Fld.REF_STATUS_REF_READY

/-- REF_FORCE. -/
def State.refForce (s : State) : Bool := s.flag Reg.REF_CTL Fld.REF_CTL_REF_FORCE

/-- Whether CK comes from the limp clock: CLK_STATUS.SRC LIMP_PLL or LIMP_DIV (R23). -/
def State.limp (s : State) : Bool := decide (2 ≤ s.fld Reg.CLK_STATUS Fld.CLK_STATUS_SRC)

/-- Conversions may start: REF_READY, or REF_FORCE (R70). -/
def State.refUsable (s : State) : Bool := s.refReady || s.refForce

/-- EXC_STATUS.ON as the modes in force and the reference give it (R64, R70). -/
def State.excDrive (s : State) : State :=
  if !s.on .excite then s
  else s.setFld Reg.EXC_STATUS Fld.EXC_STATUS_ON (bitsOf ((List.range 4).map fun g =>
    let m := vget s.excMode g 0
    m == 1 || (m == 2 && s.refUsable)))

/-- The integration of the MD island carries DIRTY (R23, R60, R292). -/
def State.tetherDirty (s : State) : State :=
  { s with tether := { s.tether with conv := s.tether.conv.map fun c => { c with dirty := true } } }

/-- Every conversion in progress carries DIRTY from now on (R69, R60). -/
def State.dirtyAll (s : State) : State :=
  { s with slices := s.slices.map fun x => { x with conv := x.conv.map fun c => { c with dirty := true } } }

/-- A settle count starts: BUF_EN has risen with EXCITE on, or EXCITE with BUF_EN set (R68). -/
def State.refStart (s : State) : State :=
  if !(s.on .excite && s.on .meas && s.flag Reg.REF_CTL Fld.REF_CTL_BUF_EN) then s
  else
    let s := (s.raise Reg.REF_STATUS Fld.REF_STATUS_SETTLING).lower Reg.REF_STATUS Fld.REF_STATUS_BUF_FAULT
    { s with refSince := s.ck }.arm .refSettle (msCk ((s.fld Reg.REF_CTL Fld.REF_CTL_SETTLE + 1) * 10))

/-- REF_READY falls: REF_LOST, DIRTY on what integrates, and the offline run has lost its reference (R69, R102). -/
def State.refFall (s : State) : State :=
  if !s.refReady then s
  else
    let s := (s.lower Reg.REF_STATUS Fld.REF_STATUS_REF_READY).raise Reg.CONV_EVENT Fld.CONV_EVENT_REF_LOST
    ({ s.dirtyAll with reel := { s.reel with refLost := s.reel.refLost || s.reel.run == some true } }).excDrive

/-- The buffer is disabled, or EXCITE begins to switch off: a settle count ends and REF_READY clears (R69). -/
def State.refStop (s : State) : State :=
  (s.disarm .refSettle |>.lower Reg.REF_STATUS Fld.REF_STATUS_SETTLING).refFall

/-- The settle count ends (R68, R69). -/
def State.refSettled (s : State) (inTol : Bool) : State :=
  let s := s.lower Reg.REF_STATUS Fld.REF_STATUS_SETTLING
  if inTol then
    ((s.raise Reg.REF_STATUS Fld.REF_STATUS_REF_READY).raise Reg.CONV_EVENT Fld.CONV_EVENT_REF_UP).excDrive
  else (s.raise Reg.REF_STATUS Fld.REF_STATUS_BUF_FAULT).raise Reg.CONV_EVENT Fld.CONV_EVENT_REF_LOST

/-- The buffer leaves tolerance for 50 µs: judged only while REF_READY is 1 (R69). -/
def State.bufFault (s : State) : State :=
  if s.refReady then s.refFall.raise Reg.REF_STATUS Fld.REF_STATUS_BUF_FAULT else s

/-- BUF_EN: the enable bit is written from 0 to 1. -/
def execBufEn (s : State) : Host.Outcome State Fault Refusal :=
  let off := !s.flag Reg.REF_CTL Fld.REF_CTL_BUF_EN
  (s.hostRow Reg.REF_CTL off fun s => (s.overLate Reg.REF_CTL Fld.REF_CTL_BUF_EN.mask).when (s.measRuns && off) fun s =>
    (s.raise Reg.REF_CTL Fld.REF_CTL_BUF_EN).refStart).done

/-- REF_SETTLE_END. -/
def execRefSettleEnd (inTol : Bool) (s : State) : Host.Outcome State Fault Refusal :=
  (s.fall .refSettle fun s => s.refSettled inTol).done

/-- BUF_FAULT. -/
def execBufFault (s : State) : Host.Outcome State Fault Refusal := (s.when s.measRuns State.bufFault).done

/-! ### Excitation (R64 to R66) -/

/-- EXC_OPEN: a CURRENT source out of compliance (R65). -/
def execExcOpen (g : GroupId) (s : State) : Host.Outcome State Fault Refusal :=
  (s.when (s.measRuns && s.on .excite && vget s.excMode g 0 == 1) fun s =>
    (s.raise Reg.EXC_STATUS (Fld.EXC_STATUS_OPEN.bit g)).raise Reg.CONV_EVENT Fld.CONV_EVENT_EXC_FAULT).done

/-- EXC_LIMIT: a BRIDGE source at its current limit (R65); a source that is not driving has none (R70). -/
def execExcLimit (g : GroupId) (s : State) : Host.Outcome State Fault Refusal :=
  (s.when (s.measRuns && s.on .excite && vget s.excMode g 0 == 2 && (Fld.EXC_STATUS_ON.bit g).on (s.reg Reg.EXC_STATUS))
    fun s => (s.raise Reg.EXC_STATUS (Fld.EXC_STATUS_LIMIT.bit g)).raise Reg.CONV_EVENT Fld.CONV_EVENT_EXC_FAULT).done

/-- Whether the channel's group reverses its polarity by frame (R66, R83). -/
def State.groupReverses (s : State) (ch : Nat) : Bool :=
  decide (ch < 16) && s.on .excite && s.flag (Reg.EXC_CTL (ch / 4)) Fld.EXC_CTL_REVERSE

/-- Whether a channel's polarity in force is the reversed one: EXC_STATUS.REVERSED of its group, since the last boundary (R66). -/
def State.polarity (s : State) (ch : Nat) : Bool :=
  decide (ch < 16) && s.on .excite && (Fld.EXC_STATUS_REVERSED.bit (ch / 4)).on (s.reg Reg.EXC_STATUS)

/-- Whether the frame in progress is odd (R66). -/
def State.frameOdd (s : State) : Bool := s.seq.frameSeen && s.seq.frameNo % 2 == 1

/-- At a frame boundary the modes come into force and the polarity of reversing groups follows the frame's parity (R66). -/
def State.excBoundary (s : State) : State :=
  if !s.on .excite then s
  else
    let modes := (Vector.range 4).map fun g => let m := s.fld (Reg.EXC_CTL g) Fld.EXC_CTL_MODE; if m = 3 then 0 else m
    let kept := bitsOf ((List.range 4).map fun g => vget modes g 0 == vget s.excMode g 0)
    let s' := { s with excMode := modes }
    let s' := s'.setFld Reg.EXC_STATUS Fld.EXC_STATUS_OPEN (s.fld Reg.EXC_STATUS Fld.EXC_STATUS_OPEN &&& kept)
    let s' := s'.setFld Reg.EXC_STATUS Fld.EXC_STATUS_LIMIT (s.fld Reg.EXC_STATUS Fld.EXC_STATUS_LIMIT &&& kept)
    let s' := s'.setFld Reg.EXC_STATUS Fld.EXC_STATUS_REVERSED (bitsOf ((List.range 4).map fun g =>
      s.frameOdd && s.flag (Reg.EXC_CTL g) Fld.EXC_CTL_REVERSE))
    s'.excDrive

/-! ### Mains tracker and frame lengths (R56 to R60) -/

/-- Whether a period lies within the tracking range, 45 to 66 Hz (R57). -/
def periodOk (p : Nat) : Bool := decide (2978909 ≤ p) && decide (p ≤ 4369066)

/-- An edge of one source at elapsed time `now`; `mul` scales the source's period to a mains period (R57). DESIGN CHOICE, log entry 65:
of two equally long runs of one second the first stays the longest (R58); log entry 73: M counts each period of the source, a doubled ripple
period as one, and S is then twice the time from the first edge to the last. -/
def Track.edge (t : Track) (now mul : Nat) : Track :=
  match t.last with
  | none => { t with last := some now, runLen := 0, runSpan := 0 }
  | some e =>
    let p := now - e
    if periodOk (mul * p) then
      let n := t.runLen + 1
      let sp := t.runSpan + mul * p
      let t := { t with last := some now, runLen := n, runSpan := sp }
      if t.bestM < n then { t with bestM := n, bestS := sp } else t
    else { t with last := some now, runLen := 0, runSpan := 0 }

/-- A new second: a run lies within its second, so it begins at the first edge of that second (R58 and its example: 50 edges, 49
periods). -/
def Track.fresh (_ : Track) : Track := {}

/-- The run the second just ended gives: M, S and whether it came from ripple, by MAINS_CTL.SRC; automatic takes ripple while
MAINS_SYNC gives no accepted periods (R57, R58). -/
def State.mainsRun (s : State) : Nat × Nat × Bool :=
  let src := s.fld Reg.MAINS_CTL Fld.MAINS_CTL_SRC
  let sy := (s.mains.sync.bestM, s.mains.sync.bestS, false)
  let ri := (s.mains.ripple.bestM, s.mains.ripple.bestS, true)
  if src = 1 then sy else if src = 2 then ri
  else if s.mains.sync.bestM = 0 then ri else sy

/-- The nominal mains period in CK cycles (R59). -/
def State.nominalPeriod (s : State) : Nat := if s.flag Reg.MAINS_CTL Fld.MAINS_CTL_NOMINAL then 3276800 else 3932160

/-- The frame length of `n` PLC: floor((n × S + floor(M / 2)) / M), or `n` nominal periods before the first update (R58). -/
def State.mainsLen (s : State) (n : Nat) : Nat :=
  if s.mains.m = 0 then n * s.nominalPeriod else (n * s.mains.s + s.mains.m / 2) / s.mains.m

/-- The length of the frame that starts now, in CK cycles, by FRAME_CTL (R56). -/
def State.frameLen (s : State) : Nat :=
  if s.flag Reg.FRAME_CTL Fld.FRAME_CTL_MODE then
    clampNat 1 200 (s.fld Reg.FRAME_CTL Fld.FRAME_CTL_FIXED_MS) * 196608
  else s.mainsLen (clampNat 1 10 (s.fld Reg.FRAME_CTL Fld.FRAME_CTL_NPLC))

/-- The second ends: an update from a run of at least 30 periods, or one more second without one (R58, R59). DESIGN CHOICE, log entry 73:
NO_SIGNAL is judged on the longest run M, not on every accepted period of the second. -/
def State.mainsSecond (s : State) : State :=
  let (m, sp, rip) := s.mainsRun
  let locked := s.flag Reg.MAINS_STATUS Fld.MAINS_STATUS_LOCKED
  let fresh : State := { s with mains := { s.mains with sync := s.mains.sync.fresh, ripple := s.mains.ripple.fresh } }
  if 30 ≤ m then
    let s := { fresh with mains := { fresh.mains with m := m, s := sp, missed := 0 } }
    let s := s.setReg Reg.MAINS_PERIOD (BitVec.ofNat 32 (roundDiv (256 * sp) m).toNat)
    let s := s.setFld Reg.MAINS_STATUS Fld.MAINS_STATUS_RUN m
    let s := (s.setFlag Reg.MAINS_STATUS Fld.MAINS_STATUS_USING_RIPPLE rip).lower Reg.MAINS_STATUS Fld.MAINS_STATUS_NO_SIGNAL
    let s := s.raise Reg.MAINS_STATUS Fld.MAINS_STATUS_LOCKED
    s.when (!locked) fun s => s.raise Reg.CONV_EVENT Fld.CONV_EVENT_MAINS_LOCK
  else
    let n := fresh.mains.missed + 1
    let s := { fresh with mains := { fresh.mains with missed := if locked then n else 0 } }
    let s := s.raise Reg.MAINS_STATUS Fld.MAINS_STATUS_NO_SIGNAL
    s.when (locked && decide (3 ≤ n)) fun s =>
      ({ s with mains := { s.mains with missed := 0 } }.lower Reg.MAINS_STATUS Fld.MAINS_STATUS_LOCKED).raise
        Reg.CONV_EVENT Fld.CONV_EVENT_MAINS_LOST

/-- The MD island's tracker in Tether mode: the same arithmetic on MAINS_SYNC alone, with no register to show it in (R292). -/
def State.mainsSecondTether (s : State) : State :=
  let t := s.tether.mains.sync
  let mn := { s.tether.mains with sync := t.fresh }
  { s with tether := { s.tether with mains := if 30 ≤ t.bestM then { mn with m := t.bestM, s := t.bestS } else mn } }

/-- The number of the second that TIME is in: floor(TIME / 12 288 000) (R58). -/
def State.secondNo (s : State) : Nat := s.time.toNat / 12288000

/-- TIME has passed, been loaded or wrapped into another second: each tracker closes the second it was in (R58, R292). -/
def State.closeSecond (s : State) : State :=
  let s := s.when (s.secondNo != s.mains.second) fun s =>
    let t := s.when s.measRuns State.mainsSecond
    { t with mains := { t.mains with second := s.secondNo } }
  s.when (s.secondNo != s.tether.mains.second) fun s =>
    let t := s.when s.islandRuns State.mainsSecondTether
    { t with tether := { t.tether with mains := { t.tether.mains with second := s.secondNo } } }

/-- Whether a tracker that works is still in a second TIME has left. -/
def State.secondDue (s : State) : Bool :=
  s.measRuns && s.secondNo != s.mains.second || s.islandRuns && s.secondNo != s.tether.mains.second

/-- MAINS_SECOND_UPDATE: time passes up to the tick that begins the next second, unless TIME has left the second already (R58). -/
def execMainsSecondUpdate (s : State) : Host.Outcome State Fault Refusal :=
  (if !(s.measRuns || s.islandRuns) then s
   else
    let s := if s.secondDue then s else s.passTo (s.ckAtTick (12288000 - s.time.toNat % 12288000))
    s.closeSecond).done

/-- MAINS_EDGE, `wait` CK cycles from now; a second that ends before it closes first (R58). MAINS_SYNC edges of the other kind, or while
the MEAS pads are held (R284), are not seen; the ripple period is doubled unless RIPPLE_DIV says it is at the line frequency (R57). In
Tether mode the island counts divided cycles from MAINS_SYNC alone, ahead of the hold latch, whatever MEAS does beside it in a wake (R284,
R292, R297). -/
def execMainsEdge (src : MainsSrc) (rising : Bool) (wait : Nat) (s : State) : Host.Outcome State Fault Refusal :=
  let s := (s.pass wait).closeSecond
  (match src with
    | .sync =>
      let now := s.ck / s.cycleLen * s.cycleLen
      s.when (rising != s.flag Reg.MAINS_CTL Fld.MAINS_CTL_EDGE) fun s =>
        let held := (Fld.PAD_STATUS_DOMAIN.bit 1).on (s.reg Reg.PAD_STATUS)
        let s := s.when (s.measRuns && !held) fun s => { s with mains := { s.mains with sync := s.mains.sync.edge now 1 } }
        s.when s.islandRuns fun s =>
          { s with tether := { s.tether with mains := { s.tether.mains with sync := s.tether.mains.sync.edge now 1 } } }
    | .ripple =>
      let mul := if s.flag Reg.MAINS_CTL Fld.MAINS_CTL_RIPPLE_DIV then 1 else 2
      if s.measRuns then { s with mains := { s.mains with ripple := s.mains.ripple.edge s.ck mul } } else s).done

/-! ### Channels and slices (R62, R63, R76) -/

/-- Channel IDs a list entry may name (R77). -/
def channelOk (c : Nat) : Bool := decide (c ≤ 0x13) || (decide (0x40 ≤ c) && decide (c ≤ 0x4C))

/-- Whether a channel is one of the diagnostic muxes' (R76). -/
def internalCh (c : Nat) : Bool := decide (0x40 ≤ c)

/-- CHAN_CFG.GAIN as it acts: internal channels and the ±10 V range at G = 1 (R63). -/
def State.chanGain (s : State) (c : Nat) : Nat :=
  if internalCh c then 0 else min 4 (s.fld (Reg.CHAN_CFG c) Fld.CHAN_CFG_GAIN)

/-- Whether the ±10 V divider is in: AUX channels with DIV10 (R63). -/
def State.chanDiv10 (s : State) (c : Nat) : Bool :=
  decide (0x10 ≤ c) && decide (c ≤ 0x13) && s.flag (Reg.CHAN_CFG c) Fld.CHAN_CFG_DIV10

/-- REEL_STATUS.OFFLINE: the slice the Reel holds offline. -/
def State.offline (s : State) : Nat := s.fld Reg.REEL_STATUS Fld.REEL_STATUS_OFFLINE

/-- Whether entries of the injected list with a valid channel wait for a slice. -/
def State.injLeft (s : State) : Bool := s.inj.pool.any fun e => channelOk (nth s.inj.list e 0)

/-- SLICE_STATUS.ROLE (spec/03). DESIGN CHOICE, log entry 65: a slice whose conversion has clamped and waits for its frame's end shows
4, recovery hold. -/
def State.sliceRole (s : State) (i : Nat) : Nat :=
  let x := s.slice i
  if s.inTether then (if i = 4 then 5 else 0)
  else if s.offline = i then 3
  else match x.conv with
    | some c => if c.clamp.isSome then 4 else if c.inj then 2 else 1
    | none => if x.injRole && (x.injNext.isSome || s.injLeft) then 2 else if x.holding then 4 else 0

/-- The crosspoint row of a channel: 20 or 21 for an internal one, whichever mux the other slices leave or share (R62). -/
def State.rowFor (s : State) (i ch : Nat) : Nat :=
  if !internalCh ch then ch
  else
    let others := (List.range 5).filterMap fun j => if j = i then none else (s.slice j).conv.map fun c => (c.ch, (s.slice j).row)
    match others.find? (fun p => p.1 == ch) with
    | some (_, r) => r
    | none => if others.any (fun p => p.2 == 20) then 21 else 20

/-- Whether the muxes leave room for an internal channel on slice `i`: at most two convert at once (R62). -/
def State.muxFree (s : State) (i ch : Nat) : Bool :=
  !internalCh ch ||
    (let others := ((List.range 5).filterMap fun j => if j = i then none else
        match (s.slice j).conv with
        | some c => if internalCh c.ch && c.ch != ch then some c.ch else none
        | none => none).dedup
     decide (others.length < 2))

/-- A conversion's DIRTY at its start (R71): the hold cut short, REF_READY 0, or the limp clock. -/
def State.startsDirty (s : State) (short : Bool) : Bool := short || !s.refReady || s.limp

/-- CK cycles for which an injected conversion integrates: one PLC of the tracker, or TINT_MS (R85). -/
def State.injLen (s : State) : Nat :=
  if s.flag Reg.INJ_CTL Fld.INJ_CTL_MAINS then s.mainsLen 1 else clampNat 1 20 (s.fld Reg.INJ_CFG Fld.INJ_CFG_TINT_MS) * 196608

/-- A slice starts a conversion of a channel with the range, averaging and polarity in force (R63, R66, R92); an injected one ends after
its own length (R85), counted from `wait` CK cycles on: the start edge E + 24 of a boundary (R88, R72). DESIGN CHOICE, log entry 73: an
injected conversion that integrates across a change of polarity is negated by the polarity at its start (R67). -/
def State.startConv (s : State) (i ch entry half : Nat) (inj short : Bool) (wait : Nat) : State :=
  let x := s.slice i
  let c : Conv :=
    { ch, entry, inj, gain := s.chanGain ch, div10 := s.chanDiv10 ch,
      avgK := min 8 (s.fld (Reg.CHAN_AVG ch) Fld.CHAN_AVG_K), avgShift := min 8 (s.fld (Reg.CHAN_AVG ch) Fld.CHAN_AVG_SHIFT),
      half, due := if inj then s.ck + wait + s.injLen else 0, reversed := s.polarity ch, dirty := s.startsDirty short,
      clamp := if x.conducting then some x.overNeg else none }
  let s := s.setSlice i { x with conv := some c, row := s.rowFor i ch, injIdle := false }
  s.when x.conducting fun s =>
    (s.raise Reg.CONV_EVENT (Fld.CONV_EVENT_CLAMP.bit i)).count (Reg.CLAMP_COUNT i) Reg.CONV_EVENT Fld.CONV_EVENT_CTR_SAT 1

/-! ### Protection (R73, R74) -/

/-- CK cycles of the recovery hold (R74). -/
def holdLen : Nat := 39322

/-- The protection of slice `i` conducts: an integration stops with a clamp result due, and the hold pauses (R73, R74). -/
def State.conduct (s : State) (i : Nat) (neg : Bool) : State :=
  let x := s.slice i
  let left := if x.holding then (match s.dueOf (.recovery i) with | some d => d - s.ck | none => x.holdLeft) else holdLen
  let measuring := s.offline == i && s.reel.run == some true
  let open_ := match x.conv with | some c => c.clamp == none | none => measuring && !s.reel.clamped
  let s := s.disarm (.recovery i)
  let conv := x.conv.map fun c => { c with clamp := some (c.clamp.getD neg) }
  let s := s.setSlice i { x with conducting := true, overNeg := neg, holding := true, holdLeft := left, conv := conv }
  let s := s.when measuring fun s => { s with reel := { s.reel with clamped := true } }
  s.when open_ fun s =>
    (s.raise Reg.CONV_EVENT (Fld.CONV_EVENT_CLAMP.bit i)).count (Reg.CLAMP_COUNT i) Reg.CONV_EVENT Fld.CONV_EVENT_CTR_SAT 1

/-- The protection releases: the hold counts on from this cycle (R74). -/
def State.release (s : State) (i : Nat) : State :=
  let x := s.slice i
  if !x.conducting then s
  else (s.setSlice i { x with conducting := false }).arm (.recovery i) x.holdLeft

/-- The protection of S4 conducts in Tether mode: an integration of the island gives a clamp result, and the hold pauses (R73, R74, R292).
The hold counts divided cycles (R12, R24). -/
def State.islandClamp (s : State) (neg : Bool) : State :=
  let t := s.tether
  let left := if t.holding then (match s.dueOf .tetherHold with | some d => d - s.ck | none => t.holdLeft) else holdLen * s.cycleLen
  { s.disarm .tetherHold with
    tether := { t with clamped := some neg, holding := true, holdLeft := left,
                       conv := t.conv.map fun c => { c with clamp := some (c.clamp.getD neg) } } }

/-- The protection of S4 releases in Tether mode: the hold counts on from this cycle (R74). -/
def State.islandRelease (s : State) : State :=
  if s.tether.clamped.isNone then s
  else { s with tether := { s.tether with clamped := none } }.arm .tetherHold s.tether.holdLeft

/-- CLAMP: of a slice of MEAS, or of the MD island's S4. In the wake out of Tether mode S4 is the island's still (R297). -/
def execClamp (i : SliceId) (neg : Bool) (s : State) : Host.Outcome State Fault Refusal :=
  (if s.inTether && i == 4 then s.islandClamp neg else s.when s.measRuns fun s => s.conduct i neg).done

/-- CLAMP_RELEASE. -/
def execClampRelease (i : SliceId) (s : State) : Host.Outcome State Fault Refusal :=
  (if s.inTether && i == 4 then s.islandRelease else s.when s.measRuns fun s => s.release i).done

end Sys2Proof.Machine
end

