-- ==== Sys2Proof/Machine/Sequencer.lean ====
section
/-! DEFINITION. Results and averaging, the regular and the injected sequence (spec/03, R71, R72; spec/04, R77 to R92). -/

namespace Sys2Proof.Machine

/-! ### Counters of the sequencer -/

/-- An entry whose conversion is put off is counted (R74, R87). -/
def State.putOff (s : State) : State :=
  (s.count Reg.REQUEUE_COUNT Reg.SEQ_EVENT Fld.SEQ_EVENT_CTR_SAT 1).raise Reg.SEQ_EVENT Fld.SEQ_EVENT_REQUEUE

/-- An entry goes back for requeue dispatch, kept in entry order; counted (R74, R83, R87). -/
def State.requeue (s : State) (e ch : Nat) : State :=
  let q := s.seq.requeued
  let q := q.filter (fun p => decide (p.1 ≤ e)) ++ (e, ch) :: q.filter (fun p => decide (e < p.1))
  { s with seq := { s.seq with requeued := q } }.putOff

/-- A start is ignored while running (R80, R84). -/
def State.seqOverrun (s : State) : State :=
  (s.count Reg.TRIG_OVERRUN_COUNT Reg.SEQ_EVENT Fld.SEQ_EVENT_CTR_SAT 1).raise Reg.SEQ_EVENT Fld.SEQ_EVENT_OVERRUN

/-- A reversal conversion is discarded without its partner (R67). -/
def State.unpaired (s : State) : State := s.count Reg.EXC_UNPAIRED Reg.CONV_EVENT Fld.CONV_EVENT_CTR_SAT 1

/-- The held first half on slice `i` is discarded: counted now, or when its conversion is delivered (R67, R83). -/
def State.dropHalf (s : State) (i : Nat) : State :=
  let x := s.slice i
  match x.half with
  | some _ => (s.setSlice i { x with half := none }).unpaired
  | none =>
    match x.ended with
    | some c => if c.half = 1 then s.setSlice i { x with ended := some { c with half := 3 } } else s
    | none => s

/-- RUNNING. -/
def State.seqRunning (s : State) : Bool := s.flag Reg.SEQ_STATUS Fld.SEQ_STATUS_RUNNING

/-- Accumulators for which `p` holds are cleared; each non-empty sum discarded counts (R92). -/
def State.discardAccs (s : State) (p : Nat → Bool) : State :=
  let n := (s.accs.filter fun a => p a.ch && a.n != 0).length
  let s := { s with accs := s.accs.filter fun a => !p a.ch }
  if n = 0 then s
  else (s.count Reg.AVG_DISCARD_COUNT Reg.SEQ_EVENT Fld.SEQ_EVENT_CTR_SAT n).raise Reg.SEQ_EVENT Fld.SEQ_EVENT_AVG_DISCARD

/-- Whether a conversion that ended at a boundary has still to join the sum of channel `ch` that this boundary discards. -/
def State.closing (s : State) (ch : Nat) : Bool :=
  s.slices.toList.any fun x => match x.ended with | some c => c.closes && c.ch == ch | none => false

/-- A conversion of the frame just ended whose result has still to join a sum that `p` discards is marked so. -/
def Conv.close (p : Nat → Bool) (c : Conv) : Conv :=
  if !c.inj && c.avgK != 0 && (c.half == 0 || c.half == 2) && p c.ch then { c with closes := true } else c

/-- The sums of the channels for which `p` holds are discarded at a boundary; where a conversion of the frame just ended has still
to join such a sum, the sum goes once it has (R92; log entry 57). -/
def State.discardAt (s : State) (p : Nat → Bool) : State :=
  let s := { s with slices := s.slices.map fun (x : Slice) => { x with ended := x.ended.map (Conv.close p) } }
  s.discardAccs fun c => p c && !s.closing c

/-! ### Result words (R71, R72) -/

/-- Flags of two constituents together (R67, R72); the later clamp decides the sign. -/
def Flags.or (a b : Flags) : Flags :=
  { ovr := a.ovr || b.ovr, clamp := if b.clamp.isSome then b.clamp else a.clamp,
    dirty := a.dirty || b.dirty, calstale := a.calstale || b.calstale }

/-- The largest linear code (R55). -/
def codeMax : Int := 0x78000000

/-- The clamp code of a sign (R71). -/
def clampCode (neg : Bool) : Int := if neg then -0x80000000 else 0x7FFFFFFF

/-- Whether a code carries OVR (R71). -/
def codeOvr (w : Int) : Bool := decide (0x40000000 < w) || decide (w < -0x40000000)

/-- Whether the trims of slice `i` have been in force for longer than CAL_MAXAGE (R110). -/
def State.calStale (s : State) (i : Nat) : Bool :=
  let m := s.fld Reg.CAL_MAXAGE Fld.CAL_MAXAGE_SECONDS
  m != 0 && decide (secCk m < s.ck - (s.slice i).trimSince)

/-- The four words of a result (R71). -/
def resultWords (w0 : Int) (ch sl : Nat) (inj : Bool) (f : Flags) (num : BitVec 16) (t : BitVec 64) : List Word :=
  [ofInt32 w0,
   BitVec.ofNat 32 (ch * 0x1000000 + sl * 0x200000 + b2n inj * 0x100000 + b2n f.ovr * 0x80000 + b2n f.clamp.isSome * 0x40000 +
     b2n f.dirty * 0x20000 + b2n f.calstale * 0x10000 + num.toNat),
   lo32 t, hi32 t]

/-- The newest results with this channel's replaced. -/
def putNewest (l : List Newest) (x : Newest) : List Newest := x :: l.filter fun y => y.ch != x.ch

/-- A regular result, averaged or paired as it may be, goes to Spool 0 and to the lanes (R71, R72), over a link declared down
too, since R16 stops register accesses (the model's choice: log entry 87). -/
def State.deliverReg (s : State) (i : Nat) (c : Conv) (w0 : Int) (f : Flags) (t : BitVec 64) (v : Bool) (up : Int) : State :=
  let ws := resultWords w0 c.ch i false f s.seqReg t
  let s := { s with seqReg := s.seqReg + 1 }
  let s := s.spoolWrite 0 (ws.flatMap wordBytes) v
  let s := { s with newReg := putNewest s.newReg ⟨c.ch, nth ws 0 0, nth ws 1 0, t, v, c.gain, c.div10, up, s.ck⟩ }
  s.deliver 0 c.ch

/-- An injected result goes to Spool 1 and to the lanes (R84). -/
def State.deliverInj (s : State) (i : Nat) (c : Conv) (w0 : Int) (f : Flags) (t : BitVec 64) (v : Bool) : State :=
  let ws := resultWords w0 c.ch i true f s.seqInj t
  let s := { s with seqInj := s.seqInj + 1 }
  let s := s.spoolWrite 1 (ws.flatMap wordBytes) v
  let s := { s with newInj := putNewest s.newInj ⟨c.ch, nth ws 0 0, nth ws 1 0, t, v, c.gain, c.div10, 0, s.ck⟩ }
  s.deliver 1 c.ch

/-- The averaged W0 and flags of a full accumulator, and whether it saturated (R90, R91). -/
def averaged (sum : Int) (shift : Nat) (f : Flags) : Int × Flags × Bool :=
  match f.clamp with
  | some neg => (clampCode neg, { f with ovr := true }, false)
  | none =>
    let w := floorDiv sum (2 ^ shift)
    if codeMax < w then (codeMax, { f with ovr := true }, true)
    else if w < -codeMax then (-codeMax, { f with ovr := true }, true)
    else (w, { f with ovr := f.ovr || codeOvr w }, false)

/-- A regular result meets its channel's averager (R90). -/
def State.average (s : State) (i : Nat) (c : Conv) (w0 : Int) (f : Flags) (t : BitVec 64) (v : Bool) : State :=
  if c.avgK = 0 then s.deliverReg i c w0 f t v 0
  else
    let a := (s.accs.find? (fun a => a.ch == c.ch)).getD { ch := c.ch }
    let a := { a with sum := a.sum + w0, n := a.n + 1, flags := a.flags.or f }
    let rest := s.accs.filter fun x => x.ch != c.ch
    if a.n < 2 ^ c.avgK then
      let s := { s with accs := a :: rest }
      if c.closes && !s.closing c.ch then s.discardAccs fun x => x == c.ch else s
    else
      let (w, f', sat) := averaged a.sum c.avgShift a.flags
      let s := { s with accs := rest }
      let s := s.when sat fun s => s.raise Reg.SEQ_EVENT Fld.SEQ_EVENT_AVG_SAT
      s.deliverReg i c w f' t v ((c.avgK : Int) - (c.avgShift : Int))

/-! ### Starting and stopping the regular sequence (R80, R82) -/

/-- A start of the regular sequence (R80): ignored while running, refused without a reference (R70), else accepted. DESIGN CHOICE, log
entries 73 and 82: during the sequencer's reset and in STANDBY (R283) a start is ignored with no count and no event. -/
def State.seqTrigger (s : State) : State :=
  if !s.measRuns || !s.on .core || s.seq.inReset then s
  else if s.seqRunning then s.seqOverrun
  else if !s.refUsable then s.raise Reg.SEQ_STATUS Fld.SEQ_STATUS_REF_NOT_READY
  else
    let s := (s.discardAccs fun _ => true).lower Reg.SEQ_STATUS Fld.SEQ_STATUS_REF_NOT_READY
    { s.raise Reg.SEQ_STATUS Fld.SEQ_STATUS_RUNNING with
      seq := { s.seq with fresh := true, next := 0, list := [], requeued := [], deferred := [], stopReq := false } }

/-- SEQ_CTL.STOP: a running sequence stops at the next boundary (R82). -/
def State.seqStop (s : State) : State :=
  if s.measRuns && s.seqRunning then { s with seq := { s.seq with stopReq := true } } else s

/-- SINGLE ends when the last result is delivered (R79); the sequence has stopped, so what sums remain are discarded (R92). DESIGN CHOICE,
log entry 73: it ends so, with DONE, also while a written STOP waits for its boundary (R82). -/
def State.seqCheckDone (s : State) : State :=
  let busy := s.slices.toList.any fun x =>
    (match x.conv with | some c => !c.inj | none => false) || (match x.ended with | some c => !c.inj | none => false) ||
      x.resv.isSome
  if s.seqRunning && !s.flag Reg.SEQ_CTL Fld.SEQ_CTL_MODE && !s.seq.fresh && decide (s.seq.list.length ≤ s.seq.next) &&
      s.seq.requeued.isEmpty && s.seq.deferred.isEmpty && !busy then
    ((s.lower Reg.SEQ_STATUS Fld.SEQ_STATUS_RUNNING).raise Reg.SEQ_EVENT Fld.SEQ_EVENT_DONE).discardAccs fun _ => true
  else s

/-- The stop acts at its boundary: nothing further is dispatched, requeued entries are dropped without a count, and a pair
without its second half is discarded (R82, R67). -/
def State.seqStopNow (s : State) : State :=
  let s := iterate 5 (fun i s =>
    if (s.slice i).resv.isSome then
      let s := s.dropHalf i
      s.setSlice i { s.slice i with resv := none }
    else s) s
  let s := s.discardAt fun _ => true
  { s.lower Reg.SEQ_STATUS Fld.SEQ_STATUS_RUNNING with
    seq := { s.seq with stopReq := false, fresh := false, list := [], next := 0, requeued := [], deferred := [] } }

/-- The working list as a copy taken now makes it (R77). -/
def State.listNow (s : State) : List Nat :=
  (List.range (clampNat 1 32 (s.fld Reg.SEQ_CFG Fld.SEQ_CFG_LEN))).map fun i => s.fld (Reg.SEQ_ENTRY i) Fld.SEQ_ENTRY_CHANNEL

/-- The list is copied at the dispatch of entry 0, which begins a pass; a REPEAT pass sets PASS (R77, R79). -/
def State.passBegin (s : State) : State :=
  let s := { s with seq := { s.seq with list := s.listNow, fresh := false } }
  s.when (s.flag Reg.SEQ_CTL Fld.SEQ_CTL_MODE) fun s => s.raise Reg.SEQ_EVENT Fld.SEQ_EVENT_PASS

/-! ### Placing conversions (R74, R78, R83) -/

/-- The case of R74 that slice `i` acts on: none if it sits out, else whether its hold is cut short. -/
def State.holdCase (s : State) (i : Nat) : Option Bool :=
  let x := s.slice i
  if x.conducting || !x.holding then some false
  else if s.flag Reg.CONV_CTL Fld.CONV_CTL_FAST_SEQ then some true else none

/-- The recovery hold of slice `i` is cut short (R74). -/
def State.cutHold (s : State) (i : Nat) : State := (s.disarm (.recovery i)).setSlice i { s.slice i with holding := false }

/-- Slice `i` acts at a boundary on an entry (R74); true if it sits out. -/
def State.actOn (s : State) (i e ch half : Nat) : State × Bool :=
  match s.holdCase i with
  | some short => ((s.when short fun s => s.cutHold i).startConv i ch e half false short 0, false)
  | none => (s.requeue e ch, true)

/-- An entry is placed on slice `i`; the first half of a pair reserves the slice (R83). -/
def State.place (s : State) (i e ch : Nat) : State :=
  if s.groupReverses ch then
    let (s, out) := s.actOn i e ch 1
    if out then s else s.setSlice i { s.slice i with resv := some (e, ch) }
  else (s.actOn i e ch 0).1

/-- A reserved slice takes the second half of its pair (R83). Where the group no longer reverses, the held half has no partner and the
channel converts singly (R67; log entry 65). -/
def State.secondHalf (s : State) (i : Nat) : State :=
  match (s.slice i).resv with
  | none => s
  | some (e, ch) =>
    let s := s.setSlice i { s.slice i with resv := none }
    if !s.groupReverses ch then ((s.dropHalf i).actOn i e ch 0).1
    else
    let (s, out) := s.actOn i e ch 2
    if out then s.dropHalf i else s

/-- Whether a slice is free for assignment at a boundary (R78): not offline, not reserved or converting, not in a reset, and
not kept by an injected sequence that still has work for it. -/
def State.sliceFree (s : State) (i : Nat) : Bool :=
  let x := s.slice i
  s.offline != i && x.conv.isNone && x.resv.isNone && !x.inReset &&
    !(x.injRole && (x.injNext.isSome || s.injLeft))

/-- The free slices, lowest number first. -/
def State.freeSlices (s : State) : List Nat := (List.range 5).filter fun i => s.sliceFree i

/-- What is left after waiting entries have been placed: entries that go on waiting, entries placed, slices not yet given one. -/
structure Placing where
  kept   : List (Nat × Nat) := []
  placed : List Nat := []
  free   : List Nat
  deriving DecidableEq, Repr

/-- Entries taken from a waiting list while slices are free: reversal entries only at even boundaries (R83), internal
channels only while a mux is left (R62). `first`: they wait for their first dispatch, and that of entry 0 begins the pass in REPEAT mode
(R79), while a SINGLE pass keeps the list its start copied (R77). DESIGN CHOICE, log entry 32: a requeued entry 0 that is dispatched again
begins no pass; its first dispatch began it. -/
def State.placeWaiting (s : State) (first : Bool) (p : Placing) : List (Nat × Nat) → State × Placing
  | [] => (s, p)
  | (e, old) :: rest =>
    let begins := first && e == 0 && s.flag Reg.SEQ_CTL Fld.SEQ_CTL_MODE
    let ch := if begins then nth s.listNow 0 0 else old
    let wait := { p with kept := p.kept ++ [(e, old)] }
    match p.free with
    | [] => s.placeWaiting first wait rest
    | i :: free =>
      if (s.groupReverses ch && s.frameOdd) || !s.muxFree i ch || p.placed.contains e then s.placeWaiting first wait rest
      else
        let s := s.when begins State.passBegin
        if !channelOk ch then (s.raise Reg.SEQ_EVENT Fld.SEQ_EVENT_BAD_ENTRY).placeWaiting first p rest
        else (s.place i e ch).placeWaiting first { p with placed := e :: p.placed, free } rest

/-- Further entries of the working list take the slices still free, in entry order, round the list in REPEAT mode until every entry has had
its turn; `seen` are the entries met this frame or still waiting for their dispatch, which are passed over, since no entry is dispatched twice
in one frame, `free` the slices not yet given one (R78, R79). The pass begins where entry 0 is dispatched: an entry 0 that keeps its place for
an even boundary (R83) or for a mux (log entry 30) begins it there, and until then the entries after it are those of the list copied before, or
at a start of the list as it stands. DESIGN CHOICE, log entry 32: an entry passed over has had its turn, and an entry 0 outside the channel ranges,
which takes no slice, begins its pass all the same. -/
def State.dispatch : Nat → List Nat → List Nat → State → State
  | 0, _, _, s => s
  | fuel + 1, seen, free, s =>
    match free with
    | [] => s
    | i :: rest =>
      let atEnd := decide (s.seq.list.length ≤ s.seq.next)
      if !s.seqRunning then s
      else if !s.seq.fresh && ((atEnd && !s.flag Reg.SEQ_CTL Fld.SEQ_CTL_MODE) || (!seen.isEmpty && (List.range s.seq.list.length).all seen.contains)) then s
      else
        let begins := s.seq.fresh || atEnd
        let e := if begins then 0 else s.seq.next
        let ch := nth (if begins then s.listNow else s.seq.list) e 0
        let turn (s : State) : State := { s with seq := { s.seq with next := e + 1 } }
        let step (s : State) : State := turn (s.when begins State.passBegin)
        if seen.contains e then State.dispatch fuel seen free (turn s)
        else if !channelOk ch then
          State.dispatch fuel (e :: seen) free ((step s).raise Reg.SEQ_EVENT Fld.SEQ_EVENT_BAD_ENTRY)
        else if (s.groupReverses ch && s.frameOdd) || !s.muxFree i ch then
          State.dispatch fuel (e :: seen) free
            { s with seq := { s.seq with next := e + 1, deferred := s.seq.deferred ++ [(e, ch)], fresh := false,
                                         list := if s.seq.fresh then s.listNow else s.seq.list } }
        else State.dispatch fuel (e :: seen) rest ((step s).place i e ch)

/-- Waiting entries in entry order. -/
def byEntry (l : List (Nat × Nat)) : List (Nat × Nat) := (List.range 33).flatMap fun e => l.filter fun p => p.1 == e

/-- The regular sequence's part of a boundary: second halves, deferred entries, requeued entries, further entries (R78, R83). What is
requeued at this very boundary waits for a later frame (R74). -/
def State.seqBoundary (s : State) : State :=
  if !s.seqRunning || s.seq.inReset then s
  else
    let free := s.freeSlices
    let de := s.seq.deferred
    let rq := s.seq.requeued
    let s := { s with seq := { s.seq with deferred := [], requeued := [] } }
    let s := iterate 5 (fun i s => s.secondHalf i) s
    let (s, p) := s.placeWaiting true { free } de
    let s := { s with seq := { s.seq with deferred := p.kept } }
    let (s, p) := s.placeWaiting false { p with kept := [] } rq
    let s := { s with seq := { s.seq with requeued := byEntry (s.seq.requeued ++ p.kept) } }
    (s.dispatch 66 (p.placed ++ (s.seq.deferred ++ s.seq.requeued).map (·.1)) p.free).seqCheckDone

/-- A held or undelivered first half on slice `i` is discarded and counted (R67). -/
def State.halfLost (s : State) (i : Nat) : State :=
  let x := s.slice i
  let first := match x.ended with | some c => c.half == 1 || c.half == 3 | none => false
  s.when (x.half.isSome || first) State.unpaired

/-- Both sequences end at once, whatever converts: halves without a partner are discarded and counted, and so is every sum, those too that a
conversion just ended had still to join (R67, R83, R92). -/
def State.seqClear (s : State) : State :=
  let s := iterate 5 (fun i s => s.halfLost i) s.seqStopNow
  { s with inj := {}, slices := s.slices.map fun (x : Slice) => { x with conv := none, ended := none, resv := none, half := none,
                                                                         injRole := false, injNext := none, injDue := false } }.discardAccs
    fun _ => true

/-! ### The injected sequence (R84 to R88) -/

/-- Slices an injected sequence may use at once (R86). -/
def State.injMax (s : State) : Nat := s.fld Reg.INJ_CFG Fld.INJ_CFG_SLICES + 1

/-- Slices the sequence has taken. -/
def State.injTaken (s : State) : Nat := (s.slices.toList.filter fun x => x.injRole).length

/-- The last injected result is delivered, or nothing is left to deliver: INJ_DONE (R86). -/
def State.injCheckDone (s : State) : State :=
  if s.inj.phase == .running && s.inj.left == 0 then
    { s.raise Reg.SEQ_EVENT Fld.SEQ_EVENT_INJ_DONE with
      inj := {}
      slices := s.slices.map fun x =>
        if x.injRole then { x with injRole := false, injNext := none, injDue := false, injIdle := true } else x }
  else s

/-- Entries of the injected list whose turn has come and whose channel is outside the ranges are skipped (R77). -/
def State.injSkip (s : State) : State :=
  let bad : Nat → Bool := fun e => !channelOk (nth s.inj.list e 0)
  if (s.inj.pool.takeWhile bad).isEmpty then s
  else { s.raise Reg.SEQ_EVENT Fld.SEQ_EVENT_BAD_ENTRY with inj := { s.inj with pool := s.inj.pool.dropWhile bad } }

/-- Slice `i`, taken by the sequence, is given the next entry (R86). -/
def State.injGive (s : State) (i : Nat) : State :=
  let s := s.injSkip
  match s.inj.pool with
  | [] => s
  | e :: rest =>
    { s.setSlice i { s.slice i with injRole := true, injNext := some e, injDue := false } with inj := { s.inj with pool := rest } }

/-- Slices of the sequence that have nothing to do take what entries are left, the lowest number first: one that a reset or a loss of CK has
left free, or one that was idle as an entry came back (R86). -/
def State.injHand (s : State) : State :=
  iterate 5 (fun i s =>
    let x := s.slice i
    s.when (x.injRole && x.injNext.isNone && x.conv.isNone && !x.inReset) fun s => s.injGive i) s

/-- A regular conversion is stopped for injected work or by a reset: it is discarded and its entry requeued (R83, R87). -/
def State.stopRegular (s : State) (i : Nat) : State :=
  match (s.slice i).conv with
  | none => s
  | some c =>
    if c.inj then s
    else
      let s := s.setSlice i { s.slice i with conv := none, resv := none }
      let s := s.when (c.half == 2) fun s => s.dropHalf i
      s.when s.seqRunning fun s => s.requeue c.entry c.ch

/-- Slices the sequence may take now, in the order of preference of R87. DESIGN CHOICE, log entry 65: a slice whose regular conversion has
clamped counts as one that runs a regular conversion. -/
def State.injChoice (s : State) : List Nat :=
  let ok := [4, 3, 2, 1, 0].filter fun i => s.offline != i && !(s.slice i).inReset && !(s.slice i).injRole
  let rec_ (i : Nat) : Bool := (s.slice i).conv.isNone && ((s.slice i).holding || (s.slice i).conducting)
  ok.filter (fun i => (s.slice i).conv.isNone && !rec_ i) ++ ok.filter (fun i => (s.slice i).conv.isSome) ++ ok.filter rec_

/-- Under ABORT the sequence takes slices at once, up to its number, each with the next entry (R87). -/
def State.injTake (s : State) : State :=
  s.injChoice.foldl (fun s i =>
    if !s.injLeft || decide (s.inj.want ≤ s.injTaken) then s
    else
      let s := s.stopRegular i
      let s := s.when (s.slice i).resv.isSome fun s =>
        let (e, ch) := (s.slice i).resv.getD (0, 0)
        ((s.setSlice i { s.slice i with resv := none }).dropHalf i).requeue e ch
      s.injGive i) s

/-- A start of the injected sequence (R84): ignored and counted without a reference (R70) or while one is pending or running,
else the list is copied, and under ABORT slices are taken at once. DESIGN CHOICE, log entry 73: a start that meets both conditions counts in
REF_TRIG_IGNORED alone (R70, R84), and during the sequencer's reset, as in STANDBY (R283; log entry 82), one is ignored with no count and no
event (R80). DESIGN CHOICE, log entry 90: INJ_CFG.SLICES is sampled here and keeps its value for the sequence, while TINT_MS and MAINS are read
at each integration start (R86). -/
def State.injTrigger (s : State) : State :=
  if !s.measRuns || !s.on .core || s.seq.inReset then s
  else if !s.refUsable then
    (s.count Reg.REF_TRIG_IGNORED Reg.CONV_EVENT Fld.CONV_EVENT_CTR_SAT 1).raise Reg.CONV_EVENT Fld.CONV_EVENT_TRIG_IGNORED
  else if s.inj.phase != .idle then s.seqOverrun
  else
    let n := clampNat 1 8 (s.fld Reg.INJ_CFG Fld.INJ_CFG_LEN)
    let l := (List.range n).map fun i => s.fld (Reg.INJ_ENTRY i) Fld.INJ_ENTRY_CHANNEL
    let good := (l.filter channelOk).length
    let abort := s.flag Reg.INJ_CTL Fld.INJ_CTL_PREEMPT
    let s := { s with inj := { phase := if abort || good == 0 then .running else .waitBoundary, list := l, pool := List.range n,
                               left := good, want := s.injMax } }
    if good = 0 then s.injSkip.injCheckDone else if abort then s.injTake else s

/-- An injected integration starts on slice `i`, `wait` CK cycles from now, unless its recovery hold delays it (R75, R87); an internal channel waits while both
muxes carry others (R62; log entry 65). -/
def State.injBegin (s : State) (i wait : Nat) : State :=
  let x := s.slice i
  match x.injNext with
  | none => s
  | some e =>
    if !x.injRole || x.conv.isSome || x.inReset then s
    else
      let ch := nth s.inj.list e 0
      match s.holdCase i with
      | none => s.setSlice i { x with injDue := true }
      | some short =>
        if !s.muxFree i ch then s
        else
          let s := s.when short fun s => s.cutHold i
          (s.setSlice i { s.slice i with injNext := none, injDue := false }).startConv i ch e 0 true short wait

/-- At a boundary an AFTER start takes the highest-numbered free slices and no others later, and an ABORT sequence short of slices those that have
become available (R78, R87, R88). DESIGN CHOICE, log entry 73: an AFTER start whose boundary finds no free slice waits for a later one. -/
def State.injBoundary (s : State) : State :=
  match s.inj.phase with
  | .idle => s
  | .running =>
    let s := s.injHand
    if s.injLeft then s.injTake else s
  | .waitBoundary =>
    let free := s.freeSlices.reverse
    if free.isEmpty then s
    else
      let s := { s with inj := { s.inj with phase := .running } }
      let s := (free.take s.inj.want).foldl (fun s i => if s.injLeft then (s.injGive i).injBegin i 24 else s) s
      { s with inj := { s.inj with want := s.injTaken } }

/-- Whether slice `i` counts as claimed by injected work (R89). -/
def State.injClaims (s : State) (i : Nat) : Bool :=
  (s.slice i).injRole ||
    (match s.inj.phase with
     | .idle => false
     | .running => s.injLeft && decide (s.injTaken < s.inj.want) && s.offline != i
     | .waitBoundary => (([4, 3, 2, 1, 0].filter fun j => s.offline != j).take s.inj.want).contains i)

/-- START of the regular sequence. -/
def execSeqStart (s : State) : Host.Outcome State Fault Refusal := (s.hostRow Reg.SEQ_CTL false State.seqTrigger).done

/-- STOP of the regular sequence. -/
def execSeqStop (s : State) : Host.Outcome State Fault Refusal := (s.hostRow Reg.SEQ_CTL false State.seqStop).done

/-- Whether an edge is of the kind an EDGE field selects: 1 rising, 2 falling, 3 both (R80, R84). -/
def edgeTaken (sel : Nat) (rising : Bool) : Bool := if rising then sel % 2 == 1 else decide (2 ≤ sel)

/-- TRIG0_EDGE; a pin whose pads are held gives no edge (R284). -/
def execTrig0Edge (rising : Bool) (s : State) : Host.Outcome State Fault Refusal :=
  (s.when (edgeTaken (s.fld Reg.SEQ_CTL Fld.SEQ_CTL_TRIG0_EDGE) rising && !(Fld.PAD_STATUS_DOMAIN.bit 1).on (s.reg Reg.PAD_STATUS))
    State.seqTrigger).done

/-- INJ_START. -/
def execInjStart (s : State) : Host.Outcome State Fault Refusal := (s.hostRow Reg.INJ_CTL false State.injTrigger).done

/-- TRIG1_EDGE. -/
def execTrig1Edge (rising : Bool) (s : State) : Host.Outcome State Fault Refusal :=
  (s.when (edgeTaken (s.fld Reg.INJ_CTL Fld.INJ_CTL_TRIG1_EDGE) rising && !(Fld.PAD_STATUS_DOMAIN.bit 1).on (s.reg Reg.PAD_STATUS))
    State.injTrigger).done

/-- INJ_INTEGRATION_START. -/
def execInjIntegrationStart (i : SliceId) (s : State) : Host.Outcome State Fault Refusal :=
  (s.when s.measRuns fun s => s.injBegin i 0).done

/-- RECOVERY_HOLD_END: the hold is complete, of a slice or of the MD island's S4, and an injected conversion it delayed starts (R74,
R75). -/
def execRecoveryHoldEnd (i : SliceId) (s : State) : Host.Outcome State Fault Refusal :=
  (if s.inTether && i == 4 then
    s.fall .tetherHold fun s => { s with tether := { s.tether with holding := false, holdLeft := 0 } }
  else
    s.fall (.recovery i) fun s =>
      let s := s.setSlice i { s.slice i with holding := false, holdLeft := 0 }
      s.when (s.slice i).injDue fun s => s.injBegin i 0).done

end Sys2Proof.Machine
end

