-- ==== Sys2Proof/Machine/Float.lean ====
section
/-! DEFINITION. Binary32 arithmetic of the lanes (R172): every operation rounds to nearest, ties to even; subnormal operands and
results are zeros with their sign; a NaN or an infinity is `none`. -/

namespace Sys2Proof.Machine

/-! ### Reading a word -/

/-- The exponent field. -/
def fExp (w : Word) : Nat := (w.toNat >>> 23) % 256

/-- Neither a NaN nor an infinity. -/
def fFin (w : Word) : Bool := fExp w != 255

/-- A NaN. -/
def fNan (w : Word) : Bool := fExp w == 255 && w.toNat % 2 ^ 23 != 0

/-- A subnormal number flushed to zero, its sign kept (R172). -/
def fFlush (w : Word) : Word := if fExp w = 0 then w &&& 0x80000000 else w

/-- A finite number: sign, magnitude and scale, (−1)^neg × m × 2^e. -/
structure Flt where
  neg : Bool
  m   : Nat
  e   : Int
  deriving DecidableEq, Repr

/-- The number a finite word holds, subnormals as zero. -/
def fDec (w : Word) : Flt :=
  if fExp w = 0 then ⟨w.getLsbD 31, 0, 0⟩ else ⟨w.getLsbD 31, 2 ^ 23 + w.toNat % 2 ^ 23, (fExp w : Int) - 150⟩

/-- The number as a whole multiple of 2^e0, for e0 ≤ its scale. -/
def Flt.at_ (x : Flt) (e0 : Int) : Int :=
  let k : Int := ((x.m <<< (x.e - e0).toNat : Nat) : Int)
  if x.neg then -k else k

/-! ### Rounding -/

/-- A word from its parts; `q` has 24 bits. An exponent too large is `none`, one too small gives a zero. -/
def fPack (neg : Bool) (q : Nat) (e : Int) : Option Word :=
  let s := if neg then 2 ^ 31 else 0
  if q < 2 ^ 23 then some (BitVec.ofNat 32 s)
  else if 255 ≤ e + 150 then none
  else some (BitVec.ofNat 32 (s + (e + 150).toNat * 2 ^ 23 + (q - 2 ^ 23)))

/-- m × 2^e rounded to binary32, to nearest, ties to even; `more` tells that the exact magnitude lies a little above. -/
def fRound (neg : Bool) (m : Nat) (e : Int) (more : Bool) : Option Word :=
  if m = 0 then some (if neg then 0x80000000 else 0)
  else
    let sh : Int := max ((m.log2 : Int) - 23) (-149 - e)
    if sh ≤ 0 then fPack neg (m <<< (-sh).toNat) (e + sh)
    else
      let k := sh.toNat
      let q := m >>> k
      let r := m % 2 ^ k
      let up := decide (2 ^ k < 2 * r) || (2 * r == 2 ^ k && (more || q % 2 == 1))
      let q := if up then q + 1 else q
      if q = 2 ^ 24 then fPack neg (2 ^ 23) (e + sh + 1) else fPack neg q (e + sh)

/-- An integer × 2^e rounded; an exact zero takes the given sign. -/
def fRoundInt (zneg : Bool) (v e : Int) : Option Word :=
  if v = 0 then some (if zneg then 0x80000000 else 0) else fRound (decide (v < 0)) v.natAbs e false

/-- The quotient a / b of whole numbers, b > 0, rounded. -/
def fRatio (neg : Bool) (a b : Nat) (e : Int) : Option Word :=
  if a = 0 then some (if neg then 0x80000000 else 0)
  else
    let k := 64 + b.log2 - a.log2
    let n := a <<< k
    fRound neg (2 * (n / b) + b2n (n % b != 0)) (e - k - 1) false

/-! ### Operations (R172) -/

/-- Both operands finite. -/
def fBoth (a b : Word) (f : Flt → Flt → Option Word) : Option Word :=
  if fFin a && fFin b then f (fDec a) (fDec b) else none

/-- −a. -/
def fNeg (a : Word) : Word := fFlush (a ^^^ 0x80000000)

/-- |a|. -/
def fAbs (a : Word) : Word := fFlush (a &&& 0x7FFFFFFF)

/-- a + b. -/
def fAdd (a b : Word) : Option Word := fBoth a b fun x y =>
  if x.m = 0 ∧ y.m = 0 then some (if x.neg && y.neg then 0x80000000 else 0)
  else if x.m = 0 then some b
  else if y.m = 0 then some a
  else
    let e := min x.e y.e
    fRoundInt false (x.at_ e + y.at_ e) e

/-- a − b. -/
def fSub (a b : Word) : Option Word := fAdd a (b ^^^ 0x80000000)

/-- a × b. -/
def fMul (a b : Word) : Option Word := fBoth a b fun x y => fRound (x.neg != y.neg) (x.m * y.m) (x.e + y.e) false

/-- a ÷ b; a division by zero is no number. -/
def fDiv (a b : Word) : Option Word := fBoth a b fun x y =>
  if y.m = 0 then none else fRatio (x.neg != y.neg) x.m y.m (x.e - y.e)

/-- The integer square root, bit by bit. -/
def isqrt (n : Nat) : Nat :=
  (List.range 48).foldl (fun r i => let t := r + 2 ^ (47 - i); if t * t ≤ n then t else r) 0

/-- √a. -/
def fSqrt (a : Word) : Option Word :=
  if !fFin a then none
  else
    let x := fDec a
    if x.m = 0 then some (fFlush a)
    else if x.neg then none
    else
      let odd := x.e % 2 != 0
      let m := (if odd then 2 * x.m else x.m) <<< 60
      let e := (if odd then x.e - 1 else x.e) - 60
      let r := isqrt m
      fRound false (2 * r + b2n (r * r != m)) (e / 2 - 1) false

/-- An order key: infinities have one too; a NaN has none of meaning. -/
def fKey (w : Word) : Int :=
  let m : Int := if fExp w = 0 then 0 else ((w.toNat % 2 ^ 31 : Nat) : Int)
  if w.getLsbD 31 then -m else m

/-- a < b. -/
def fLt (a b : Word) : Bool := decide (fKey a < fKey b)

/-- a ≤ b. -/
def fLe (a b : Word) : Bool := decide (fKey a ≤ fKey b)

/-- a = 0, of either sign. -/
def fZero (a : Word) : Bool := fKey a == 0

/-- The smaller operand. -/
def fMin (a b : Word) : Word := fFlush (if fLt b a then b else a)

/-- The result `y` of min or max over an operand `a` that may be no number; none where no number comes about (R172). -/
def fNumber (a y : Word) : Option Word := if fNan a || !fFin y then none else some y

/-- The larger operand. -/
def fMax (a b : Word) : Word := fFlush (if fLt a b then b else a)

/-- A whole number as binary32. -/
def fOfInt (i : Int) : Option Word := fRoundInt false i 0

/-- A quotient of whole numbers as binary32. -/
def fOfRatio (a b : Nat) : Option Word := fRatio false a b 0

/-- The exact value × k, k a whole number, as a fraction: numerator and a power of two below. -/
def Flt.frac (x : Flt) : Int × Nat :=
  if 0 ≤ x.e then (x.at_ 0, 0) else (x.at_ x.e, (-x.e).toNat)

/-- round(a): nearest, halves away from zero (R350). -/
def fToInt (a : Word) : Int :=
  let (n, k) := (fDec a).frac
  roundDiv n (2 ^ k)

/-- 1.0. -/
def fOne : Word := 0x3F800000

/-! ### exp and ln (R172) -/

/-- Bits below the point of the fixed-point work. -/
def fxP : Nat := 192

/-- 1 + y + y²/2 + … for a small fixed-point y ≥ 0. -/
def fxTaylor (y : Nat) : Nat :=
  ((List.range 24).foldl (fun (p : Nat × Nat) i =>
    let t := p.2 * y / 2 ^ fxP / (i + 1)
    (p.1 + t, t)) (2 ^ fxP, 2 ^ fxP)).1

/-- e^x for x = m × 2^e, 0 ≤ x < 128, in fixed point: the Taylor sum of x / 2^16, squared 16 times. -/
def fxExp (m : Nat) (e : Int) : Nat :=
  let s := e + fxP - 16
  let y := if 0 ≤ s then m <<< s.toNat else m >>> (-s).toNat
  (List.range 16).foldl (fun t _ => t * t / 2 ^ fxP) (fxTaylor y)

/-- The magnitude m × 2^e cut to binary32; 0 below the normal numbers. -/
def fCut (neg : Bool) (m : Nat) (e : Int) : Option Word :=
  if m = 0 then some (if neg then 0x80000000 else 0)
  else
    let sh : Int := (m.log2 : Int) - 23
    let q := if 0 ≤ sh then m >>> sh.toNat else m <<< (-sh).toNat
    if e + sh < -149 then some (if neg then 0x80000000 else 0) else fPack neg q (e + sh)

/-- The part's value, if it is one of the two numbers next to the exact result; else the lower one (log entry 5). -/
def withinUlp (part : Word) (down : Option Word) : Option Word :=
  match down with
  | none => none
  | some d => if (part == d || part == d + 1) && fFin part then some part else some d

/-- exp x: a number within 1 ulp of the exact value (R172). -/
def fExpon (x : Word) : Option Word :=
  if !fFin x then none
  else if fZero x then some fOne
  else if fLt 0x42B17218 x then none
  else if fLt x 0xC2AEAC50 then some 0
  else
    let v := fDec x
    let t := fxExp v.m v.e
    if v.neg then withinUlp (Config.expWord x) (fCut false (2 ^ (2 * fxP + 160) / t) (-(fxP : Int) - 160))
    else withinUlp (Config.expWord x) (fCut false t (-(fxP : Int)))

/-- 2 atanh(n / d) in fixed point. -/
def fxLog (n d : Nat) : Nat :=
  let t := n <<< fxP / d
  let t2 := t * t / 2 ^ fxP
  2 * ((List.range 64).foldl (fun (p : Nat × Nat) i => (p.1 + p.2 / (2 * i + 1), p.2 * t2 / 2 ^ fxP)) (0, t)).1

/-- ln x: a number within 1 ulp of the exact value (R172). -/
def fLn (x : Word) : Option Word :=
  if !fFin x || fLe x 0 then none
  else if x == fOne then some 0
  else
    let v := fDec x
    let s : Int := (fxLog (v.m - 2 ^ 23) (v.m + 2 ^ 23) : Int) + (v.e + 23) * (fxLog 1 3 : Int)
    withinUlp (Config.lnWord x) (fCut (decide (s < 0)) s.natAbs (-(fxP : Int)))

end Sys2Proof.Machine
end

