-- ==== Sys2Proof/Machine/Thermocouple.lean ====
section
/-! DEFINITION. The thermocouple functions of IEC 60584-1 (R172, R186): the reference polynomials E(T) in mV with T in °C, and the
inverse polynomials T(E), by Horner's rule in binary32. The spec names the standard and does not print its coefficients: PRESUMED, log
entry 7. Types: 0 J, 1 K, 2 N, 3 T. -/

namespace Sys2Proof.Machine

/-- One piece of a function: the upper end of its range, and its coefficients from the constant term on. -/
structure TcPiece where
  upTo : Word
  coef : List Word
  deriving DecidableEq, Repr

/-- The two pieces of the reference function of a type; the second goes on beyond its range. -/
def tcRef (ty : Nat) : List TcPiece :=
  match ty with
  | 0 => [⟨0x443E0000, [0x00000000, 0x3D4E5C81, 0x37FFA65D, 0xB3B7FFAA, 0x2F11720F, 0xAA3FFFCE, 0x257183DA, 0xA01406FA,
     0x19972E47]⟩,
    ⟨0x44960000, [0x43943A67, 0xBFBFB1C7, 0x3B5051E9, 0xB655B9E9, 0x30D810B7, 0xAAACC6ED]⟩]
  | 1 => [⟨0x00000000, [0x00000000, 0x3D219675, 0x37C628A9, 0xB4B068F0, 0xB1AB78C0, 0xAE947439, 0xAB219880, 0xA76004D9,
     0xA340CC54, 0x9EBBD94C, 0x999DDD0B]⟩,
    ⟨0x44AB8000, [0xBC902EBE, 0x3D1F6BD7, 0x379BAEA8, 0xB3D59564, 0x2FAF0C26, 0xAB1DD4BE, 0x2621A017, 0xA0BD0458,
     0x1AEAE5A6, 0x946FC23B]⟩]
  | 2 => [⟨0x00000000, [0x00000000, 0x3CD64B9F, 0x3737D609, 0xB3C985B2, 0xAE4C1F50, 0xAC3917EB, 0xA8CC0B46, 0xA4AF7332,
     0x9FDC94B9]⟩,
    ⟨0x44A28000, [0x00000000, 0x3CD469E2, 0x3783C946, 0x333C3AC9, 0xAF8ADFF0, 0x2B35058D, 0xA69107A8, 0x219332B9,
     0x9C37F2A8, 0x16810CEC, 0x901B93C5]⟩]
  | _ => [⟨0x00000000, [0x00000000, 0x3D1EB656, 0x38395D6A, 0x33FE5ADB, 0x32AC14FA, 0x3077C4FE, 0x2DC73DDF, 0x2ACB1003,
     0x278AB065, 0x24021CA6, 0x202840CD, 0x1C1364ED, 0x17A70D89, 0x12DCF7C0, 0x0D81799C]⟩,
    ⟨0x43C80000, [0x00000000, 0x3D1EB656, 0x380BA342, 0x345D62FF, 0xB1165FAC, 0x2D41758D, 0xA90AC827, 0x2451BC49,
     0x9F01ED0F]⟩]

/-- The pieces of the inverse function of a type, E in mV, with the lower end of the first. -/
def tcInv (ty : Nat) : Word × List TcPiece :=
  match ty with
  | 0 => (0xC101851F, [⟨0x00000000, [0x00000000, 0x419C39E5, 0xBF9D435F, 0xBF89A0BD, 0xBF174336, 0xBE30B570, 0xBCE6740F, 0xBB1D0BDD,
     0xB8AFCA4E]⟩,
    ⟨0x422BAD0E, [0x00000000, 0x419E4625, 0xBE4CEC5D, 0x3C29E5A2, 0xB985AD52, 0x36709876, 0xB3658909, 0x300C2F49]⟩,
    ⟨0x428B1B23, [0xC542994F, 0x43964597, 0xC11F29E9, 0x3E2E5CFF, 0xBABB7A11, 0x369F0281]⟩])
  | 1 => (0xC0BC8312, [⟨0x00000000, [0x00000000, 0x41C96340, 0xBF9548EB, 0xBF8AABAA, 0xBF65D1FD, 0xBEBF3166, 0xBDB16C75, 0xBC2B38FC,
     0xBA081B4F]⟩,
    ⟨0x41A526E9, [0x00000000, 0x41C8AB1C, 0x3DA0F998, 0xBE80290A, 0x3DAA4BF6, 0xBC49337B, 0x3A8080E3, 0xB839188C,
     0x358DF777, 0xB234DCA8]⟩,
    ⟨0x425B8B44, [0xC303CE49, 0x42413579, 0xBFD2B125, 0x3D5FD5DC, 0xBA7CFCDA, 0x3713AD22, 0xB3059BB8]⟩])
  | 2 => (0xC07F5C29, [⟨0x00000000, [0x00000000, 0x4219BF55, 0x3F8CEF28, 0x40A72241, 0x40E697FB, 0x40BB29DA, 0x4031A1A8, 0x3F454FFB,
     0x3DED3686, 0x3BEFA954]⟩,
    ⟨0x41A4E76D, [0x00000000, 0x421AC227, 0xBF8A94EE, 0x3D409891, 0xB60E625B, 0xB8F5EFED, 0x36B4F3CD, 0xB3AB6717]⟩,
    ⟨0x423E0D50, [0x419DCC7E, 0x420409A8, 0xBEC874C6, 0x3C217882, 0xB905A0A3, 0x35507E92]⟩])
  | _ => (0xC0B34BC7, [⟨0x00000000, [0x00000000, 0x41CF97F2, 0xBE5A4926, 0x3F4A49B1, 0x3ED9BE02, 0x3E083CE1, 0x3CA5D164, 0x3AA60B54]⟩,
    ⟨0x41A6F9DB, [0x00000000, 0x41CF6C8B, 0xBF42A2C4, 0x3D3DF6C3, 0xBB0DE948, 0x387DAD74, 0xB543C804]⟩])

/-- The range of a thermocouple type in °C (R186). -/
def tcRange (ty : Nat) : Word × Word :=
  match ty with
  | 0 => (0xC3520000, 0x44960000)
  | 1 => (0xC3480000, 0x44AB8000)
  | 2 => (0xC3480000, 0x44A28000)
  | _ => (0xC3480000, 0x43C80000)

/-- A polynomial by Horner's rule. -/
def fHorner (c : List Word) (x : Word) : Option Word :=
  match c.reverse with
  | [] => some 0
  | y :: ys => ys.foldlM (fun y a => do fAdd (← fMul y x) a) y

/-- The coefficients of the first piece whose range reaches `x`, or of the last piece. -/
def tcPiece : List TcPiece → Word → List Word
  | [], _ => []
  | [p], _ => p.coef
  | p :: ps, x => if fLe x p.upTo then p.coef else tcPiece ps x

/-- E(T) in mV; type K has an exponential term above 0 °C. -/
def tcEmf (ty : Nat) (t : Word) : Option Word := do
  let e ← fHorner (tcPiece (tcRef ty) t) t
  if ty = 1 && fLt 0 t then do
    let d ← fSub t 0x42FDEFEC
    let x ← fMul 0xB8F82F06 (← fMul d d)
    fAdd e (← fMul 0x3DF2E34C (← fExpon x))
  else some e

/-- T(E) of a type, E in mV, limited to the type's range; true if it was limited (R186). -/
def tcTemp (ty : Nat) (mv : Word) : Option (Word × Bool) :=
  let (lo, ps) := tcInv ty
  let (tlo, thi) := tcRange ty
  if fLt mv lo then some (tlo, true)
  else if ps.all fun p => fLt p.upTo mv then some (thi, true)
  else do
    let t ← fHorner (tcPiece ps mv) mv
    if fLt t tlo then some (tlo, true) else if fLt thi t then some (thi, true) else some (t, false)

end Sys2Proof.Machine
end

