-- ==== Sys2Proof/Machine/LaneBlocks.lean ====
section
/-! DEFINITION. The lane repertoire (spec/08, R171 to R173, R185 to R196): per block its default values, its check, the inputs it
uses and what one activation of it computes. CORE lanes and the keeper core share it. -/

namespace Sys2Proof.Machine

/-! ### Quality (R173) -/

/-- A block's output: Y and Q. -/
abbrev Val := Word × Nat

/-- The NONFINITE, RANGE, STALE and MANUAL bits of a quality byte. -/
def qStale : Nat := 0x10
def qNonfinite : Nat := 0x20
def qRange : Nat := 0x40
def qManual : Nat := 0x80

/-- BAD: CLAMP, STALE or NONFINITE. -/
def qBad (q : Nat) : Bool := q &&& 0x32 != 0

/-- The quality a RECORD notes: 0 good, 1 uncertain, 2 bad (R196). -/
def qGrade (q : Nat) : Nat := if qBad q then 2 else if q = 0 then 0 else 1

/-- A quality bit set on a condition. -/
def qIf (c : Bool) (bit q : Nat) : Nat := if c then q ||| bit else q

/-! ### Types, defaults (R171) and inputs (R170) -/

/-- The defaults of a TYPE in lane `n`: OPT and the parameters (R171, R185 to R195). -/
def blkDefaults (typ n : Nat) : Nat × List Word :=
  let w (x : Nat) : Word := BitVec.ofNat 32 x
  let r : Nat × List Word := match typ with
    | 0x01 => (0, [w n, 0, 1000])
    | 0x02 => (0, [4])
    | 0x03 => (0, [0x3F800000])
    | 0x04 => (0, [0x3F800000])
    | 0x05 => (0, [0x42C80000, 0x3B801132, 0xB51B057F, 0xAC932D1D])
    | 0x06 => (1, [0x41C80000])
    | 0x07 => (0, [0, 0x3F800000])
    | 0x08 => (0, [2])
    | 0x09 => (0, [0x3F800000, 0])
    | 0x0A => (0, [0, 0x42C80000])
    | 0x0B => (0, [0x3F800000, 0x41200000, 0, 0, 0, 0x42C80000, 0, 0])
    | 0x0C => (0, [0x3F800000, 0])
    | 0x0D => (0, [0, 0x42C80000, 7600, 41000, w n])
    | 0x0E => (1, [w n, 0, 1000])
    | 0x0F => (0x11, [0x42C80000])
    | 0x10 => (0x10, [0x3F800000])
    | 0x11 => (2, [0, 0x3F800000])
    | 0x12 => (2, [0x461C4000, 0x41C80000, 0x3F800000])
    | 0x13 => (4, [0x3F800000])
    | 0x14 => (3, [10, 0xFFFF])
    | _ => (0, [])
  (r.1, r.2 ++ List.replicate (8 - r.2.length) 0)

/-- A block of the repertoire (R180: BAD_TYPE otherwise). -/
def typeOk (typ : Nat) : Bool := decide (1 ≤ typ) && decide (typ ≤ 0x14)

/-- Whether a block uses a primary input: every one but SRC and RECORD (R170). -/
def usesA (typ : Nat) : Bool := typ != 0x01 && typ != 0x14

/-- Whether a block cannot do without IN_B: SCALE with DIV, DEVIATE, FAILSAFE with trigger 1, RECORD with WHEN = 2. -/
def needsB (typ opt : Nat) : Bool :=
  (typ == 0x09 && opt.testBit 0) || typ == 0x10 || (typ == 0x0E && opt.testBit 1) || (typ == 0x14 && opt % 4 == 2)

/-- Whether a block uses IN_B where one is named (R170). -/
def usesB (typ opt : Nat) : Bool := needsB typ opt || typ == 0x06 || typ == 0x0B || typ == 0x11

/-- The slot that feeds the primary input of slot `b`: 0xF is the slot before; none in slot 0 (R170). -/
def slotA (b inA : Nat) : Option Nat := if inA = 0xF then (if b = 0 then none else some (b - 1)) else some inA

/-! ### Checks (R172, R180, R185 to R195) -/

/-- Parameter `j` of a list. -/
def par (p : List Word) (j : Nat) : Word := nth p j 0

/-- Parameters 0 to n − 1 are numbers (R172). -/
def parsFin (p : List Word) (n : Nat) : Bool := (List.range n).all fun j => fFin (par p j)

/-- Whether the points of a table of `n` are numbers with rising x (R186). -/
def tableOk (t : List Word) (n : Nat) : Bool :=
  (List.range (2 * n)).all (fun i => fFin (par t i)) &&
    (List.range (n - 1)).all fun i => fLt (par t (2 * i)) (par t (2 * i + 2))

/-- Whether a block's parameters and options pass its check (R180: BAD_PARAM otherwise). -/
def blkCheck (typ opt : Nat) (p table : List Word) : Bool :=
  let u (j : Nat) : Nat := (par p j).toNat
  match typ with
  | 0x01 =>
    decide (opt % 8 ≤ 4) && opt / 16 % 4 != 3 && fFin (par p 1) &&
      (if opt % 8 ≤ 1 then channelOk (u 0) else if opt % 8 = 2 then decide (u 0 ≤ 15)
       else if opt % 8 = 3 then decide (u 0 / 16 ≤ 15) else true)
  | 0x02 => decide (1 ≤ u 0) && decide (u 0 ≤ 64)
  | 0x03 => parsFin p 1 && fLe 0 (par p 0)
  | 0x04 =>
    parsFin p 5 && fLt (fAbs (par p 4)) fOne &&
      (match fAdd fOne (par p 4) with | some b => fLt (fAbs (par p 3)) b | none => false)
  | 0x05 => parsFin p 4 && fLt 0 (par p 0)
  | 0x06 => parsFin p 1
  | 0x07 => parsFin p 8
  | 0x08 => decide (2 ≤ u 0) && decide (u 0 ≤ 32) && tableOk table (u 0)
  | 0x09 => parsFin p 2
  | 0x0A => parsFin p 2 && fLe (par p 0) (par p 1)
  | 0x0B => parsFin p 8 && fLt (par p 4) (par p 5) && fLe 0 (par p 1) && fLe 0 (par p 2) && fLe 0 (par p 3)
  | 0x0C => parsFin p 2
  | 0x0D => parsFin p 2 && fKey (par p 0) != fKey (par p 1) && decide (u 2 ≤ u 3) && decide (u 3 ≤ 48000) && decide (u 4 ≤ 15)
  | 0x0F => parsFin p 3 && fLe 0 (par p 2)
  | 0x10 => parsFin p 2
  | 0x11 => parsFin p 2
  | 0x12 => parsFin p 3 && fLe 0x447A0000 (par p 0) && fLe (par p 0) 0x47435000
  | 0x13 => parsFin p 1 && opt % 4 != 3
  | 0x14 => decide (1 ≤ u 0) && decide (u 0 ≤ 65535)
  | _ => true

/-! ### One activation -/

/-- What an activation of a block has at hand (R177): the lane's state and manual word, the interval in TB ticks, whether its
statistics close (`lot`: a lot change, `stats`: RESET_STATS), CLEAR_LATCH, whether it is the first since RUN, its start, the
table, the value of its SRC, the outputs of the slots before it, and the keeper core's form. -/
structure Act where
  hold   : Bool := false
  man    : Option Word := none
  ticks  : Nat := 0
  lot    : Bool := false
  stats  : Bool := false
  latch  : Bool := false
  first  : Bool := false
  start  : Nat := 0
  table  : List Word := []
  src    : Val := (0, 0)
  out    : List Val := []
  keeper : Bool := false
  frozen : Bool := false
  deriving DecidableEq, Repr

/-- A slot as an activation finds it: its options, parameters, state words, block state, last Y, whether it is set (BLK_Q.ACTIVE),
and its inputs. -/
structure SlotIn where
  opt : Nat
  p   : List Word
  st  : List Word
  b   : Blk
  y   : Word
  act : Bool
  a   : Val
  ib  : Option Val
  deriving DecidableEq, Repr

/-- What a block does outside its lane's own registers. -/
inductive Eff where
  | loopSet (port counts : Nat)
  | fsForce (port : Nat) (on : Bool)
  | seqStart
  | urgent
  | alarm (set : Bool) (event : Bool) (v : Word)
  | entered
  | record (ring : Bool) (vals : Nat)
  deriving DecidableEq, Repr

/-- A block's result: Y, Q, the upper bits of BLK_Q, state words, block state and effects. -/
structure Res where
  y    : Word
  q    : Nat
  bits : Word := 0
  st   : List Word
  b    : Blk
  eff  : List Eff := []
  deriving DecidableEq, Repr

/-- Y and Q alone. -/
def SlotIn.give (i : SlotIn) (y : Word) (q : Nat) : Res := { y := fFlush y, q, st := i.st, b := i.b }

/-- Δt in seconds as binary32: TB ticks ÷ 12 288 000. -/
def secs (ticks : Nat) : Option Word := fOfRatio ticks 12288000

/-! ### Sources and filters (R185) -/

/-- SRC: its value and Q as the snapshot holds them; REQ in RUN (R80, R84). -/
def blkSrc (c : Act) (i : SlotIn) : Option Res :=
  let req := i.opt / 16 % 4
  let eff := if c.hold then [] else if req = 1 then [Eff.seqStart] else if req = 2 then [Eff.urgent] else []
  if i.opt % 8 = 4 then some { i.give (par i.p 1) 0 with eff } else some { i.give c.src.1 c.src.2 with eff }

/-- The sum of a list of words, oldest first and each partial sum rounded: R185 gives a mean and no order (the model's choice: log entry 89). -/
def fSum (l : List Word) : Option Word := l.foldlM (fun t x => fAdd t x) 0

/-- AVG: the mean of the last N inputs accepted. -/
def blkAvg (i : SlotIn) : Option Res :=
  let n := (par i.p 0).toNat
  let h := if qBad i.a.2 && !i.opt.testBit 0 then i.b.hist else i.b.hist ++ [i.a.1]
  let h := h.drop (h.length - n)
  if h.isEmpty then some (i.give i.a.1 i.a.2)
  else do
    let t ← fSum h
    let k ← fOfInt h.length
    let y ← fDiv t k
    some { i.give y i.a.2 with b := { i.b with hist := h } }

/-- IIR1: y + α(x − y), α = 1 − exp(−Δt / TAU). -/
def blkIir1 (c : Act) (i : SlotIn) : Option Res :=
  let y0 := nth i.b.w 0 0
  let keep (y : Word) : Res := { i.give y i.a.2 with b := { i.b with begun := true, w := [fFlush y] } }
  if qBad i.a.2 then some (i.give (if i.b.begun then y0 else 0) i.a.2)
  else if !i.b.begun || fZero (par i.p 0) then some (keep i.a.1)
  else do
    let dt ← secs c.ticks
    let ex ← fDiv (fNeg dt) (par i.p 0)
    let e ← fExpon ex
    let al ← fSub fOne e
    let d ← fSub i.a.1 y0
    let t ← fMul al d
    let y ← fAdd y0 t
    some (keep y)

/-- IIR2: transposed direct form II (R185); the states of the first good input are those of a steady one. A BAD input gives the last Y, 0
before the first good one, and the steady states are formed by the rounded operations below in this order (both the model's choice: log
entry 89). -/
def blkIir2 (i : SlotIn) : Option Res :=
  let (b0, b1, b2, a1, a2) := (par i.p 0, par i.p 1, par i.p 2, par i.p 3, par i.p 4)
  let x := i.a.1
  if qBad i.a.2 then some (i.give (if i.b.begun then i.y else 0) i.a.2)
  else do
    let xb1 ← fMul b1 x
    let xb2 ← fMul b2 x
    let (s1, s2) ← (if i.b.begun then some (nth i.b.w 0 0, nth i.b.w 1 0)
      else do
        let sb ← fAdd b0 b1
        let sb ← fAdd sb b2
        let sa ← fAdd fOne a1
        let sa ← fAdd sa a2
        let n ← fMul x sb
        let ys ← fDiv n sa
        let s2 ← fSub xb2 (← fMul a2 ys)
        let s1 ← fSub xb1 (← fMul a1 ys)
        let s1 ← fAdd s1 s2
        some (s1, s2))
    let y ← fAdd (← fMul b0 x) s1
    let n1 ← fSub xb1 (← fMul a1 y)
    let n1 ← fAdd n1 s2
    let n2 ← fSub xb2 (← fMul a2 y)
    some { i.give y i.a.2 with b := { i.b with begun := true, w := [n1, n2] } }

/-! ### Linearisation and scaling (R186) -/

/-- R0 (1 + A T + B T² + C (T − 100) T³) at the exact T = n / d, times d⁴ × 2²⁹⁸; the C term only below 0 °C (IEC 60751). -/
def cvd (r0 a b c : Word) (n : Int) (d : Nat) : Int :=
  let f (w : Word) : Int := (fDec w).at_ (-149)
  let d : Int := (d : Int)
  f r0 * (2 ^ 149 * d ^ 4 + f a * n * d ^ 3 + f b * n ^ 2 * d ^ 2 + (if n < 0 then f c * (n - 100 * d) * n ^ 3 else 0))

/-- Whether a temperature word lies within 0.002 °C of the exact inverse for the resistance `r`: `r` lies between the exact
resistances 0.002 °C below and above it (R186). -/
def rtdWithin (r0 a b c r t : Word) : Bool :=
  let (n, k) := (fDec t).frac
  let d : Nat := 500 * 2 ^ k
  let rr : Int := (fDec r).at_ (-149) * 2 ^ 149 * (d : Int) ^ 4
  fFin t && decide (cvd r0 a b c (500 * n - 2 ^ k) d ≤ rr) && decide (rr ≤ cvd r0 a b c (500 * n + 2 ^ k) d)

/-- Callendar–Van Dusen in binary32: the quadratic's root, and three Newton steps on the full equation below R0. -/
def rtdFormula (r0 a b c r : Word) : Option Word := do
  let q ← fDiv r r0
  let q ← fSub fOne q
  let a2 ← fMul a a
  let b4 ← fMul 0x40800000 b
  let t ← fMul b4 q
  let d ← fSqrt (fMax 0 (← fSub a2 t))
  let n ← fAdd (fNeg a) d
  let b2 ← fMul 0x40000000 b
  let t0 ← fDiv n b2
  if fLt r r0 then
    (List.range 3).foldlM (fun t _ => do
      let t2 ← fMul t t
      let t3 ← fMul t2 t
      let f ← fAdd fOne (← fMul a t)
      let f ← fAdd f (← fMul b t2)
      let f ← fAdd f (← fMul (← fMul c (← fSub t 0x42C80000)) t3)
      let f ← fSub (← fMul r0 f) r
      let g ← fAdd a (← fMul b2 t)
      let h ← fSub (← fMul 0x40800000 t3) (← fMul 0x43960000 t2)
      let g ← fAdd g (← fMul c h)
      let g ← fMul r0 g
      fSub t (← fDiv f g)) t0
  else some t0

/-- Limited to lo … hi; true if it was outside. -/
def fLimit (lo hi x : Word) : Word × Bool := if fLt x lo then (lo, true) else if fLt hi x then (hi, true) else (fFlush x, false)

/-- Whether no temperature has the resistance `r`: the quadratic A² − 4B(1 − R/R0) of the formula is negative (R186). -/
def rtdNoRoot (r0 a b r : Word) : Bool :=
  let f (w : Word) : Int := (fDec w).at_ (-149)
  decide (f a * f a * f r0 + 4 * f b * (f r - f r0) * 2 ^ 149 < 0)

/-- LIN_RTD: any method within 0.002 °C (R186): the part's value where it is that near, else the formula's (log entry 6). A resistance that
no temperature has lies outside the range, on the side of R. -/
def blkRtd (i : SlotIn) : Option Res :=
  let (r0, a, b, c) := (par i.p 0, par i.p 1, par i.p 2, par i.p 3)
  let r := i.a.1
  if fLe r 0 then some (i.give 0xC3480000 (i.a.2 ||| qRange))
  else if fFin r && rtdNoRoot r0 a b r then some (i.give (if fLt r r0 then 0xC3480000 else 0x44548000) (i.a.2 ||| qRange))
  else do
    let part := Config.rtdWord r0 a b c r
    let t ← (if rtdWithin r0 a b c r part then some part else rtdFormula r0 a b c r)
    let (y, out) := fLimit 0xC3480000 0x44548000 t
    some (i.give y (qIf out qRange i.a.2))

/-- LIN_TC: E = x + E_ref(T_cj) in volts, then the inverse function (log entry 7). -/
def blkTc (i : SlotIn) : Option Res :=
  let ty := i.opt % 4
  let cj := (i.ib.map (·.1)).getD (par i.p 0)
  let q := i.a.2 ||| (i.ib.map (·.2)).getD 0
  do
    let e ← fAdd i.a.1 (← fDiv (← tcEmf ty cj) 0x447A0000)
    let (y, out) ← tcTemp ty (← fMul e 0x447A0000)
    some (i.give y (qIf out qRange q))

/-- LIN_POLY: Horner's rule. -/
def blkPoly (i : SlotIn) : Option Res := do
  let y ← (List.range 7).foldlM (fun y k => do fAdd (← fMul y i.a.1) (par i.p (6 - k))) (par i.p 7)
  some (i.give y i.a.2)

/-- LIN_TABLE: linear interpolation; outside, the end value or the end segment extended (R186). DESIGN CHOICE, log entry 86: the order of
its rounded operations, for which R186 prints no formula. -/
def blkTable (c : Act) (i : SlotIn) : Option Res :=
  let n := clampNat 2 32 (par i.p 0).toNat
  let x := i.a.1
  let px (k : Nat) : Word := par c.table (2 * k)
  let py (k : Nat) : Word := par c.table (2 * k + 1)
  let low := fLt x (px 0)
  let high := fLt (px (n - 1)) x
  let k := min (n - 2) (((List.range n).filter fun k => fLe (px k) x).length - 1)
  if (low || high) && !i.opt.testBit 0 then some (i.give (if low then py 0 else py (n - 1)) (i.a.2 ||| qRange))
  else do
    let d ← fSub x (px k)
    let h ← fSub (py (k + 1)) (py k)
    let w ← fSub (px (k + 1)) (px k)
    let y ← fAdd (py k) (← fDiv (← fMul d h) w)
    some (i.give y (qIf (low || high) qRange i.a.2))

/-- SCALE: GAIN × x + OFFSET, or GAIN × x / b + OFFSET. -/
def blkScale (i : SlotIn) : Option Res := do
  let g ← fMul (par i.p 0) i.a.1
  let b := i.ib.getD (0, 0)
  let div := i.opt.testBit 0
  let g ← (if div then fDiv g b.1 else some g)
  let y ← fAdd g (par i.p 1)
  some (i.give y (if div then i.a.2 ||| b.2 else i.a.2))

/-- CLAMP: min(max(x, LO), HI). -/
def blkClamp (i : SlotIn) : Option Res :=
  let y := fMin (fMax i.a.1 (par i.p 0)) (par i.p 1)
  some (i.give y (qIf (fKey y != fKey i.a.1) qRange i.a.2))

/-! ### Control (R187, R189 to R191) -/

/-- The terms P, I, D of the PID law with the parameters KP, TI, TD, TF (R189). -/
def pidLaw (k : List Word) (s : Word) (sp pv pv0 i0 d0 dt : Word) : Option (Word × Word × Word) := do
  let (kp, ti, td, tf) := (par k 0, par k 1, par k 2, par k 3)
  let e ← fMul s (← fSub sp pv)
  let p ← fMul kp e
  let a ← fDiv dt (← fAdd tf dt)
  let g ← fMul (← fMul s kp) td
  let g ← fMul g (← fSub pv0 pv)
  let g ← fSub (← fDiv g dt) d0
  let d ← fAdd d0 (← fMul a g)
  let ii ← (if fLt 0 ti then do fAdd i0 (← fDiv (← fMul (← fMul kp dt) e) ti) else some i0)
  some (p, ii, d)

/-- P alone: the first activation has D = 0 and I = BIAS. -/
def pidFirst (kp s sp pv bias : Word) : Option (Word × Word × Word) := do
  let p ← fMul kp (← fMul s (← fSub sp pv))
  some (p, bias, 0)

/-- The manual word limited to a range; a NaN is no number. -/
def manLimit (lo hi m : Word) : Option (Word × Bool) := if fNan m then none else some (fLimit lo hi m)

/-- PID (R189): state words I, D, PV_prev, u. -/
def blkPid (c : Act) (i : SlotIn) : Option Res :=
  let sp := (i.ib.map (·.1)).getD (par i.p 6)
  let q := i.a.2 ||| (i.ib.map (·.2)).getD 0
  let (lo, hi) := (par i.p 4, par i.p 5)
  let k := i.p.take 4
  let (i0, d0, pv0, u0) := (par i.st 0, par i.st 1, par i.st 2, par i.st 3)
  let bad := qBad i.a.2
  let bits : Word := if bad then Fld.BLK_Q_PV_BAD.put 1 else 0
  let q := qIf c.man.isSome qManual q
  if c.hold then some { i.give u0 q with bits }
  else if bad then
    match c.man with
    | none => some { i.give u0 q with bits }
    | some m => do
      let (u, out) ← manLimit lo hi m
      some { i.give u (qIf out qRange q) with bits, st := [i0, d0, pv0, u] }
  else do
    let s : Word := if i.opt.testBit 0 then 0xBF800000 else fOne
    let pv := i.a.1
    let dt ← secs c.ticks
    let (p, ii, d) ← (if i.b.begun then pidLaw k s sp pv pv0 i0 d0 dt else pidFirst (par k 0) s sp pv (par i.p 7))
    let ii ← (if i.b.begun && i.b.w != k && !i.b.w.isEmpty then do
        let (po, io, do_) ← pidLaw i.b.w s sp pv pv0 i0 d0 dt
        let uo ← fAdd (← fAdd po io) do_
        fSub (← fSub (fLimit lo hi uo).1 p) d
      else some ii)
    let (u, ii, out) ← (match c.man with
      | some m => do
        let (u, out) ← manLimit lo hi m
        some (u, ← fSub (← fSub u p) d, out)
      | none => do
        let u ← fAdd (← fAdd p ii) d
        let (v, out) := fLimit lo hi u
        if out then some (v, ← fSub (← fSub v p) d, true) else some (u, ii, false))
    some { i.give u (qIf out qRange q) with bits, st := [ii, d, pv, u], b := { i.b with begun := true, w := k } }

/-- RAMP: the step limited by RATE_UP and RATE_DN per second. -/
def blkRamp (c : Act) (i : SlotIn) : Option Res :=
  let up := par i.p 0
  let dn := if fZero (par i.p 1) then up else par i.p 1
  let x := i.a.1
  let keep (y : Word) (out : Bool) : Res :=
    { i.give y (qIf out qRange i.a.2) with b := { i.b with begun := true, w := [fFlush y] } }
  if !i.b.begun then some (keep x false)
  else do
    let y0 := nth i.b.w 0 0
    let dt ← secs c.ticks
    let d0 ← fSub x y0
    let d ← (if fZero dn then some d0 else do some (fMax d0 (← fMul (fNeg dn) dt)))
    let d ← (if fZero up then some d else do some (fMin d (← fMul up dt)))
    let y ← fAdd y0 d
    some (keep y (fKey d != fKey d0))

/-- A flag of PORT_STATUS as a lane reads it, also while CK is lost at the port's die or its link is down (log entry 87); no flag stands where the
port has no power. -/
def State.lanePort (s : State) (n : Nat) (f : Fld) : Bool := decide (n < 16) && s.portPowered n && s.flag (Reg.PORT_STATUS n) f

/-- What LOOP_OUT does with its counts in one activation (R190): HELD_OFF, and the release write of LOOP_SET. -/
def loopOutDo (s : State) (c : Act) (i : SlotIn) (counts : Nat) : Word × List Eff :=
  let port := (par i.p 4).toNat
  let held := !c.keeper && !i.opt.testBit 0 && s.lanePort port Fld.PORT_STATUS_FAILSAFE
  (if !c.hold && held then Fld.BLK_Q_HELD_OFF.put 1 else 0,
   if c.hold || c.frozen || held then [] else [Eff.loopSet port counts])

/-- LOOP_OUT (R190): counts = round(8000 + 32000 × (x − LO) / (HI − LO)), limited. -/
def blkLoopOut (s : State) (c : Act) (i : SlotIn) : Option Res :=
  let (cmin, cmax) := ((par i.p 2).toNat, (par i.p 3).toNat)
  do
    let (cnt, out) ← (match c.man with
      | some m => do
        let lo ← fOfInt cmin
        let hi ← fOfInt cmax
        let (v, out) ← manLimit lo hi m
        some (fToInt v, out)
      | none => do
        let t ← fMul 0x46FA0000 (← fSub i.a.1 (par i.p 0))
        let v ← fAdd 0x45FA0000 (← fDiv t (← fSub (par i.p 1) (par i.p 0)))
        let raw := fToInt v
        some (clampInt cmin cmax raw, decide (raw < cmin) || decide ((cmax : Int) < raw)))
    let y ← fOfInt cnt
    let q := qIf out qRange (qIf c.man.isSome qManual i.a.2)
    let (bits, eff) := loopOutDo s c i cnt.toNat
    some { i.give y q with bits, eff }

/-- Whether a condition, present or absent since `since`, has lasted `ms` milliseconds at `now`. -/
def lasted (since : Option Nat) (now ms : Nat) : Bool :=
  match since with
  | none => false
  | some t => decide (t + msCk ms ≤ now)

/-- The instants since which a condition has held and has been absent, at an activation that finds it `on`. -/
def timing (b : Blk) (now : Nat) (on : Bool) : Option Nat × Option Nat :=
  if on then (some (b.onSince.getD now), none) else (none, some (b.offSince.getD now))

/-- FAILSAFE (R191). -/
def blkFailsafe (s : State) (c : Act) (i : SlotIn) : Option Res :=
  let port := (par i.p 0).toNat
  let q := if i.opt.testBit 1 then i.a.2 ||| (i.ib.map (·.2)).getD 0 else i.a.2
  let cond := (i.opt.testBit 0 && qBad i.a.2) || (i.opt.testBit 1 && !fZero ((i.ib.map (·.1)).getD 0)) ||
    (i.opt.testBit 2 && s.lanePort port Fld.PORT_STATUS_LOOP_HEADROOM) ||
    (i.opt.testBit 3 && s.lanePort port Fld.PORT_STATUS_LOOP_MISMATCH)
  let b := if i.act && c.latch then { i.b with canLeave := true } else i.b
  let give (on : Bool) (b : Blk) (eff : List Eff) : Res :=
    { i.give (if on then fOne else 0) q with
      bits := if on then Fld.BLK_Q_ACTIVE.put 1 ||| Fld.BLK_Q_LATCHED.put (b2n (i.opt.testBit 4 && !b.canLeave)) else 0
      b := b, eff := eff }
  if c.hold then some (give i.act { b with onSince := none, offSince := none } [])
  else
    let (on, off) := timing b c.start cond
    let b := { b with onSince := on, offSince := off }
    if !i.act && lasted on c.start (par i.p 1).toNat then
      some (give true { b with canLeave := false } [.fsForce port true, .entered])
    else if i.act && lasted off c.start (par i.p 2).toNat && (!i.opt.testBit 4 || b.canLeave) then
      some (give false b [.fsForce port false])
    else some (give i.act b [])

/-! ### Alarms (R188) -/

/-- The shared part of LIMIT and DEVIATE: `trip` the condition, `clear` its absence, `v` the value an EVENT carries. -/
def alarmRes (c : Act) (i : SlotIn) (trip clear : Bool) (onMs offMs q : Nat) (v : Word) : Res :=
  let b := { i.b with onSince := if trip then some (i.b.onSince.getD c.start) else none,
                      offSince := if clear then some (i.b.offSince.getD c.start) else none }
  let sets := !i.act && trip && lasted b.onSince c.start onMs
  let clears := i.act && clear && lasted b.offSince c.start offMs
  let on := sets || (i.act && !clears)
  let ev := i.opt.testBit 3
  { i.give (if on then fOne else 0) q with
    bits := Fld.BLK_Q_ACTIVE.put (b2n on)
    b := if sets || clears then { b with onSince := none, offSince := none } else b
    eff := if sets then .alarm true ev v :: (if i.opt.testBit 2 && !c.hold then [.urgent] else [])
           else if clears then [.alarm false ev v] else [] }

/-- LIMIT; the bound of a side that is not enabled is not computed. -/
def blkLimit (c : Act) (i : SlotIn) : Option Res := do
  let x := i.a.1
  let bad := qBad i.a.2
  let h ← (if i.opt.testBit 0 then fSub (par i.p 0) (par i.p 2) else some 0)
  let l ← (if i.opt.testBit 1 then fAdd (par i.p 1) (par i.p 2) else some 0)
  let trip := (i.opt.testBit 0 && fLt (par i.p 0) x) || (i.opt.testBit 1 && fLt x (par i.p 1)) || (i.opt.testBit 4 && bad)
  let clear := !bad && (!i.opt.testBit 0 || fLe x h) && (!i.opt.testBit 1 || fLe l x)
  some (alarmRes c i trip clear (par i.p 3).toNat (par i.p 4).toNat i.a.2 x)

/-- DEVIATE: a BAD input trips with BAD_TRIPS and then keeps the alarm; without BAD_TRIPS the difference alone counts. -/
def blkDeviate (c : Act) (i : SlotIn) : Option Res := do
  let b := i.ib.getD (0, 0)
  let bad := i.opt.testBit 4 && (qBad i.a.2 || qBad b.2)
  let d ← fSub i.a.1 b.1
  let t ← fSub (par i.p 0) (par i.p 1)
  let trip := fLt (par i.p 0) (fAbs d) || bad
  some (alarmRes c i trip (!bad && fLe (fAbs d) t) (par i.p 2).toNat (par i.p 3).toNat (i.a.2 ||| b.2) d)

/-! ### Integrals and statistics (R193, R194) -/

/-- One step of compensated summation: the sum and its compensation. -/
def kahan (s k x : Word) : Option (Word × Word) := do
  let y ← fSub x k
  let t ← fAdd s y
  let d ← fSub t s
  some (t, ← fSub d y)

/-- The state words an interval adds to: zeros after a restart or at a cold start (R184, R193). -/
def statBase (i : SlotIn) : List Word := if i.b.restart || !i.b.begun then [0, 0, 0, 0] else i.st

/-- The interval limited to DT_MAX, which counts to the nearest tick (log entry 56): ticks, seconds, and whether it was cut. -/
def interval (c : Act) (max : Word) : Option (Nat × Word × Bool) :=
  let (n, k) := (fDec max).frac
  let m := (roundDiv (n * 12288000) (2 ^ k)).toNat
  if m < c.ticks then some (m, fMax max 0, true)
  else (secs c.ticks).map fun w => (c.ticks, w, false)

/-- DWELL: time at or above THRESH in ticks, or the integral above it. -/
def blkDwell (c : Act) (i : SlotIn) : Option Res := do
  let st := statBase i
  let badT := if i.b.restart || !i.b.begun then 0 else i.b.badTicks
  let lvl := !fZero ((i.ib.map (·.1)).getD 0)
  let edge := !c.first && lvl && !i.b.prevB
  let q := i.a.2 ||| (i.ib.map (·.2)).getD 0
  let (t, dt, cut) ← interval c (par i.p 1)
  let x := i.a.1
  let bad := qBad i.a.2
  let integral := i.opt.testBit 0
  let badT := if bad then badT + t else badT
  let (w0, w1) ← (if bad then some (par st 0, par st 1)
    else if integral then do
      let e ← fSub x (par i.p 0)
      kahan (par st 0) (par st 1) (← fMul dt (fMax e 0))
    else
      let n := (pair64 (par st 1) (par st 0)).toNat + (if fLe (par i.p 0) x then t else 0)
      some (lo32 (BitVec.ofNat 64 n), hi32 (BitVec.ofNat 64 n)))
  let y ← (if integral then some w0 else fOfRatio (pair64 w1 w0).toNat 12288000)
  some { i.give y q with
    bits := Fld.BLK_Q_GAP.put (b2n cut)
    st := [w0, w1, BitVec.ofNat 32 (badT / 12288), par st 3 + BitVec.ofNat 32 (b2n cut)]
    b := { i.b with begun := true, badTicks := badT, restart := (c.lot && i.opt.testBit 1) || c.stats || edge } }

/-- MKT: the mean kinetic temperature; state words S, its compensation, Σt, its compensation. -/
def blkMkt (c : Act) (i : SlotIn) : Option Res := do
  let st := statBase i
  let (x, out) := fLimit 0xC2480000 0x43160000 i.a.1
  let (_, dt, cut) ← interval c (par i.p 2)
  let tr ← fAdd (par i.p 1) 0x43889333
  let ir ← fDiv fOne tr
  let (s, cs, t, ct) ← (if qBad i.a.2 then some (par st 0, par st 1, par st 2, par st 3)
    else do
      let tk ← fAdd x 0x43889333
      let d ← fSub (← fDiv fOne tk) ir
      let w ← fExpon (← fMul (fNeg (par i.p 0)) d)
      let (s, cs) ← kahan (par st 0) (par st 1) (← fMul w dt)
      let (t, ct) ← kahan (par st 2) (par st 3) dt
      some (s, cs, t, ct))
  let y ← (if fLt 0 t then do
      let l ← fLn (← fDiv s t)
      let r ← fSub ir (← fDiv l (par i.p 0))
      fSub (← fDiv fOne r) 0x43889333
    else some x)
  some { i.give y (qIf out qRange i.a.2) with
    bits := Fld.BLK_Q_GAP.put (b2n cut)
    st := [s, cs, t, ct]
    b := { i.b with begun := true, restart := (c.lot && i.opt.testBit 1) || c.stats } }

/-- MINMAX: state words min, max, Σ x × Δt, Σ Δt; `hist` notes that an input has been accepted since the start. -/
def blkMinmax (c : Act) (i : SlotIn) : Option Res := do
  let st := statBase i
  let has := !(i.b.restart || !i.b.begun) && !i.b.hist.isEmpty
  let (_, dt, cut) ← interval c (par i.p 0)
  let x := i.a.1
  let good := !qBad i.a.2
  let (sx, sd) ← (if good then do
      let sx ← fAdd (par st 2) (← fMul x dt)
      some (sx, ← fAdd (par st 3) dt)
    else some (par st 2, par st 3))
  let mn ← (if !good then some (par st 0) else if has then fNumber (par st 0) (fMin (par st 0) x) else some x)
  let mx ← (if !good then some (par st 1) else if has then fNumber (par st 1) (fMax (par st 1) x) else some x)
  let any := has || good
  let y ← (if !any then some x else match i.opt % 4 with
    | 0 => some mn
    | 1 => some mx
    | _ => fDiv sx sd)
  some { i.give y i.a.2 with
    bits := Fld.BLK_Q_GAP.put (b2n cut)
    st := [mn, mx, sx, sd]
    b := { i.b with begun := true, hist := if any then [x] else [],
                    restart := (c.lot && i.opt.testBit 2) || c.stats } }

/-! ### RECORD (R195) -/

/-- RECORD: whether its trigger fires. -/
def blkRecord (c : Act) (i : SlotIn) : Option Res :=
  let q := if i.opt % 4 = 2 then (i.ib.map (·.2)).getD 0 else 0
  let lvl := !fZero ((i.ib.map (·.1)).getD 0)
  let n := i.b.count + 1
  let dec := max 1 (par i.p 0).toNat
  let w := i.opt % 4
  let fire := if w = 0 then true else if w = 1 then decide (dec ≤ n) else if w = 2 then !c.first && lvl && !i.b.prevB else c.lot
  some { i.give (if fire then fOne else 0) q with
    bits := Fld.BLK_Q_ACTIVE.put (b2n fire)
    b := { i.b with count := if dec ≤ n then 0 else n }
    eff := if fire then [Eff.record (i.opt.testBit 2) ((par i.p 1).toNat % 65536)] else [] }

/-! ### Any block -/

/-- What one activation of a block computes, or none where a NaN or an infinity arises (R172). -/
def blkEval (s : State) (c : Act) (typ : Nat) (i : SlotIn) : Option Res :=
  match typ with
  | 0x01 => blkSrc c i
  | 0x02 => blkAvg i
  | 0x03 => blkIir1 c i
  | 0x04 => blkIir2 i
  | 0x05 => blkRtd i
  | 0x06 => blkTc i
  | 0x07 => blkPoly i
  | 0x08 => blkTable c i
  | 0x09 => blkScale i
  | 0x0A => blkClamp i
  | 0x0B => blkPid c i
  | 0x0C => blkRamp c i
  | 0x0D => blkLoopOut s c i
  | 0x0E => blkFailsafe s c i
  | 0x0F => blkLimit c i
  | 0x10 => blkDeviate c i
  | 0x11 => blkDwell c i
  | 0x12 => blkMkt c i
  | 0x13 => blkMinmax c i
  | _ => blkRecord c i

/-- Whether a block's statistics close in this activation (R193). -/
def closes (c : Act) (typ opt : Nat) : Bool :=
  (decide (0x11 ≤ typ) && decide (typ ≤ 0x13)) && (c.stats || (c.lot && (if typ = 0x13 then opt.testBit 2 else opt.testBit 1)))

/-- A block's result, unless its Y is a NaN or an infinity: a state word or a held output can be one (R172, R184). -/
def Res.number (r : Res) : Option Res := if fFin r.y then some r else none

/-- The activation of a block with R172 around it: where no number comes about, the previous Y with NONFINITE, the state as it
was; the manual point keeps MANUAL (R183), and LOOP_OUT still writes, with the counts of the Y it delivers (R190; DEDUCED, log entry 76).
True if that happened. The level of IN_B is taken in every activation, and a restart that falls due in it is kept (R193, R194). -/
def blkRun (s : State) (c : Act) (typ : Nat) (i : SlotIn) : Res × Bool :=
  let lvl := !fZero ((i.ib.map (·.1)).getD 0)
  match (blkEval s c typ i).bind Res.number with
  | some r => ({ r with b := { r.b with prevB := lvl, ran := true } }, false)
  | none =>
    let q := i.a.2 ||| (if usesB typ i.opt then (i.ib.map (·.2)).getD 0 else 0)
    let (bits, eff) := if typ = 0x0D then loopOutDo s c i (fToInt i.y).toNat
      else if typ = 0x0B then (Fld.BLK_Q_PV_BAD.put (b2n (qBad i.a.2)), []) else (Fld.BLK_Q_ACTIVE.put (b2n i.act), [])
    ({ y := i.y, q := qIf c.man.isSome qManual (q ||| qNonfinite), bits, eff, st := i.st,
       b := { i.b with prevB := lvl, ran := true,
                       restart := i.b.restart || closes c typ i.opt || (typ == 0x11 && !c.first && lvl && !i.b.prevB) } }, true)

end Sys2Proof.Machine
end

