-- ==== Sys2Proof/Machine/Codes.lean ====
section
/-! DEFINITION. The trunk's spreading codes (spec/10, R223, R224) and LDPC codes (spec/11, R246 to R249), and the CRC of header and
tone frame (R156). -/

namespace Sys2Proof.Machine

/-! ### Spreading codes (R223, R224) -/

/-- A 7-stage register, bit 6 s1 and bit 0 s7, shifted once with feedback from the stages of `taps`. -/
def goldShift (taps r : BitVec 7) : BitVec 7 :=
  let f := ((r &&& taps).toNat.testBit 0 != (r &&& taps).toNat.testBit 4) !=
    ((r &&& taps).toNat.testBit 5 != (r &&& taps).toNat.testBit 6)
  (r >>> 1) ||| (if f then 0x40 else 0)

/-- The first `n` outputs of a register. -/
def goldRun (taps : BitVec 7) : Nat → BitVec 7 → List Bool
  | 0, _ => []
  | n + 1, r => r.getLsbD 0 :: goldRun taps n (goldShift taps r)

/-- Register A: s7 ⊕ s3, from all ones. -/
def goldA : List Bool := goldRun 0x11 127 0x7F

/-- Register B: s7 ⊕ s3 ⊕ s2 ⊕ s1, from the value code index `c` selects. -/
def goldB (c : Nat) : List Bool :=
  goldRun 0x71 127 (match c with | 0 => 0b0000001 | 1 => 0b0101101 | 2 => 0b1010110 | _ => 0b1110011)

/-- The 127-chip sequence of a code index. -/
def goldChips (c : Nat) : List Bool := List.zipWith (fun a b => a != b) goldA (goldB c)

/-- The last `k` chips of value `v`, counted back from the end, inverted; `w` is the window from its end. -/
def flipBack (v : Bool) : Nat → List Bool → List Bool
  | _, [] => []
  | 0, w => w
  | k + 1, x :: w => if x = v then (!x) :: flipBack v k w else x :: flipBack v (k + 1) w

/-- The balanced window (R224). -/
def balance (w : List Bool) : List Bool :=
  let ones := w.count true
  let zeros := w.length - ones
  if zeros < ones then (flipBack true ((ones - zeros) / 2) w.reverse).reverse
  else (flipBack false ((zeros - ones) / 2) w.reverse).reverse

/-- The code of an SF field (0 SF8, 1 SF16, 2 SF32, 3 SF64) and a code index. -/
def spreadCode (sf c : Nat) : List Bool :=
  let (o, n) := match sf with | 0 => (0, 8) | 1 => (8, 16) | 2 => (24, 32) | _ => (56, 64)
  balance (((goldChips c).drop o).take n)

/-- Chips as a number, chip j in bit j. -/
def chipWord : List Bool → Nat
  | [] => 0
  | b :: bs => b2n b + 2 * chipWord bs

/-! ### LDPC encoding (R246 to R249) -/

/-- A code of R246: lifting factor, base rows, information columns, row step. -/
structure Ldpc where
  z    : Nat
  mb   : Nat
  kb   : Nat
  step : Nat
  deriving DecidableEq, Repr

/-- The header code. -/
def ldpcHeader : Ldpc := ⟨16, 8, 8, 3⟩

/-- The payload code of an SF field (R251). -/
def ldpcPayload (sf : Nat) : Ldpc := match sf with | 0 => ⟨64, 4, 20, 1⟩ | 1 => ⟨64, 8, 16, 3⟩ | _ => ⟨64, 12, 12, 5⟩

/-- Row `r` has an entry in information column `c` (R247). -/
def Ldpc.has (l : Ldpc) (r c : Nat) : Bool := (List.range 3).any fun t => (c + t * l.step) % l.mb == r

/-- The shift p(r, c) of an information entry. -/
def Ldpc.shift (l : Ldpc) (r c : Nat) : Nat := (11 * (c + 1) * (2 * r + 1) + 5 * r) % l.z

/-- shift(x, p)[i] = x[(i + p) mod Z]. -/
def blockShift (x : List Bool) (p : Nat) : List Bool := x.drop p ++ x.take p

/-- The sum of two blocks. -/
def blockXor (x y : List Bool) : List Bool := List.zipWith (fun a b => a != b) x y

/-- Block `c` of a list of bits. -/
def Ldpc.block (l : Ldpc) (u : List Bool) (c : Nat) : List Bool := (u.drop (c * l.z)).take l.z

/-- lam[r]: the sum of row r's information blocks. -/
def Ldpc.lam (l : Ldpc) (u : List Bool) (r : Nat) : List Bool :=
  (List.range l.kb).foldl (fun acc c => if l.has r c then blockXor acc (blockShift (l.block u c) (l.shift r c)) else acc)
    (List.replicate l.z false)

/-- The parity blocks q_0 … q_(mb−1) (R248). -/
def Ldpc.parity (l : Ldpc) (u : List Bool) : List (List Bool) :=
  let lam := (List.range l.mb).map fun r => l.lam u r
  let zero := List.replicate l.z false
  let q0 := lam.foldl blockXor zero
  let q1 := blockXor (nth lam 0 zero) (blockShift q0 1)
  q0 :: (List.range (l.mb - 2)).foldl (fun (qs : List (List Bool)) i =>
    let r := i + 1
    let q := blockXor (blockXor (nth lam r zero) (qs.getLastD zero)) (if r = l.mb / 2 then q0 else zero)
    qs ++ [q]) [q1]

/-- The codeword of the information bits (R248). -/
def Ldpc.encode (l : Ldpc) (u : List Bool) : List Bool := u ++ (l.parity u).flatten

/-- A byte's bits, bit 7 first. -/
def byteBits (b : Byte) : List Bool := (List.range 8).map fun i => b.getLsbD (7 - i)

/-- Eight bits at a time as bytes, bit 7 first. -/
def bitBytes (n : Nat) (l : List Bool) : List Byte :=
  (List.range n).map fun i => BitVec.ofNat 8 (((l.drop (8 * i)).take 8).foldl (fun a b => 2 * a + b2n b) 0)

/-- The coded header, bits 0 to 255 as 32 bytes with bit 0 the first one's bit 7 (R249). -/
def codeHeader (h : BitVec 128) : List Byte :=
  bitBytes 32 (ldpcHeader.encode ((List.range 128).map fun i => h.getLsbD (127 - i)))

/-- Message bytes in a codeword of an SF field (R251). -/
def cwBytes (sf : Nat) : Nat := match sf with | 0 => 160 | 1 => 128 | _ => 96

/-- The largest message at an SF field (R251). -/
def maxMessage (sf : Nat) : Nat := 3 * cwBytes sf

/-- The coded payload: per codeword its 1536 bits as 192 bytes, bytes beyond the message 0 (R249). -/
def codePayload (sf : Nat) (msg : List Byte) : List (List Byte) :=
  let k := cwBytes sf
  (List.range ((msg.length + k - 1) / k)).map fun i =>
    bitBytes 192 ((ldpcPayload sf).encode ((sliceBytes msg (k * i) k).flatMap byteBits))

/-! ### LDPC decoding (R250) -/

/-- The entries of base row `r`: columns with their shifts (R247). -/
def Ldpc.row (l : Ldpc) (r : Nat) : List (Nat × Nat) :=
  ((List.range l.kb).filter fun c => l.has r c).map (fun c => (c, l.shift r c)) ++
    (if r = 0 ∨ r + 1 = l.mb then [(l.kb, 1)] else if r = l.mb / 2 then [(l.kb, 0)] else []) ++
    (if r = 0 then [] else [(l.kb + r, 0)]) ++ (if r + 1 = l.mb then [] else [(l.kb + r + 1, 0)])

/-- The parity checks, layer by layer in ascending order: the codeword bits each one sums. -/
def Ldpc.checks (l : Ldpc) : List (List Nat) :=
  (List.range l.mb).flatMap fun r => (List.range l.z).map fun i => (l.row r).map fun e => e.1 * l.z + (i + e.2) % l.z

/-- What a check tells one of its bits: the sign of the product of the others, the least of their magnitudes, times 0.75. -/
def minSum (others : List Rat) : Rat :=
  let mag := match others.map fun x => if x < 0 then -x else x with
    | [] => 0
    | x :: xs => xs.foldl min x
  (3 / 4 : Rat) * (if (others.countP fun x => decide (x < 0)) % 2 = 0 then mag else -mag)

/-- One check: what it told its bits before is taken off, what it tells them now is put on. -/
def checkStep (post : Array Rat) (bits : List Nat) (old : List Rat) : Array Rat × List Rat :=
  let q := List.zipWith (fun b m => post.getD b 0 - m) bits old
  let new := (List.range q.length).map fun k => minSum (q.eraseIdx k)
  ((List.zip bits (List.zipWith (· + ·) q new)).foldl (fun p e => p.setIfInBounds e.1 e.2) post, new)

/-- One iteration over every layer. -/
def layers (post : Array Rat) : List (List Nat × List Rat) → Array Rat × List (List Nat × List Rat)
  | [] => (post, [])
  | (bits, old) :: cs =>
    let (post, new) := checkStep post bits old
    let (post, cs) := layers post cs
    (post, (bits, new) :: cs)

/-- The hard decision of bit `i`: positive is 0. -/
def hardBit (post : Array Rat) (i : Nat) : Bool := decide (post.getD i 0 < 0)

/-- Whether the syndrome is zero. -/
def syndromeOk (post : Array Rat) (cs : List (List Nat × List Rat)) : Bool :=
  cs.all fun c => (c.1.countP (hardBit post)) % 2 == 0

/-- At most `n` more iterations after `done`: whether the syndrome is zero, the iterations used, the last posterior values. -/
def decodeRun : (n done : Nat) → Array Rat → List (List Nat × List Rat) → Bool × Nat × Array Rat
  | 0, done, post, _ => (false, done, post)
  | n + 1, done, post, cs =>
    let (post, cs) := layers post cs
    if syndromeOk post cs then (true, done + 1, post) else decodeRun n (done + 1) post cs

/-- Layered min-sum of a codeword, in exact arithmetic, within `maxIter` iterations: passed or not, iterations used, the hard decisions of
its information bytes. DESIGN CHOICE, log entry 68: R250 states no width of the decoder's values, and none here rounds. -/
def Ldpc.decode (l : Ldpc) (maxIter : Nat) (soft : List Int) : Bool × Nat × List Byte :=
  let (ok, n, post) := decodeRun maxIter 0 (soft.map fun (x : Int) => (x : Rat)).toArray
    (l.checks.map fun bits => (bits, bits.map fun _ => (0 : Rat)))
  (ok, n, bitBytes (l.kb * l.z / 8) ((List.range (l.kb * l.z)).map (hardBit post)))

/-- A payload codeword of an SF field. -/
def decodePayload (sf maxIter : Nat) (soft : List Int) : Bool × Nat × List Byte := (ldpcPayload sf).decode maxIter soft

/-- A header (R229, R249, R250): its 128 information bits, or none where the codeword does not pass. -/
def decodeHeader (maxIter : Nat) (soft : List Int) : Option (BitVec 128) :=
  let (ok, _, info) := ldpcHeader.decode maxIter soft
  if ok then some (BitVec.ofNat 128 (beNat info)) else none

/-! ### CRC-16/CCITT (R156) -/

/-- CRC-16/CCITT over bytes, most significant bit first, from all ones. -/
def crc16 (bs : List Byte) : BitVec 16 := bs.foldl crc16Byte 0xFFFF

end Sys2Proof.Machine
end

