-- ==== Sys2Proof/Machine/ModemLine.lean ====
section
/-! DEFINITION. The line side of an Elvan modem: frames and their check, what a port's state lets the modem do, transmissions
and their end (spec/07, R150 to R168). -/

namespace Sys2Proof.Machine

/-- CK cycles of one bit (R150). -/
def bitCk : Nat := 81920

/-- The first boundary of the bit grid at or after elapsed time `c` (R133, R150). -/
def State.bitNext (s : State) (c : Nat) : Nat := s.gridAt + (c - s.gridAt + bitCk - 1) / bitCk * bitCk

/-- The last boundary of the bit grid at or before elapsed time `c`. -/
def State.bitLast (s : State) (c : Nat) : Nat := s.gridAt + (c - s.gridAt) / bitCk * bitCk

/-- CK cycles to the next boundary of the bit grid. -/
def State.toBit (s : State) : Nat := s.bitNext (s.ck + 1) - s.ck

/-- The phase of sample k of a bit, k = 0 to 31, in 1/32 cycle: a mark advances 1/16 cycle a sample, a space 3/32 (R150). -/
def bitPhases (mark : Bool) : List Nat := (List.range 32).map fun k => (if mark then 2 * k else 3 * k) % 32

/-- TONE_AMP in LOOP_SET counts, peak to peak: 0.10 mA and 0.05 mA for each step of AMP up to 8 (R153). -/
def State.toneAmp (s : State) (n : Nat) : Nat := 200 + 100 * min 8 (s.fld (Reg.MODEM_CTL n) Fld.MODEM_CTL_AMP)

/-- What stands before LEN on the line: the preamble 0xAAAA and the sync word 0xB4C3, most significant byte first (R155). -/
def toneHead : List Byte := [0xAA, 0xAA, 0xB4, 0xC3]

/-- A frame after its sync word: LEN, DST, SRC, CTL, payload and CRC, most significant byte first (R155). -/
def toneFrame (dst src ctl : Byte) (payload : List Byte) : List Byte :=
  let body := BitVec.ofNat 8 payload.length :: dst :: src :: ctl :: payload
  body ++ beBytes 2 (crc16 body).toNat

/-- Bits a frame takes on the line: 80 + 8 × LEN (R155). -/
def toneBits (frame : List Byte) : Nat := 8 * (toneHead ++ frame).length

/-- The bits of bytes on the line, most significant first (R155). -/
def lineBits (bs : List Byte) : List Bool := bs.flatMap fun b => (List.range 8).map fun i => b.getLsbD (7 - i)

/-- A byte of a frame. -/
def byteAt (bs : List Byte) (i : Nat) : Byte := nth bs i 0

/-- The ROLE in force at port `n`'s stage. -/
def State.roleActive (s : State) (n : Nat) : Nat := s.fld (Reg.PORT_STATUS n) Fld.PORT_STATUS_ROLE_ACTIVE

/-- MISWIRE has the switches open (R139): set, and no probe closes them. -/
def State.switchesOpen (s : State) (n : Nat) : Bool :=
  s.flag (Reg.PORT_STATUS n) Fld.PORT_STATUS_MISWIRE && !(s.port n).probing

/-- Whether the modem works: its port's domain on, or P0 in Tether mode, with CK; EN, a role other than OFF, no suspension, no reset
(R168, R169). -/
def State.modemLive (s : State) (n : Nat) : Bool :=
  (s.on (portDomain n) || (n == 0 && s.inTether)) && s.portRuns n && s.flag (Reg.MODEM_CTL n) Fld.MODEM_CTL_EN && s.roleActive n != 0 &&
    !s.flag (Reg.MODEM_STATUS n) Fld.MODEM_STATUS_SUSPENDED && !(s.modem n).inReset

/-- Whether the port can transmit: CORE is on, or it is P0's modem in Tether mode (R153, R168, R169). DESIGN CHOICE, log entry 91: it can
during a MISWIRE probe, while its switches are closed again, although MISWIRE still reads 1 (R140, R168). -/
def State.canTransmit (s : State) (n : Nat) : Bool :=
  s.modemLive n && (s.on .core || s.inTether) && !s.switchesOpen n && (s.roleActive n != 3 || s.flag (Reg.MODEM_CTL n) Fld.MODEM_CTL_TONE_Z)

/-- Whether the receiver hears the line: not while the port's own tone is sent or the switches are open (R154, R168). -/
def State.canReceive (s : State) (n : Nat) : Bool :=
  s.modemLive n && !s.switchesOpen n && !s.flag (Reg.MODEM_STATUS n) Fld.MODEM_STATUS_TX_ACTIVE

/-- The SEND in progress is over. -/
def State.endSend (s : State) (n : Nat) : State :=
  let s := ((s.disarm (.modemQuiet n)).disarm (.modemRsp n)).setModem n { s.modem n with phase := .idle, frame := [] }
  s.lower (Reg.MODEM_STATUS n) Fld.MODEM_STATUS_TX_BUSY

/-- What the modem sends, or waits with a cut pending, ends now, cut short: ABORTED (R164, R168, R169). A SEND that waits while a response is
on the line ends with it only where ABORT has ended its wait, with its deadlines. -/
def State.modemStop (s : State) (n : Nat) : State :=
  let was := s.modem n
  if !s.flag (Reg.MODEM_STATUS n) Fld.MODEM_STATUS_TX_ACTIVE && !was.cut then s
  else
    let s := (s.disarm (.modemTx n)).lower (Reg.MODEM_STATUS n) Fld.MODEM_STATUS_TX_ACTIVE
    let waits := was.response && (was.phase == .idle || (s.dueOf (.modemQuiet n)).isSome || (s.dueOf (.modemRsp n)).isSome)
    let s := s.setModem n { was with line := [], response := false, cut := false, txEnd := some s.ck }
    let s := if waits then s else s.endSend n
    s.raise (Reg.MODEM_EVENT n) Fld.MODEM_EVENT_ABORTED

/-- What the modem does is to end at the next bit boundary (R150, R164): the deadline of its end moves there. -/
def State.modemCutAt (s : State) (n : Nat) : State :=
  if (s.modem n).cut then s
  else (s.setModem n { s.modem n with cut := true }).arm (.modemTx n) s.toBit

/-- A transmission in progress is to end at the next bit boundary (R150, R168, R169). -/
def State.modemCut (s : State) (n : Nat) : State :=
  s.when (s.flag (Reg.MODEM_STATUS n) Fld.MODEM_STATUS_TX_ACTIVE) fun s => s.modemCutAt n

/-- A cut whose bit boundary has passed is carried out. -/
def State.modemCutDone (s : State) (n : Nat) : State :=
  match s.dueOf (.modemTx n) with
  | some due => s.when ((s.modem n).cut && decide (due ≤ s.ck)) fun s => s.modemStop n
  | none => s

/-- The modem is disabled: a transmission ends at the next bit boundary, a wait at once. -/
def State.modemEnd (s : State) (n : Nat) : State :=
  if s.flag (Reg.MODEM_STATUS n) Fld.MODEM_STATUS_TX_ACTIVE then s.modemCut n else s.endSend n

/-- Whether readback windows start on received bits: a frame is in reception and its timing is recovered (R133). -/
def State.rxTimed (s : State) (n : Nat) : Bool :=
  (s.modem n).hearing && s.flag (Reg.MODEM_STATUS n) Fld.MODEM_STATUS_TIMING

/-- No frame is in reception from now on. -/
def State.hearEnd (s : State) (n : Nat) : State :=
  let x := s.modem n
  s.setModem n { x with hearing := false, bitEnd := if s.rxTimed n then some s.ck else x.bitEnd }

/-- A tone goes on the line at this boundary of the bit grid and lasts the frame's bits (R150, R155); the receiver is blanked: a frame
in reception is lost (R154). -/
def State.startTone (s : State) (n : Nat) (frame : List Byte) (response : Bool) : State :=
  let s := ((s.raise (Reg.MODEM_STATUS n) Fld.MODEM_STATUS_TX_ACTIVE).arm (.modemTx n) (toneBits frame * bitCk)).hearEnd n
  s.setModem n { s.modem n with line := toneHead ++ frame, response }

/-- The session of port `n` closes: MODEM_EVENT.SESSION and OD_EVENT.SESSION (R167, R213). -/
def State.toneClose (s : State) (n : Nat) : State :=
  match vget s.od.tone n none with
  | none => s
  | some x =>
    let s := { s.disarm (.sessionIdle x.path) with od := { s.od with tone := vset s.od.tone n none } }
    let s := (s.setFld (Reg.MODEM_STATUS n) Fld.MODEM_STATUS_SESSION_SRC 0).setFld (Reg.MODEM_STATUS n)
      Fld.MODEM_STATUS_SESSION_LEVEL 0
    (s.raise (Reg.MODEM_EVENT n) Fld.MODEM_EVENT_SESSION).when (s.on .core) fun s => s.raise Reg.OD_EVENT Fld.OD_EVENT_SESSION

/-- Reception stops where it stands: CARRIER, TIMING and a frame in reception go (R168, R169); where CARRIER falls, quiet for a SEND counts
from here (R163). -/
def State.modemDeaf (s : State) (n : Nat) : State :=
  let st := Reg.MODEM_STATUS n
  let s := s.hearEnd n
  let x := s.modem n
  let s := s.setModem n { x with deafTone := false, quietSince := if s.flag st Fld.MODEM_STATUS_CARRIER then s.ck else x.quietSince }
  (((s.disarm (.modemSync n)).lower st Fld.MODEM_STATUS_CARRIER).lower st Fld.MODEM_STATUS_TIMING).lower st
    Fld.MODEM_STATUS_RX_ACTIVE

/-- The modem is suspended, or resumes starting with carrier detection (R168, R169). -/
def State.modemSuspend (s : State) (n : Nat) (on : Bool) : State :=
  if s.flag (Reg.MODEM_STATUS n) Fld.MODEM_STATUS_SUSPENDED = on then s
  else
    let s := if on then (s.modemCut n).modemDeaf n else s
    s.setFlag (Reg.MODEM_STATUS n) Fld.MODEM_STATUS_SUSPENDED on

/-- A frame is dropped under R158 or R163. -/
def State.frameError (s : State) (n : Nat) : State :=
  (s.count (Reg.MODEM_ERR_COUNT n) (Reg.MODEM_EVENT n) Fld.MODEM_EVENT_CTR_SAT 1).raise (Reg.MODEM_EVENT n)
    Fld.MODEM_EVENT_FRAME_ERR

/-- The receiver has not found its sync word within 32 bits of CARRIER rising (R158). DESIGN CHOICE, log entry 91: it counts a frame error
also where the preamble began in the port's own transmission (R154). -/
def State.syncMissed (s : State) (n : Nat) : State :=
  s.when (s.canReceive n) fun s => (s.hearEnd n).frameError n

/-- The tone on the line has ended (R154): CARRIER falls, and quiet for a SEND counts from here (R163). A frame in reception has lost its
carrier before its last CRC bit (R158). -/
def State.carrierGone (s : State) (n : Nat) : State :=
  let was := s.flag (Reg.MODEM_STATUS n) Fld.MODEM_STATUS_CARRIER
  let s := ((s.disarm (.modemSync n)).when (s.canReceive n && (s.modem n).hearing) fun s => s.frameError n).hearEnd n
  let s := (s.lower (Reg.MODEM_STATUS n) Fld.MODEM_STATUS_CARRIER).lower (Reg.MODEM_STATUS n) Fld.MODEM_STATUS_TIMING
  let x := s.modem n
  s.setModem n { x with deafTone := false, quietSince := if was then s.ck else x.quietSince }

/-- Whether a tone seen for three bit times by now began before the port's own transmission had ended (R154). -/
def State.beganInTx (s : State) (n : Nat) : Bool := (s.modem n).txEnd.any fun e => decide (s.ck ≤ e + 3 * bitCk)

/-- A tone has been present, or absent, for three bit times (R154). A tone that begins while the receiver is blanked is not received,
and CARRIER stays 0 while it is blanked; a tone that ends then still lets CARRIER fall. -/
def State.carrier (s : State) (n : Nat) (present : Bool) : State :=
  if !s.modemLive n then s
  else if !present then s.carrierGone n
  else if s.flag (Reg.MODEM_STATUS n) Fld.MODEM_STATUS_CARRIER then s
  else if !s.canReceive n then s.setModem n { s.modem n with deafTone := true }
  else
    let s := (s.raise (Reg.MODEM_STATUS n) Fld.MODEM_STATUS_CARRIER).arm (.modemSync n) (32 * bitCk)
    let deaf := (s.modem n).deafTone || s.beganInTx n
    s.setModem n { s.modem n with hearing := !deaf, deafTone := deaf }

/-- CARRIER. -/
def execCarrier (n : PortId) (present : Bool) (s : State) : Host.Outcome State Fault Refusal := (s.carrier n present).done

/-- SYNC_TIMEOUT. -/
def execSyncTimeout (n : PortId) (s : State) : Host.Outcome State Fault Refusal :=
  (s.fall (.modemSync n) fun s => s.syncMissed n).done

/-- BIT_TIMING_RECOVERED, at a boundary of the received bits (log entry 48): TIMING sets, on a carrier (R154), and readback windows
follow the received bits (R133). -/
def execBitTimingRecovered (n : PortId) (s : State) : Host.Outcome State Fault Refusal :=
  (s.when (s.canReceive n && s.flag (Reg.MODEM_STATUS n) Fld.MODEM_STATUS_CARRIER) fun s =>
    (s.raise (Reg.MODEM_STATUS n) Fld.MODEM_STATUS_TIMING).setModem n { s.modem n with bitAt := s.ck }).done

/-! ### Sending (R163, R164) -/

/-- Own address: MASTER_SRC in master mode, ADDR in slave mode (R159). -/
def State.toneAddr (s : State) (n : Nat) : Nat :=
  if s.flag (Reg.MODEM_CTL n) Fld.MODEM_CTL_MASTER then s.fld (Reg.MODEM_ADDR n) Fld.MODEM_ADDR_MASTER_SRC
  else s.fld (Reg.MODEM_ADDR n) Fld.MODEM_ADDR_ADDR

/-- Whether both address fields name a single device; otherwise the modem answers nothing and SEND is refused. -/
def State.toneAddrOk (s : State) (n : Nat) : Bool :=
  [s.fld (Reg.MODEM_ADDR n) Fld.MODEM_ADDR_MASTER_SRC, s.fld (Reg.MODEM_ADDR n) Fld.MODEM_ADDR_ADDR].all fun a =>
    a != 0 && a != 255

/-- Whether SEND is refused (R164). -/
def State.sendRefused (s : State) (n : Nat) : Bool :=
  s.flag (Reg.MODEM_STATUS n) Fld.MODEM_STATUS_TX_BUSY || decide (64 < s.fld (Reg.MODEM_TX_HDR n) Fld.MODEM_TX_HDR_LEN) ||
    !s.canTransmit n || !s.toneAddrOk n

/-- The frame MODEM_TX_HDR and MODEM_TX_DATA describe. -/
def State.stagedFrame (s : State) (n : Nat) : List Byte :=
  let hdr := s.reg (Reg.MODEM_TX_HDR n)
  toneFrame (BitVec.ofNat 8 (Fld.MODEM_TX_HDR_DST.get hdr)) (BitVec.ofNat 8 (s.toneAddr n))
    (BitVec.ofNat 8 (Fld.MODEM_TX_HDR_CTL.get hdr))
    (((List.range 16).flatMap fun w => wordBytes (s.reg (Reg.MODEM_TX_DATA n w))).take (Fld.MODEM_TX_HDR_LEN.get hdr))

/-- The quiet wait starts, with its 1 s limit (R163). -/
def State.quietWait (s : State) (n : Nat) : State :=
  (s.setModem n { s.modem n with phase := .quiet, quietSince := s.ck }).arm (.modemQuiet n) (secCk 1)

/-- MODEM_CTL.SEND (R163, R164); `withAbort`: written together with ABORT. -/
def State.toneSend (s : State) (n : Nat) (withAbort : Bool) : State :=
  let s := s.modemCutDone n
  if withAbort || s.sendRefused n then s.raise (Reg.MODEM_EVENT n) Fld.MODEM_EVENT_SEND_ERR
  else
    let x := s.modem n
    let s := s.raise (Reg.MODEM_STATUS n) Fld.MODEM_STATUS_TX_BUSY
    (s.setModem n { x with frame := s.stagedFrame n, expect := s.flag (Reg.MODEM_TX_HDR n) Fld.MODEM_TX_HDR_EXPECT,
                           retries := s.fld (Reg.MODEM_TIMING n) Fld.MODEM_TIMING_RETRIES, sent := false }).quietWait n

/-- QUIET as it acts: 2 to 15 bit times. -/
def State.quietBits (s : State) (n : Nat) : Nat := max 2 (s.fld (Reg.MODEM_TIMING n) Fld.MODEM_TIMING_QUIET)

/-- When CARRIER will have been 0 for QUIET bit times (R163). -/
def State.quietEnd (s : State) (n : Nat) : Nat := (s.modem n).quietSince + s.quietBits n * bitCk

/-- Whether the 1 s limit of the quiet wait comes before the quiet period is complete (R163). -/
def State.quietLate (s : State) (n : Nat) : Bool :=
  match s.dueOf (.modemQuiet n) with | some due => decide (due < s.quietEnd n) | none => false

/-- The frame starts on the first boundary of the bit grid after QUIET bit times without carrier (R150, R163). -/
def State.toneTxStart (s : State) (n : Nat) : State :=
  if (s.modem n).phase != .quiet || (s.modem n).cut || s.flag (Reg.MODEM_STATUS n) Fld.MODEM_STATUS_CARRIER || !s.canTransmit n ||
      s.flag (Reg.MODEM_STATUS n) Fld.MODEM_STATUS_TX_ACTIVE || s.quietLate n then s
  else
    let s := (s.passTo (s.bitNext (max s.ck (s.quietEnd n)))).disarm (.modemQuiet n)
    let f := (s.modem n).frame
    let s := s.setModem n { s.modem n with phase := .sending, sent := true }
    let s := s.setFld (Reg.MODEM_STATUS n) Fld.MODEM_STATUS_LAST_SEQ ((byteAt f 3).toNat % 16)
    s.startTone n f false

/-- RSP_TMO as it acts: 16 to 255 bit times. -/
def State.rspBits (s : State) (n : Nat) : Nat := max 16 (s.fld (Reg.MODEM_TIMING n) Fld.MODEM_TIMING_RSP_TMO)

/-- The last bit of the frame on the line is sent (R163), or the bit boundary of a cut has come (R164). -/
def State.toneTxDone (s : State) (n : Nat) : State :=
  let x := s.modem n
  if x.cut then s.modemStop n
  else
  let s := (s.lower (Reg.MODEM_STATUS n) Fld.MODEM_STATUS_TX_ACTIVE).setModem n { x with line := [], response := false, txEnd := some s.ck }
  if x.response then s
  else if x.expect then
    (s.setModem n { s.modem n with phase := .waiting }).arm (.modemRsp n) (s.rspBits n * bitCk)
  else (s.endSend n).raise (Reg.MODEM_EVENT n) Fld.MODEM_EVENT_TX_DONE

/-- A response wait times out: the frame is repeated after a quiet wait, or the transaction ends (R163). -/
def State.rspTimeout (s : State) (n : Nat) : State :=
  let s := s.count (Reg.MODEM_TMO_COUNT n) (Reg.MODEM_EVENT n) Fld.MODEM_EVENT_CTR_SAT 1
  if (s.modem n).retries = 0 then (s.endSend n).raise (Reg.MODEM_EVENT n) Fld.MODEM_EVENT_TIMEOUT
  else (s.setModem n { s.modem n with retries := (s.modem n).retries - 1 }).quietWait n

/-- MODEM_CTL.ABORT: a transmission or a wait ends at the next bit boundary, with ABORTED; with neither, ABORTED sets at once (R164, log
entry 49). -/
def State.modemAbort (s : State) (n : Nat) : State :=
  let st := s.reg (Reg.MODEM_STATUS n)
  if !s.portRuns n then s
  else if Fld.MODEM_STATUS_TX_ACTIVE.on st || Fld.MODEM_STATUS_TX_BUSY.on st then
    ((s.disarm (.modemQuiet n)).disarm (.modemRsp n)).modemCutAt n
  else s.raise (Reg.MODEM_EVENT n) Fld.MODEM_EVENT_ABORTED

/-- MODEM_CTL.RX_RELEASE (R165). -/
def State.rxRelease (s : State) (n : Nat) : State :=
  s.when (s.portRuns n) fun s => s.lower (Reg.MODEM_STATUS n) Fld.MODEM_STATUS_RX_FULL

/-- SEND. -/
def execToneSend (n : PortId) (s : State) : Host.Outcome State Fault Refusal :=
  (s.hostRow (Reg.MODEM_CTL n) false fun s => s.toneSend n false).done

/-- TONE_TX_START. -/
def execToneTxStart (n : PortId) (s : State) : Host.Outcome State Fault Refusal := (s.toneTxStart n).done

/-- TONE_TX_DONE. -/
def execToneTxDone (n : PortId) (s : State) : Host.Outcome State Fault Refusal :=
  (s.fall (.modemTx n) fun s => s.toneTxDone n).done

/-- TONE_QUIET_TIMEOUT: no quiet period within 1 s (R163). -/
def execToneQuietTimeout (n : PortId) (s : State) : Host.Outcome State Fault Refusal :=
  (s.fall (.modemQuiet n) fun s => (s.endSend n).raise (Reg.MODEM_EVENT n) Fld.MODEM_EVENT_SEND_ERR).done

/-- TONE_RSP_TIMEOUT. -/
def execToneRspTimeout (n : PortId) (s : State) : Host.Outcome State Fault Refusal :=
  (s.fall (.modemRsp n) fun s => s.rspTimeout n).done

/-- MODEM_ABORT. -/
def execModemAbort (n : PortId) (s : State) : Host.Outcome State Fault Refusal :=
  (s.hostRow (Reg.MODEM_CTL n) false fun s => s.modemAbort n).done

/-- RX_RELEASE. -/
def execRxRelease (n : PortId) (s : State) : Host.Outcome State Fault Refusal :=
  (s.hostRow (Reg.MODEM_CTL n) false fun s => s.rxRelease n).done

/-- The modem's per-function reset begins (R169, R298, R299): a transmission is to end at the next bit boundary, with the reset; a frame
in reception is dropped, the session closes, the buffers are freed, the received one with its stamp reads 0 (R298), and MODEM_STATUS is cleared but for a suspension, which its port's state
keeps up (R168, R169). -/
def State.modemReset (s : State) (n : Nat) : State :=
  let tx := s.flag (Reg.MODEM_STATUS n) Fld.MODEM_STATUS_TX_ACTIVE
  let s := (((s.endSend n).modemDeaf n).toneClose n).disarm (.modemTa n)
  let x := s.modem n
  let s := s.setModem n { line := if tx then x.line else [], cut := tx, quietSince := x.quietSince, txEnd := x.txEnd, bitAt := x.bitAt, bitEnd := x.bitEnd, inReset := true }
  let s := s.when tx fun s => s.arm (.modemTx n) s.toBit
  let s := ((s.setReg (Reg.MODEM_RX_HDR n) 0).setReg (Reg.MODEM_RX_TIME_LO n) 0).setReg (Reg.MODEM_RX_TIME_HI n) 0
  let s := iterate 16 (fun w s => s.setReg (Reg.MODEM_RX_DATA n w) 0) s
  s.setReg (Reg.MODEM_STATUS n)
    (Fld.MODEM_STATUS_TX_ACTIVE.put (b2n tx) ||| (s.reg (Reg.MODEM_STATUS n) &&& Fld.MODEM_STATUS_SUSPENDED.mask))

/-- The modem's reset ends, at a bit boundary, and a transmission with it (R169, R299). -/
def State.modemResetEnd (s : State) (n : Nat) : State :=
  let s := s.modemStop n
  s.setModem n { s.modem n with inReset := false }

/-- No end of the modem's reset is awaited. -/
def State.modemResetOver (s : State) (n : Nat) : State :=
  { s with timers := s.timers.filter fun p => match p.1 with
      | .funcReset (.modem m) => m.val != n
      | _ => true }

/-- What a modem is when its domain turns on: nothing on the line, every register at its reset value. -/
def State.modemFresh (s : State) (n : Nat) : State :=
  (((((((s.toneClose n).disarm (.modemQuiet n)).disarm (.modemRsp n)).disarm (.modemTa n)).disarm (.modemTx n)).disarm
    (.modemSync n)).modemResetOver n).setModem n {}

end Sys2Proof.Machine
end

