-- ==== Sys2Proof/Machine/Reel.lean ====
section
/-! DEFINITION. Slice trims and the Reel (spec/05, R99 to R112), and the frame boundary (R53, R66, R78, R104). -/

namespace Sys2Proof.Machine

/-! ### Trim banks (R99) -/

/-- The trim word in force: the bank the pointer selects. -/
def State.trimInForce (s : State) (i : Nat) : Word :=
  if s.flag (Reg.SLICE_CAL_STATUS i) Fld.SLICE_CAL_STATUS_BANK then (s.slice i).bankB else (s.slice i).bankA

/-- A value written into the inactive bank (R99). -/
def State.setInactive (s : State) (i : Nat) (w : Word) : State :=
  if s.flag (Reg.SLICE_CAL_STATUS i) Fld.SLICE_CAL_STATUS_BANK then s.setSlice i { s.slice i with bankA := w }
  else s.setSlice i { s.slice i with bankB := w }

/-- The bank pointer swaps at a boundary: the other bank's value is in force, becomes the step reference, FIRST clears and the
age restarts (R104, R110, R111, R122). -/
def State.swapBank (s : State) (i : Nat) : State :=
  let st := Reg.SLICE_CAL_STATUS i
  let s := s.setFlag st Fld.SLICE_CAL_STATUS_BANK (!s.flag st Fld.SLICE_CAL_STATUS_BANK)
  let s := s.lower st Fld.SLICE_CAL_STATUS_FIRST
  s.setSlice i { s.slice i with stepRef := s.trimInForce i, trimSince := s.ck }

/-- STAGED. -/
def State.trimStaged (s : State) (i : Nat) : Bool := s.flag (Reg.SLICE_CAL_STATUS i) Fld.SLICE_CAL_STATUS_STAGED

/-- Staged values are discarded. -/
def State.unstage (s : State) (i : Nat) : State :=
  (s.lower (Reg.SLICE_CAL_STATUS i) Fld.SLICE_CAL_STATUS_STAGED).setReg (Reg.SLICE_TRIM_STAGED i) 0

/-- A slice trim word from its signed fields. -/
def trimWord (off gain : Int) : Word :=
  Fld.SLICE_TRIM_OFFSET.put (BitVec.ofInt 12 off).toNat ||| Fld.SLICE_TRIM_GAIN.put (BitVec.ofInt 12 gain).toNat

/-! ### Calibration runs (R100 to R103) -/

/-- A new run on the offline slice waits for its start (R100). -/
def State.newRun (s : State) : State :=
  { (s.disarm .calRun).lower Reg.REEL_STATUS Fld.REEL_STATUS_RUN_DONE with
    reel := { s.reel with run := some false, refLost := false, clamped := false, restart := false } }

/-- The run in progress is abandoned; a new one starts at the following boundary (R112, R299). -/
def State.abandonRun (s : State) : State :=
  { s.disarm .calRun with reel := { s.reel with run := none, refLost := false, clamped := false, restart := true } }

/-- Milliseconds of a run: REPEAT cycles of four points, each 2 ms and TINT × 20 ms, and 1 ms (R100). -/
def State.runMs (s : State) : Nat :=
  clampNat 1 7 (s.fld Reg.CAL_RUN Fld.CAL_RUN_REPEAT) * 4 * (clampNat 1 10 (s.fld Reg.CAL_RUN Fld.CAL_RUN_TINT) * 20 + 2) + 1

/-- A run starts measuring, if one waits and the reference is ready (R100). -/
def State.runStart (s : State) : State :=
  if s.measRuns && s.reel.run == some false && s.refReady then
    { s with reel := { s.reel with run := some true, refLost := false, clamped := false } }.arm .calRun (msCk s.runMs)
  else s

/-- The sum of a list of codes. -/
def sumInt (l : List Int) : Int := l.foldl (· + ·) 0

/-- Largest minus smallest of a list of codes. -/
def spread : List Int → Int
  | [] => 0
  | x :: xs => xs.foldl max x - xs.foldl min x

/-- OFFSET_new of a run: OFFSET_old + round(Z × 10⁷ / 2³⁰) on the mean code Z (R101). -/
def offsetNew (old : Int) (p : CalPoints) : Int := old + roundDiv (sumInt p.zero * 10000000) (max 1 p.zero.length * 2 ^ 30)

/-- GAIN_new of a run: GAIN_old + round((P − N − 2³¹) × 10⁶ / 2³¹) on the mean codes (R101). -/
def gainNew (old : Int) (p : CalPoints) : Int :=
  let n := max 1 p.plus.length
  old + roundDiv ((sumInt p.plus - sumInt p.minus - n * 2 ^ 31) * 1000000) (n * 2 ^ 31)

/-- Whether the linearity deviation |M − Z − (P − N)/4| × 10⁷ / 2³⁰ exceeds `lim` (R101, R102). -/
def linFails (p : CalPoints) (lim : Nat) : Bool :=
  let n := max 1 p.mid.length
  let d := 4 * (sumInt p.mid - sumInt p.zero) - (sumInt p.plus - sumInt p.minus)
  decide (lim * (4 * n * 2 ^ 30) < d.natAbs * 10000000)

/-- Whether a point's spread × 10⁷ / 2³⁰ exceeds `lim` (R101, R102). -/
def noiseFails (p : CalPoints) (lim : Nat) : Bool :=
  [p.zero, p.plus, p.minus, p.mid].any fun l => decide (lim * 2 ^ 30 < (spread l).natAbs * 10000000)

/-- A limit field; values above 2047 act as 2047. -/
def State.calLim (s : State) (a : Nat) (f : Fld) : Nat := min 2047 (s.fld a f)

/-- The first test of R102 a run fails, in the table's order, or none. DESIGN CHOICE, log entry 83: a CAL_RUN.REPEAT written during the run does
not change its length (R100), and the noise test is left out if REPEAT is 1 at its end. -/
def State.runTest (s : State) (i : Nat) (p : CalPoints) (off gain : Int) : Option Nat :=
  let first := s.flag (Reg.SLICE_CAL_STATUS i) Fld.SLICE_CAL_STATUS_FIRST
  let ref := (s.slice i).stepRef
  let stepA := if first then Reg.CAL_LIM_FIRST else Reg.CAL_LIM_STEP
  if p.clamp || s.reel.clamped then some 0x07
  else if s.reel.refLost then some 0x08
  else if decide (1 < s.fld Reg.CAL_RUN Fld.CAL_RUN_REPEAT) && noiseFails p (s.fld Reg.CAL_LIM_CHECK Fld.CAL_LIM_CHECK_NOISE_MAX)
    then some 0x06
  else if linFails p (s.fld Reg.CAL_LIM_CHECK Fld.CAL_LIM_CHECK_LIN_MAX) then some 0x05
  else if s.calLim Reg.CAL_LIM_RANGE Fld.CAL_LIM_RANGE_OFFSET < off.natAbs then some 0x01
  else if s.calLim Reg.CAL_LIM_RANGE Fld.CAL_LIM_RANGE_GAIN < gain.natAbs then some 0x02
  else if s.calLim stepA Fld.CAL_LIM_STEP_OFFSET < (off - Fld.SLICE_TRIM_OFFSET.sget ref).natAbs then some 0x03
  else if s.calLim stepA Fld.CAL_LIM_STEP_GAIN < (gain - Fld.SLICE_TRIM_GAIN.sget ref).natAbs then some 0x04
  else none

/-- A run ends (R101 to R103): accepted values are staged, a rejection is recorded, counted and logged. A software trim that
waits for its boundary has discarded the run's values (R111). -/
def State.runEnd (s : State) (p : CalPoints) : State :=
  if s.reel.run != some true then s
  else
    let i := s.offline
    let off := offsetNew (Fld.SLICE_TRIM_OFFSET.sget (s.trimInForce i)) p
    let gain := gainNew (Fld.SLICE_TRIM_GAIN.sget (s.trimInForce i)) p
    let res := s.runTest i p off gain
    let s := { s.raise Reg.REEL_STATUS Fld.REEL_STATUS_RUN_DONE with
      reel := { s.reel with run := none, refLost := false, clamped := false } }
    match res with
    | none =>
      if (s.slice i).trimReq.isSome then s
      else
        let w := trimWord off gain
        ((s.setInactive i w).raise (Reg.SLICE_CAL_STATUS i) Fld.SLICE_CAL_STATUS_STAGED).setReg (Reg.SLICE_TRIM_STAGED i) w
    | some r =>
      let s := s.setFld (Reg.SLICE_CAL_STATUS i) Fld.SLICE_CAL_STATUS_REASON r
      let s := s.count (Reg.SLICE_REJECT_COUNT i) Reg.CAL_EVENT Fld.CAL_EVENT_CTR_SAT 1
      let s := s.raise Reg.CAL_EVENT (Fld.CAL_EVENT_SLICE_REJECT.bit i)
      s.log .warning 0x0030 0x10 i (BitVec.ofNat 32 r) (ofInt32 off) (ofInt32 gain)

/-- CAL_RUN_START. -/
def execCalRunStart (s : State) : Host.Outcome State Fault Refusal := s.runStart.done

/-- CAL_RUN_END. -/
def execCalRunEnd (p : CalPoints) (s : State) : Host.Outcome State Fault Refusal :=
  (s.fall .calRun fun s => s.runEnd p).done

/-- CAL_START bit of a slice: an out-of-turn calibration is requested; a second request changes nothing (R106, R107). -/
def State.calRequest (s : State) (i : Nat) : State :=
  if s.reel.requests.contains i then s else { s with reel := { s.reel with requests := s.reel.requests ++ [i] } }

/-- CAL_START. -/
def execCalStart (i : SliceId) (s : State) : Host.Outcome State Fault Refusal :=
  (s.hostRow Reg.REEL_CTL false fun s => s.when s.measRuns fun s => s.calRequest i).done

/-- A write of SLICE_TRIM is stored for the next boundary and discards staged values (R111). -/
def State.sliceTrimWrite (s : State) (i : Nat) (v : Word) : State :=
  let w := v &&& (Fld.SLICE_TRIM_OFFSET.mask ||| Fld.SLICE_TRIM_GAIN.mask)
  let s := (s.unstage i).setInactive i w
  s.setSlice i { s.slice i with trimReq := some w }

/-- SLICE_TRIM_WRITE. -/
def execSliceTrimWrite (i : SliceId) (v : Word) (s : State) : Host.Outcome State Fault Refusal :=
  (s.hostRow (Reg.SLICE_TRIM i) false fun s => s.when s.measRuns fun s =>
    (s.overLate (Reg.SLICE_TRIM i) (BitVec.allOnes 32)).sliceTrimWrite i v).done

/-! ### Steps (R104 to R107) -/

/-- Whether the Reel skips slice `i` (R105). -/
def State.reelSkips (s : State) (i : Nat) : Bool := s.injClaims i || (s.slice i).holding

/-- The offline slice rejoins and `cand` leaves service; `restored` tells whether the rejoining slice's values were replaced
at this very boundary (R104, R122). -/
def State.reelStep (s : State) (cand : Nat) (restored : Bool) : State :=
  let o := s.offline
  let st := Reg.SLICE_CAL_STATUS o
  let s :=
    if s.trimStaged o && !restored then
      let s := (s.swapBank o).count (Reg.SLICE_CAL_COUNT o) Reg.CAL_EVENT Fld.CAL_EVENT_CTR_SAT 1
      let s := (s.setReg (Reg.SLICE_CAL_TIME_LO o) (lo32 s.time)).setReg (Reg.SLICE_CAL_TIME_HI o) (hi32 s.time)
      (s.setFlag st Fld.SLICE_CAL_STATUS_TB_VALID s.tbValid).unstage o
    else s.unstage o
  let s := (s.setFld Reg.REEL_STATUS Fld.REEL_STATUS_OFFLINE cand).setFld Reg.REEL_STATUS Fld.REEL_STATUS_NEXT ((cand + 1) % 5)
  let s := s.lower Reg.REEL_STATUS (Fld.REEL_STATUS_CAL_PENDING.bit cand)
  let s := s.setSlice cand { s.slice cand with row := 22, injIdle := false }
  let s := { s with reel := { s.reel with offlineSince := s.ck, requests := s.reel.requests.filter (· != cand) } }.newRun
  if cand = 0 && s.flag Reg.REEL_CTL Fld.REEL_CTL_EN then
    iterate 4 (fun d s => s.when (s.on (ldDomain d)) fun s => s.arm (.bgCheck d) (msCk 100)) s
  else s

/-- The automatic step's candidate: the first slice in Reel order that is not skipped, with the number skipped (R105). -/
def State.candidate (s : State) : Option (Nat × Nat) :=
  ((List.range 4).find? fun k => !s.reelSkips ((s.offline + 1 + k) % 5)).map fun k => ((s.offline + 1 + k) % 5, k)

/-- REEL_PERIOD as it acts, in seconds. -/
def State.reelPeriod (s : State) : Nat := clampNat 2 600 (s.fld Reg.REEL_PERIOD Fld.REEL_PERIOD_SECONDS)

/-- Whether a manual request for the active slice `i` must wait (R106). -/
def State.requestWaits (s : State) (i : Nat) : Bool := s.injClaims i || (s.slice i).holding || (s.slice i).resv.isSome

/-- Whether the offline slice has been offline for REEL_PERIOD: the TB ticks of the timebase since the boundary it left at (R104). -/
def State.reelAged (s : State) : Bool := decide (s.reel.offlineSince / 16 + s.reelPeriod * 12288000 ≤ s.ck / 16)

/-- The Reel's part of a boundary. A request for the offline slice restarts its run; of those for active slices that need not
wait, one steps the Reel and any other waits; with none that acts now the automatic step is judged (R104 to R108). DESIGN CHOICE, log
entry 90: automatic steps go on while a manual request waits for its slice (R106). -/
def State.reelBoundary (s : State) (restored : Bool) : State :=
  let o := s.offline
  let own := s.reel.requests.contains o
  let act := (List.range 5).filter fun i => i != o && s.reel.requests.contains i
  let ready := act.filter fun i => !s.requestWaits i
  let auto := s.flag Reg.REEL_CTL Fld.REEL_CTL_EN && s.flag Reg.REEL_STATUS Fld.REEL_STATUS_RUN_DONE &&
    s.reelAged
  let s := s.when own fun s =>
    ({ s with reel := { s.reel with requests := s.reel.requests.filter (· != o) } }.unstage o).newRun
  let s := (act.filter fun i => s.requestWaits i).foldl (fun s i => s.raise Reg.REEL_STATUS (Fld.REEL_STATUS_CAL_PENDING.bit i)) s
  match ready with
  | i :: _ => s.reelStep i (restored || !s.flag Reg.REEL_STATUS Fld.REEL_STATUS_RUN_DONE)
  | [] =>
    if auto && !own then
      match s.candidate with
      | none => s
      | some (c, skipped) =>
        if (s.slice c).resv.isSome then s
        else
          let s := s.when (skipped != 0) fun s =>
            (s.count Reg.REEL_SKIP_COUNT Reg.CAL_EVENT Fld.CAL_EVENT_CTR_SAT skipped).raise Reg.CAL_EVENT
              Fld.CAL_EVENT_REEL_SKIP
          s.reelStep c restored
    else s

/-! ### The boundary -/

/-- TIME and TB_VALID at the end of the integrations of the frame that ends now, 24 CK after its strobe (R53, R72). -/
def State.endTime (s : State) : BitVec 64 × Bool :=
  let t := s.pass 24
  (t.time, t.tbValid)

/-- Conversions of the frame just ended stop integrating: their end is stamped (R53, R72). -/
def State.endFrame (s : State) : State :=
  let stamp := s.endTime
  { s with slices := s.slices.map fun x =>
      match x.conv with
      | some c => if c.inj then x else { x with conv := none, ended := some { c with endStamp := some stamp } }
      | none => x }

/-- Software trims and restored records go in force; true if the offline slice was among them (R111, R122). DESIGN CHOICE, log entry 88: of a
written trim and a restored record that wait for the same boundary the record goes in force, and the write is dropped. -/
def State.trimBoundary (s : State) : State × Bool :=
  let o := s.offline
  (List.range 5).foldl (fun (s, r) i =>
    let x := s.slice i
    match x.restore with
    | some (w, cnt, rej, t, v) =>
      let s := ((s.unstage i).setInactive i w).setSlice i { (s.unstage i).setInactive i w |>.slice i with restore := none, trimReq := none }
      let s := s.swapBank i
      let s := (s.setReg (Reg.SLICE_CAL_COUNT i) cnt).setReg (Reg.SLICE_REJECT_COUNT i) rej
      let s := (s.setReg (Reg.SLICE_CAL_TIME_LO i) (lo32 t)).setReg (Reg.SLICE_CAL_TIME_HI i) (hi32 t)
      (s.setFlag (Reg.SLICE_CAL_STATUS i) Fld.SLICE_CAL_STATUS_TB_VALID v, r || i == o)
    | none =>
      match x.trimReq with
      | some w =>
        let s := s.setInactive i w
        let s := s.setSlice i { s.slice i with trimReq := none }
        (s.swapBank i, r || i == o)
      | none => (s, r)) (s, false)

/-- A restored block's last edge: CAL_GEN takes its GENERATION, BUSY clears and RESTORE_DONE sets (R122). -/
def State.restoreDone (s : State) : State :=
  let s := (s.setReg Reg.CAL_GEN s.cal.gen).lower Reg.CAL_BLOCK_STATUS Fld.CAL_BLOCK_STATUS_BUSY
  let s := (s.setFld Reg.CAL_BLOCK_STATUS Fld.CAL_BLOCK_STATUS_RESULT 0).raise Reg.CAL_BLOCK_STATUS
    Fld.CAL_BLOCK_STATUS_LAST_OP
  s.raise Reg.CAL_EVENT Fld.CAL_EVENT_RESTORE_DONE

/-- A slice's per-function reset ends: an injected sequence that still has entries gives it the next (R86, R299). -/
def State.sliceResetEnd (s : State) (i : Nat) : State :=
  if !(s.slice i).inReset then s
  else
    let s := s.setSlice i { s.slice i with inReset := false }
    let s := s.lower Reg.RST_BUSY1 (Fld.RST_BUSY1_SLICE.bit i)
    let s := s.when (s.offline == i && s.reel.restart) State.newRun
    s.when ((s.slice i).injRole && (s.slice i).injNext.isNone) fun s => s.injGive i

/-- The sequencer's per-function reset ends (R299). -/
def State.seqResetEnd (s : State) : State :=
  if !s.seq.inReset then s
  else
    let s := { s with seq := { s.seq with inReset := false } }.lower Reg.RST_BUSY1 Fld.RST_BUSY1_SEQ
    s.when s.reel.restart State.newRun

/-- In STANDBY with lane 0's stored chain, MD converts TETHER_CFG.CH once per frame on an active slice, under the recovery hold (R74)
and, where its group reverses, in pairs (R67, R283). -/
def State.standbyConv (s : State) : State :=
  if !s.on .core && s.keeperCore.active then
    let ch := s.tetherCh
    let rev := s.groupReverses ch
    let pick := match (List.range 5).find? fun i => (s.slice i).resv.isSome with
      | some i => some i
      | none => s.freeSlices.head?
    match pick with
    | none => s
    | some i =>
      let held := (s.slice i).resv.isSome
      let s := s.setSlice i { s.slice i with resv := none }
      let s := s.when (held && !rev) fun s => s.dropHalf i
      match s.holdCase i with
      | none => (s.dropHalf i).putOff
      | some short =>
        let half := if !rev then 0 else if s.frameOdd then 2 else 1
        let s := (s.when short fun s => s.cutHold i).startConv i ch 0 half false short 0
        s.when (half == 1) fun s => s.setSlice i { s.slice i with resv := some (0, ch) }
  else s

/-- Time passes up to the end of the frame in progress (R56). -/
def State.toFrameEnd (s : State) : State :=
  s.when s.seq.frameSeen fun s => s.passTo (s.seq.frameAt + (s.reg Reg.FRAME_LEN).toNat)

/-- The frame boundary of MD up to the sequences' turn (R53): the frame just ended is stamped, resets end, an abandoned run starts afresh
(R112), trims and the Reel step, a restore discards every staged value and restarts the offline run (R122), the stop acts, excitation follows,
and the next frame's length comes into force. DESIGN CHOICE, log entry 83: a Reel step due at the very boundary at which a SLICE_TRIM write to
the offline slice acts is taken if its run was done, and the slice rejoins with the written values (R104, R111). DESIGN CHOICE, log entry 73:
FRAME_LEN shows the new length from the boundary at which it comes into force, not from its latching within 1 ms of the second (R58). -/
def State.framePrepare (s : State) : State :=
  let s := s.endFrame
  let s := { s with seq := { s.seq with frameNo := if s.seq.frameSeen then s.seq.frameNo + 1 else 0, frameSeen := true,
                                        frameAt := s.ck } }
  let s := { s with slices := s.slices.map fun (x : Slice) => { x with injIdle := false } }
  let s := iterate 5 (fun i s => s.sliceResetEnd i) s.seqResetEnd
  let s := s.when s.reel.restart State.newRun
  let (s, hit) := s.trimBoundary
  let load := s.cal.restoreFrame
  let s := s.when load fun s => iterate 5 (fun i s => s.unstage i) { s with cal := { s.cal with restoreFrame := false } }
  let done := s.flag Reg.REEL_STATUS Fld.REEL_STATUS_RUN_DONE
  let o := s.offline
  let s := s.reelBoundary (load || hit && done)
  let s := s.when ((load || hit) && s.offline == o) State.newRun
  let s := s.when s.seq.stopReq State.seqStopNow
  let ch := s.seq.changed
  let s := { s with seq := { s.seq with changed := [] } }.discardAt fun c => ch.contains c
  let s := s.excBoundary
  s.setReg Reg.FRAME_LEN (BitVec.ofNat 32 s.frameLen)

/-- The frame boundary of MD: injected work takes slices first, then the regular sequence, and the next frame's conversions start (R53, R78). -/
def State.measBoundary (s : State) : State := s.framePrepare.injBoundary.seqBoundary.standbyConv

/-! ### MEAS off and on (R109, R113) -/

/-- What MEAS loses when it turns off: conversions, sequences, sums, the tracker and the run (R112). -/
def State.measClear (s : State) : State :=
  let s := s.disarm .refSettle |>.disarm .calRun
  let s := iterate 5 (fun i s => s.disarm (.recovery i)) s
  { s with slices := Vector.replicate 5 {}, seq := {}, inj := {}, accs := [], mains := { second := s.secondNo }, reel := {},
            cal := { s.cal with restoreFrame := false },
           seqReg := 0, seqInj := 0, excMode := Vector.replicate 4 0 }

/-- MEAS powers up: every slice starts from its fuse trims with bank A, S4 offline and waiting for REF_READY (R109). -/
def State.measUp (s : State) : State :=
  let s := s.measClear
  { s with
    slices := (Vector.range 5).map fun i => { bankA := vget s.fuses.sliceTrim i 0, bankB := vget s.fuses.sliceTrim i 0,
                                              stepRef := vget s.fuses.sliceTrim i 0, trimSince := s.ck,
                                              row := if i = 4 then 22 else 0 }
    reel := { offlineSince := s.ck } }

end Sys2Proof.Machine
end

