-- ==== Sys2Proof/Machine/LoopTrim.lean ====
section
/-! DEFINITION. Loop output trims (spec/05, R114 to R118), the band-gap cross-check (R119) and the calibration block (R120 to
R122). -/

namespace Sys2Proof.Machine

/-! ### Output trims (R114 to R118) -/

/-- The tick's target under the slew limit: toward `set` by no more than STEP, or at once for STEP 0 (R128). -/
def slewTo (prev set step : Nat) : Nat :=
  if step = 0 then set else if prev ≤ set then min set (prev + step) else max set (prev - step)

/-- LOOP_SET.VALUE. -/
def State.loopSetValue (s : State) (n : Nat) : Nat := min 48000 (s.fld (Reg.LOOP_SET n) Fld.LOOP_SET_VALUE)

/-- LOOP_TARGET. -/
def State.target (s : State) (n : Nat) : Nat := s.fld (Reg.LOOP_TARGET n) Fld.LOOP_TARGET_VALUE

/-- LOOP_TARGET put to a value. -/
def State.setTarget (s : State) (n x : Nat) : State := s.setReg (Reg.LOOP_TARGET n) (Fld.LOOP_TARGET_VALUE.put x)

/-- Whether a trim run controls port `n`. -/
def State.trimRunning (s : State) (n : Nat) : Bool := s.flag (Reg.LOOP_TRIM_STATUS n) Fld.LOOP_TRIM_STATUS_RUNNING

/-- Whether any port's trim runs. -/
def State.anyTrim (s : State) : Bool := (List.range 16).any fun n => s.on (portDomain n) && s.trimRunning n

/-- A staged trim is discarded (R117). -/
def State.trimUnstage (s : State) (n : Nat) : State :=
  let s := (s.lower (Reg.LOOP_TRIM_STATUS n) Fld.LOOP_TRIM_STATUS_STAGED).setReg (Reg.LOOP_TRIM_STAGED n) 0
  s.setPort n { s.port n with applyReq := false }

/-- A trim request on port `n` has ended, with this reason. -/
def State.trimEnded (s : State) (n reason : Nat) : State :=
  (s.setFld (Reg.LOOP_TRIM_STATUS n) Fld.LOOP_TRIM_STATUS_REASON reason).raise Reg.LOOP_TRIM_EVENT
    (Fld.LOOP_TRIM_EVENT_DONE.bit n)

/-- A request is refused, rejected or abandoned: counted (R114, R116, R118). -/
def State.trimRejected (s : State) (n reason : Nat) : State :=
  (s.trimEnded n reason).count (Reg.LOOP_REJECT_COUNT n) Reg.CAL_EVENT Fld.CAL_EVENT_CTR_SAT 1

/-- A run is abandoned with ABORTED (R118). -/
def State.trimAbandon (s : State) (n : Nat) : State :=
  match (s.port n).trimRun with
  | none => s
  | some _ =>
    let s := (s.setPort n { s.port n with trimRun := none }).lower (Reg.LOOP_TRIM_STATUS n) Fld.LOOP_TRIM_STATUS_RUNNING
    s.trimRejected n 0x09

/-- A trim word from signed fields (LOOP_TRIM). -/
def loopTrimWord (off gain : Int) : Word :=
  Fld.LOOP_TRIM_OFFSET.put (BitVec.ofInt 14 off).toNat ||| Fld.LOOP_TRIM_GAIN.put (BitVec.ofInt 12 gain).toNat

/-- A trim goes in force at the tick whose TIME and TB_VALID are `at_`: counted and stamped (R117). -/
def State.trimInForceAt (s : State) (n : Nat) (w : Word) (at_ : BitVec 64 × Bool) : State :=
  let s := (s.setReg (Reg.LOOP_TRIM n) w).setPort n { s.port n with trim := w }
  let s := s.count (Reg.LOOP_CAL_COUNT n) Reg.CAL_EVENT Fld.CAL_EVENT_CTR_SAT 1
  let s := (s.setReg (Reg.LOOP_CAL_TIME_LO n) (lo32 at_.1)).setReg (Reg.LOOP_CAL_TIME_HI n) (hi32 at_.1)
  s.setFlag (Reg.LOOP_TRIM_STATUS n) Fld.LOOP_TRIM_STATUS_TB_VALID at_.2

/-- LOOP_TRIM_CTL.START: a request, ignored while RUNNING; it discards a staged trim (R114, R117). It is lost while CK is lost at the
port's die (the model's choice: log entry 64). -/
def State.trimStart (s : State) (n : Nat) : State :=
  if !s.portRuns n || s.trimRunning n then s
  else
    let s := s.trimUnstage n
    s.setPort n { s.port n with trimReq := true }

/-- The reason a request is refused at its tick, or none (R114). -/
def State.trimRefusal (s : State) (n : Nat) : Option Nat :=
  let r := s.roleActive n
  let st := s.reg (Reg.PORT_STATUS n)
  if r = 0 || r = 3 || r = 4 || Fld.PORT_STATUS_MISWIRE.on st || Fld.PORT_STATUS_FAILSAFE.on st ||
      Fld.PORT_STATUS_KEEPER.on st || Fld.PORT_STATUS_LOOP_HEADROOM.on st || s.inTether then some 0x10
  else if s.flag (Reg.BG_CHECK (ldOf n)) Fld.BG_CHECK_DISAGREE then some 0x14
  else none

/-- The first tick after a START checks the port and starts the run or refuses it (R114, R115). -/
def State.trimCheck (s : State) (n : Nat) : State :=
  if !(s.port n).trimReq then s
  else
    let s := s.setPort n { s.port n with trimReq := false }
    match s.trimRefusal n with
    | some r => s.trimRejected n r
    | none =>
      (s.setPort n { s.port n with trimRun := some {} }).raise (Reg.LOOP_TRIM_STATUS n) Fld.LOOP_TRIM_STATUS_RUNNING

/-- A tick of a run in progress, counted from its tick t0: the readback samples of ticks 51 to 150 and 201 to 300 are kept (R115). -/
def State.trimSample (s : State) (n : Nat) (rb : Int) : State :=
  match (s.port n).trimRun with
  | none => s
  | some r =>
    let t := if r.begun then r.tick + 1 else 0
    let r := { r with begun := true, tick := t, stamp := if t ≤ 301 then (s.time, s.tbValid) else r.stamp,
                      upset := r.upset || s.flag (Reg.PORT_STATUS n) Fld.PORT_STATUS_LOOP_HEADROOM,
                      lo := if 51 ≤ t ∧ t ≤ 150 then r.lo ++ [rb] else r.lo,
                      hi := if 201 ≤ t ∧ t ≤ 300 then r.hi ++ [rb] else r.hi }
    s.setPort n { s.port n with trimRun := some r }

/-- 150 ms into the run the port drives 20 mA (R115, step 3). -/
def State.trimHigh (s : State) (n : Nat) : State :=
  match (s.port n).trimRun with
  | none => s
  | some r =>
    if r.tick < 150 || r.high || (s.port n).cutDue then s
    else (s.setPort n { s.port n with trimRun := some { r with high := true } }).setTarget n 40000

/-- 300 ms into the run the port returns to LOOP_SET under its slew limit (R115, step 5). -/
def State.trimReturn (s : State) (n : Nat) : State :=
  match (s.port n).trimRun with
  | none => s
  | some r =>
    if r.tick < 300 || r.back || (s.port n).cutDue then s
    else
      (s.setPort n { s.port n with trimRun := some { r with high := true, back := true } }).setTarget n
        (slewTo (s.target n) (s.loopSetValue n) (s.fld (Reg.LOOP_SLEW n) Fld.LOOP_SLEW_STEP))

/-- Whether a sample deviates from its point's mean by more than 10 counts (R116). -/
def trimNoise (l : List Int) : Bool := l.any fun x => decide (10 * l.length < (x * l.length - sumInt l).natAbs)

/-- GAIN_new, from the point sums in 0.01 count: (a − 1) / 2.5 ppm with a = (I_HI − I_LO) / 32000 (R116). -/
def trimGain (old lo hi : Int) : Int := old + roundDiv (hi - lo - 3200000) 8

/-- OFFSET_new: 100 × b with b = I_LO − 8000 × a (R116). -/
def trimOffset (old lo hi : Int) : Int := old + roundDiv (5 * lo - hi) 4

/-- The first test of R116 a run fails, or none. -/
def trimTest (r : TrimRun) (off gain : Int) : Option Nat :=
  if r.upset || sumInt r.lo < 400000 || sumInt r.hi < 2000000 then some 0x10
  else if trimNoise r.lo || trimNoise r.hi then some 0x06
  else if 8000 < off.natAbs then some 0x11
  else if 2000 < gain.natAbs then some 0x12
  else none

/-- 301 ms into the run the result is known: in force, staged or rejected (R115 to R117). -/
def State.trimResult (s : State) (n : Nat) : State :=
  match (s.port n).trimRun with
  | none => s
  | some r =>
    if r.tick < 301 then s
    else
      let off := trimOffset (Fld.LOOP_TRIM_OFFSET.sget (s.port n).trim) (sumInt r.lo) (sumInt r.hi)
      let gain := trimGain (Fld.LOOP_TRIM_GAIN.sget (s.port n).trim) (sumInt r.lo) (sumInt r.hi)
      let s := (s.setPort n { s.port n with trimRun := none }).lower (Reg.LOOP_TRIM_STATUS n) Fld.LOOP_TRIM_STATUS_RUNNING
      let s := (s.setReg (Reg.LOOP_TRIM_POINTS_LO n) (ofInt32 (sumInt r.lo))).setReg (Reg.LOOP_TRIM_POINTS_HI n)
        (ofInt32 (sumInt r.hi))
      match trimTest r off gain with
      | some c => (s.trimRejected n c).log .warning 0x0031 0x20 n (BitVec.ofNat 32 c) 0 0
      | none =>
        let s := s.trimEnded n 0
        if s.flag (Reg.LOOP_TRIM_CTL n) Fld.LOOP_TRIM_CTL_COMMIT then
          (s.setReg (Reg.LOOP_TRIM_STAGED n) (loopTrimWord off gain)).raise (Reg.LOOP_TRIM_STATUS n)
            Fld.LOOP_TRIM_STATUS_STAGED
        else s.trimInForceAt n (loopTrimWord off gain) r.stamp

/-- LOOP_TRIM_CTL.APPLY: no effect with STAGED 0 (R117). It is lost while CK is lost at the port's die (the model's choice: log entry 64). -/
def State.trimApply (s : State) (n : Nat) : State :=
  if s.portRuns n && s.flag (Reg.LOOP_TRIM_STATUS n) Fld.LOOP_TRIM_STATUS_STAGED then
    s.setPort n { s.port n with applyReq := true }
  else s

/-- A tick after APPLY puts the staged trim in force (R117); a written trim is in force from the tick (R118). DESIGN CHOICE, log entry 88: of a
LOOP_TRIM write and an APPLY that count for the same tick the staged trim goes in force, and the written value is lost. -/
def State.trimTick (s : State) (n : Nat) : State :=
  if (s.port n).applyReq then
    let w := s.reg (Reg.LOOP_TRIM_STAGED n)
    (s.trimUnstage n).trimInForceAt n w (s.time, s.tbValid)
  else s.setPort n { s.port n with trim := s.reg (Reg.LOOP_TRIM n) }

/-- A software write of LOOP_TRIM: each field clamped to its limit; ignored while RUNNING (R118). It is lost while CK is lost at the
port's die (the model's choice: log entry 64). -/
def State.trimWrite (s : State) (n : Nat) (v : Word) : State :=
  if !s.portRuns n || s.trimRunning n then s
  else s.setReg (Reg.LOOP_TRIM n) (loopTrimWord (clampInt (-8000) 8000 (Fld.LOOP_TRIM_OFFSET.sget v))
    (clampInt (-2000) 2000 (Fld.LOOP_TRIM_GAIN.sget v)))

/-- LOOP_TRIM_START. -/
def execLoopTrimStart (n : PortId) (s : State) : Host.Outcome State Fault Refusal :=
  (s.hostRow (Reg.LOOP_TRIM_CTL n) false fun s => s.trimStart n).done

/-- LOOP_TRIM_HIGH_POINT. -/
def execLoopTrimHighPoint (n : PortId) (s : State) : Host.Outcome State Fault Refusal := (s.trimHigh n).done

/-- LOOP_TRIM_RETURN. -/
def execLoopTrimReturn (n : PortId) (s : State) : Host.Outcome State Fault Refusal := (s.trimReturn n).done

/-- LOOP_TRIM_RESULT. -/
def execLoopTrimResult (n : PortId) (s : State) : Host.Outcome State Fault Refusal := (s.trimResult n).done

/-- APPLY. -/
def execLoopTrimApply (n : PortId) (s : State) : Host.Outcome State Fault Refusal :=
  (s.hostRow (Reg.LOOP_TRIM_CTL n) false fun s => s.trimApply n).done

/-- LOOP_TRIM_WRITE. -/
def execLoopTrimWrite (n : PortId) (v : Word) (s : State) : Host.Outcome State Fault Refusal :=
  (s.hostRow (Reg.LOOP_TRIM n) false fun s => (s.overLate (Reg.LOOP_TRIM n) (BitVec.allOnes 32)).trimWrite n v).done

/-! ### Band-gap cross-check (R119) -/

/-- The check of loop die `d` ends with `diff` in 0.1 ppm. -/
def State.bgEnd (s : State) (d : Nat) (diff : Int) : State :=
  let a := Reg.BG_CHECK d
  let was := s.flag a Fld.BG_CHECK_DISAGREE
  let x := clampInt (-32767) 32767 diff
  let bad := decide (s.fld Reg.CAL_BG_LIM Fld.CAL_BG_LIM_LIMIT < x.natAbs)
  let s := (s.setFld a Fld.BG_CHECK_DIFF (BitVec.ofInt 16 x).toNat).raise a Fld.BG_CHECK_VALID
  let s := s.setFlag a Fld.BG_CHECK_DISAGREE bad
  s.when (bad && !was) fun s =>
    (s.raise Reg.CAL_EVENT (Fld.CAL_EVENT_REF_DISAGREE.bit d)).log .error 0x0032 0x22 d (ofInt32 x) 0 0

/-- BG_CHECK_END. -/
def execBgCheckEnd (d : LdId) (diff : Int) (s : State) : Host.Outcome State Fault Refusal :=
  (s.fall (.bgCheck d) fun s => s.bgEnd d diff).done

/-! ### The calibration block (R120 to R122) -/

/-- A record of the block: trims, TB_VALID, counts and time (R120). -/
def calRecord (off gain : Int) (tbv : Bool) (count reject : Word) (lo hi : Word) : List Byte :=
  leBytes 2 (BitVec.ofInt 16 off).toNat ++ leBytes 2 (BitVec.ofInt 16 gain).toNat ++ [BitVec.ofNat 8 (b2n tbv), 0, 0, 0] ++
    wordBytes count ++ wordBytes reject ++ wordBytes lo ++ wordBytes hi

/-- The record of slice `i`, all zero while MEAS is off. -/
def State.sliceRecord (s : State) (i : Nat) : List Byte :=
  if !s.on .meas then List.replicate 24 0
  else
    let w := s.trimInForce i
    calRecord (Fld.SLICE_TRIM_OFFSET.sget w) (Fld.SLICE_TRIM_GAIN.sget w)
      (s.flag (Reg.SLICE_CAL_STATUS i) Fld.SLICE_CAL_STATUS_TB_VALID) (s.reg (Reg.SLICE_CAL_COUNT i))
      (s.reg (Reg.SLICE_REJECT_COUNT i)) (s.reg (Reg.SLICE_CAL_TIME_LO i)) (s.reg (Reg.SLICE_CAL_TIME_HI i))

/-- The record of port `n`, all zero while its domain is off. -/
def State.portRecord (s : State) (n : Nat) : List Byte :=
  if !s.on (portDomain n) then List.replicate 24 0
  else
    let w := (s.port n).trim
    calRecord (Fld.LOOP_TRIM_OFFSET.sget w) (Fld.LOOP_TRIM_GAIN.sget w)
      (s.flag (Reg.LOOP_TRIM_STATUS n) Fld.LOOP_TRIM_STATUS_TB_VALID) (s.reg (Reg.LOOP_CAL_COUNT n))
      (s.reg (Reg.LOOP_REJECT_COUNT n)) (s.reg (Reg.LOOP_CAL_TIME_LO n)) (s.reg (Reg.LOOP_CAL_TIME_HI n))

/-- What a capture holds: the block's bytes between GENERATION and the CRC (R120, R121, step 2). -/
def State.calBody (s : State) : List Byte :=
  let ports := bitsOf ((List.range 16).map fun n => s.on (portDomain n))
  leBytes 2 ports ++ [BitVec.ofNat 8 (if s.on .meas then 31 else 0), BitVec.ofNat 8 (b2n s.tbValid)] ++
    wordBytes (s.reg Reg.UNIQUE_ID_LO) ++ wordBytes (s.reg Reg.UNIQUE_ID_HI) ++ timeBytes s.time ++
    (List.range 5).flatMap (fun i => s.sliceRecord i) ++ (List.range 16).flatMap fun n => s.portRecord n

/-- The block as the part writes it, of a capture and generation `gen` (R120, R121). -/
def calBlock (body : List Byte) (gen : Word) : List Byte :=
  let bs := leBytes 4 0xCA1B1696 ++ leBytes 2 1 ++ leBytes 2 540 ++ wordBytes gen ++ body
  bs ++ wordBytes (crc32c bs)

/-- The bytes of the staging area that the block takes. -/
def State.calStage (s : State) : List Byte := (List.range 135).flatMap fun w => wordBytes (s.reg (Reg.CAL_STAGE w))

/-- CAL_BLOCK_STATUS.BUSY. -/
def State.calBusy (s : State) : Bool := s.flag Reg.CAL_BLOCK_STATUS Fld.CAL_BLOCK_STATUS_BUSY

/-- RESULT and LAST_OP. -/
def State.calResult (s : State) (op r : Nat) : State :=
  (s.setFld Reg.CAL_BLOCK_STATUS Fld.CAL_BLOCK_STATUS_RESULT r).setFld Reg.CAL_BLOCK_STATUS Fld.CAL_BLOCK_STATUS_LAST_OP op

/-- CAL_BLOCK_CTL.EXPORT: BUSY sets, or the request completes at once with BUSY (R121). -/
def State.calSaveReq (s : State) : State :=
  if !s.on .core then s
  else if s.calBusy || s.anyTrim then (s.calResult 0 0x25).raise Reg.CAL_EVENT Fld.CAL_EVENT_EXPORT_DONE
  else { s.raise Reg.CAL_BLOCK_STATUS Fld.CAL_BLOCK_STATUS_BUSY with cal := { s.cal with exportReq := true } }

/-- Bytes laid into the staging area as words. -/
def State.stageBytes (s : State) (bs : List Byte) : State :=
  iterate 135 (fun w s => s.setReg (Reg.CAL_STAGE w) (wordOfBytes (sliceBytes bs (4 * w) 4))) s

/-- The capture is kept with its CK edge. -/
def State.calKeep (s : State) : State :=
  { s with cal := { s.cal with exportReq := false, image := some (s.ck, s.calBody) } }

/-- The capture at the first loop tick after the request, once the tick has acted (R121, step 2). -/
def State.calCapture (s : State) : State := s.when s.cal.exportReq State.calKeep

/-- A frame boundary that acts on the very edge of the capture is in it too (R121, step 2). -/
def State.calRecapture (s : State) : State :=
  match s.cal.image with
  | some (c, _) => if c = s.ck then s.calKeep else s
  | none => s

/-- A captured block is given to the host: CAL_GEN increments, and the result is its GENERATION, also where CAL_GEN has been written since the
capture (R121, steps 3 to 5). By the row CAL_EXPORT_CAPTURE, or by the next loop tick. -/
def State.calSave (s : State) : State :=
  match s.cal.image with
  | none => s
  | some (_, body) =>
    let gen := s.reg Reg.CAL_GEN + 1
    let s := ({ s with cal := { s.cal with image := none } }.setReg Reg.CAL_GEN gen).stageBytes (calBlock body gen)
    ((s.lower Reg.CAL_BLOCK_STATUS Fld.CAL_BLOCK_STATUS_BUSY).calResult 0 0).raise Reg.CAL_EVENT Fld.CAL_EVENT_EXPORT_DONE

/-- The signed 16-bit number at an offset. -/
def int16At (bs : List Byte) (o : Nat) : Int := (BitVec.ofNat 16 (leNat (sliceBytes bs o 2))).toInt

/-- The 32-bit word at an offset. -/
def word32At (bs : List Byte) (o : Nat) : Word := wordOfBytes (sliceBytes bs o 4)

/-- Whether slice record `i` of a block is valid. -/
def sliceValid (bs : List Byte) (i : Nat) : Bool := (byteAt bs 0x00E).toNat.testBit i

/-- Whether port record `n` of a block is valid. -/
def portValid (bs : List Byte) (n : Nat) : Bool := (leNat (sliceBytes bs 0x00C 2)).testBit n

/-- Whether a valid record lies outside its limits (R122). -/
def State.calOutOfRange (s : State) (bs : List Byte) : Bool :=
  ((List.range 5).any fun i => sliceValid bs i &&
    (decide (s.calLim Reg.CAL_LIM_RANGE Fld.CAL_LIM_RANGE_OFFSET < (int16At bs (0x020 + 24 * i)).natAbs) ||
     decide (s.calLim Reg.CAL_LIM_RANGE Fld.CAL_LIM_RANGE_GAIN < (int16At bs (0x022 + 24 * i)).natAbs))) ||
  ((List.range 16).any fun n => portValid bs n &&
    (decide (8000 < (int16At bs (0x098 + 24 * n)).natAbs) || decide (2000 < (int16At bs (0x09A + 24 * n)).natAbs)))

/-- The first check of R122 the staged block fails, or none. -/
def State.calRefusal (s : State) (bs : List Byte) : Option Nat :=
  if s.calBusy || s.anyTrim then some 0x25
  else if word32At bs 0 ≠ 0xCA1B1696 || leNat (sliceBytes bs 4 2) ≠ 1 || leNat (sliceBytes bs 6 2) ≠ 540 then some 0x20
  else if word32At bs 0x218 ≠ crc32c (bs.take 0x218) then some 0x21
  else if word32At bs 0x010 ≠ s.reg Reg.UNIQUE_ID_LO || word32At bs 0x014 ≠ s.reg Reg.UNIQUE_ID_HI then some 0x22
  else if ((List.range 5).any (sliceValid bs) && !s.on .meas) ||
      (List.range 16).any (fun n => portValid bs n && !s.on (portDomain n)) then some 0x24
  else if s.calOutOfRange bs then some 0x23
  else none

/-- A 64-bit time at an offset. -/
def time64At (bs : List Byte) (o : Nat) : BitVec 64 := BitVec.ofNat 64 (leNat (sliceBytes bs o 8))

/-- CAL_BLOCK_CTL.RESTORE: the staged block is checked, then refused or scheduled (R122). DESIGN CHOICE, log entry 74: a block without a
valid slice record has nothing for a frame boundary, so the offline run does not restart and staged slice values stay; log entry 83: the SOURCE of a refusal's log entry is System (R307). -/
def State.calLoad (s : State) : State :=
  if !s.on .core then s
  else
    let bs := s.calStage
    match s.calRefusal bs with
    | some r => ((s.calResult 1 r).raise Reg.CAL_EVENT Fld.CAL_EVENT_RESTORE_REFUSED).log .warning 0x0033 0x00 0
        (BitVec.ofNat 32 r) 0 0
    | none =>
      let s := (s.calResult 1 0).raise Reg.CAL_BLOCK_STATUS Fld.CAL_BLOCK_STATUS_BUSY
      let s := iterate 5 (fun i s => s.when (sliceValid bs i) fun s =>
        let o := 0x020 + 24 * i
        s.setSlice i { s.slice i with restore := some (trimWord (int16At bs o) (int16At bs (o + 2)), word32At bs (o + 8),
          word32At bs (o + 12), time64At bs (o + 16), (byteAt bs (o + 4)).getLsbD 0) }) s
      let ports := ((List.range 16).filter (portValid bs)).map fun n =>
        let o := 0x098 + 24 * n
        (n, loopTrimWord (int16At bs o) (int16At bs (o + 2)), word32At bs (o + 8), word32At bs (o + 12),
          time64At bs (o + 16), (byteAt bs (o + 4)).getLsbD 0)
      let sl := (List.range 5).any (sliceValid bs)
      { s with cal := { s.cal with restoreFrame := sl, restoreTick := true, ports, gen := word32At bs 8 } }

/-- Restored port records go in force at the tick at or after the slices' boundary, every staged port trim is discarded, and the restore is
over: the tick is its last edge even where no port record is valid (R122; log entry 66). DESIGN CHOICE, log entry 88: a restored record
goes in force over a LOOP_TRIM write that counts for the same tick. DESIGN CHOICE, log entry 83: the record of a port whose domain is off at
that tick is lost, one whose domain has been off and on again in between still goes in force, and a trim run started since the acceptance
goes on, with the restored values as its OLD. -/
def State.calLoadTick (s : State) : State :=
  if !s.cal.restoreTick || s.cal.restoreFrame then s
  else
    let s := iterate 16 (fun n s => s.when (s.on (portDomain n)) fun s => s.trimUnstage n) s
    let s := (s.cal.ports.filter fun r => s.on (portDomain r.1)).foldl (fun s (n, w, cnt, rej, t, v) =>
      let s := (s.setReg (Reg.LOOP_TRIM n) w).setReg (Reg.LOOP_CAL_COUNT n) cnt
      let s := s.setPort n { s.port n with trim := w }
      let s := (s.setReg (Reg.LOOP_REJECT_COUNT n) rej).setReg (Reg.LOOP_CAL_TIME_LO n) (lo32 t)
      (s.setReg (Reg.LOOP_CAL_TIME_HI n) (hi32 t)).setFlag (Reg.LOOP_TRIM_STATUS n) Fld.LOOP_TRIM_STATUS_TB_VALID v) s
    { s with cal := { s.cal with restoreTick := false, ports := [] } }.restoreDone

/-- EXPORT. -/
def execCalExport (s : State) : Host.Outcome State Fault Refusal := s.calSaveReq.done

/-- CAL_EXPORT_CAPTURE. -/
def execCalExportCapture (s : State) : Host.Outcome State Fault Refusal := s.calSave.done

/-- RESTORE. -/
def execCalRestore (s : State) : Host.Outcome State Fault Refusal := s.calLoad.done

end Sys2Proof.Machine
end

