-- ==== Sys2Proof/Machine/Ports.lean ====
section
/-! DEFINITION. Process ports and loop keepers (spec/06, R124 to R149): set-points, fail-safe causes and release writes, role
changes, protection, the keeper, and what one loop tick does to a port. -/

namespace Sys2Proof.Machine

/-- OUT_SOURCE, OUT_SINK or TETHER (R124). -/
def isOut (r : Nat) : Bool := r == 1 || r == 2 || r == 4

/-- Whether a register write reaches port `n`'s die: domain on, link up, CK there (R16, R38). DESIGN CHOICE, log entry 64: while CK is
lost at the die its ports take no write of LOOP_SET, ROLE, FS_FORCE or LOOP_TRIM and no START or APPLY of a trim, the host port answers
OK as for any other register, and registers without an action of their own are stored. -/
def State.portWritable (s : State) (n : Nat) : Bool :=
  s.on (portDomain n) && !s.linkIsDown (ldDie (ldOf n)) && !s.ckIsLost (ldDie (ldOf n))

/-- Whether port `n` takes a set-point or FS_FORCE its die already holds, one that missed its boundary (R15): as `portWritable`, and P0 in
the LD0 island too, where the keeper core's writes come to it (R198, R291). -/
def State.portTakes (s : State) (n : Nat) : Bool := s.portRuns n && !s.linkIsDown (ldDie (ldOf n))

/-- What the part's own supply takes of P0's loop current in survival form: 3.30 mA; a lower target is driven as this (R294). -/
def survivalCounts : Nat := 6600

/-- The selected fail-safe level; values above 48000 act as 48000 (R143). -/
def State.fsLevel (s : State) (n : Nat) : Nat :=
  min 48000 (if s.flag (Reg.PORT_CTL n) Fld.PORT_CTL_FS_SELECT then s.fld (Reg.LOOP_FS n) Fld.LOOP_FS_HIGH
             else s.fld (Reg.LOOP_FS n) Fld.LOOP_FS_LOW)

/-- A latched cause of R143 stands. -/
def Port.latched (p : Port) : Bool := p.keeperLat || p.guardLat || p.resetLat || p.ckLat || p.parkLat

/-- A cause of R143 stands: FS_FORCE as the last loop tick found it, or a latched one. -/
def State.fsCause (s : State) (n : Nat) : Bool := (s.port n).fsForced || (s.port n).latched

/-- In Tether mode P0 drives no less than the 3.30 mA its supply takes (R294); a probe limits a port to 8000 counts (R140). -/
def State.driveCap (s : State) (n x : Nat) : Nat :=
  max (if n == 0 && s.inTether then survivalCounts else 0) (if (s.port n).probing then min 8000 x else x)

/-- BD holds TETHER_ARMED equal to P0's TETHER_READY, whatever LD0's CK does, until a power-fail warning latches it (R148, R293). -/
def State.armTether (s : State) : State :=
  if s.flag Reg.BD_STATUS Fld.BD_STATUS_PFW then s
  else s.setFlag Reg.BD_STATUS Fld.BD_STATUS_TETHER_ARMED (s.flag (Reg.PORT_STATUS 0) Fld.PORT_STATUS_TETHER_READY)

/-- TETHER_READY, from P0's role, MISWIRE and its last sample, and TETHER_ARMED with it (R148, R293). -/
def State.readyCheck (s : State) : State :=
  let st := Reg.PORT_STATUS 0
  (s.setFlag st Fld.PORT_STATUS_TETHER_READY (s.roleActive 0 == 4 && s.fld (Reg.PORT_CTL 0) Fld.PORT_CTL_ROLE == 4 &&
    !s.flag st Fld.PORT_STATUS_MISWIRE && decide (7200 ≤ (s.reg (Reg.LOOP_RB 0)).toInt) &&
    decide (1050 ≤ Fld.PORT_VTERM_VTERM.sget (s.reg (Reg.PORT_VTERM 0))))).armTether

/-- Port `n` holds its target from now on (R146, R293, R297). DESIGN CHOICE, log entry 75: one that drives a fail-safe level, or has its
switches open, holds its set-point. -/
def State.holdTarget (s : State) (n : Nat) : State :=
  let p := s.port n
  if p.parked then s
  else s.setPort n { p with parked := true, held := if s.fsCause n || s.switchesOpen n then s.loopSetValue n else s.target n }

/-- The keeper raises a wake request when a condition sets on a held port while CORE is off: `k` 0 LOOP_MISMATCH, 1 MISWIRE, 2
LOOP_HEADROOM, 3 THERMAL (R146, R288). -/
def State.keeperWake (s : State) (n k : Nat) : State :=
  let d := ldOf n
  if !s.on .core && s.flag (Reg.PORT_STATUS n) Fld.PORT_STATUS_KEEPER &&
      (Fld.KEEPER_CTL_WAKE_EN.bit k).on (s.reg (Reg.KEEPER_CTL d)) then
    (s.raise (Reg.LD_EVENT d) Fld.LD_EVENT_KEEPER_WAKE).wakeSource 4 [2]
  else s

/-- The fail-safe level is driven, in one step; FAILSAFE sets on entry, and a trim run ends (R128, R143, R149, R118). -/
def State.enterFs (s : State) (n : Nat) : State :=
  if !isOut (s.roleActive n) || s.switchesOpen n then s
  else
    let s := (s.trimAbandon n).setTarget n (s.driveCap n (s.fsLevel n))
    let s := s.lower (Reg.PORT_STATUS n) Fld.PORT_STATUS_SLEWING
    if s.flag (Reg.PORT_STATUS n) Fld.PORT_STATUS_FAILSAFE then s
    else (s.raise (Reg.PORT_STATUS n) Fld.PORT_STATUS_FAILSAFE).raise (Reg.PORT_EVENT n) Fld.PORT_EVENT_FAILSAFE

/-- A latched cause arises: recorded in every role, driven in an OUT role. Where it arises on a tick edge (`edge`), a release write that
counted for this very edge acts again at the next tick (R143, R144). -/
def State.latchFs (s : State) (n : Nat) (edge : Bool) (f : Port → Port) : State :=
  let p := f (s.port n)
  (s.setPort n { p with released := p.released || (edge && p.relAt == some s.ck) }).enterFs n

/-! ### Set-points and release writes (R127, R144, R147) -/

/-- A release write of LOOP_SET is stored for its tick; above 48000 it is clamped with SET_RANGE (R127, R144). -/
def State.loopSetStore (s : State) (n : Nat) (v : Word) : State :=
  let x := Fld.LOOP_SET_VALUE.get v
  let s := s.overLate (Reg.LOOP_SET n) (BitVec.allOnes 32)
  let s := s.when (48000 < x) fun s => s.raise (Reg.PORT_EVENT n) Fld.PORT_EVENT_SET_RANGE
  (s.setFld (Reg.LOOP_SET n) Fld.LOOP_SET_VALUE (min 48000 x)).setPort n { s.port n with released := true }

/-- A write of LOOP_SET from CD. -/
def State.loopSetWrite (s : State) (n : Nat) (v : Word) : State := s.when (s.portWritable n) fun s => s.loopSetStore n v

/-- LOOP_SET_WRITE. -/
def execLoopSetWrite (n : PortId) (v : Word) (s : State) : Host.Outcome State Fault Refusal := (s.loopSetWrite n v).done

/-- PORT_CTL.FS_FORCE set or cleared; it acts at the next tick (R143). An older late write of the register no longer writes it (R15). -/
def State.fsForceStore (s : State) (n : Nat) (on : Bool) : State :=
  (s.overLate (Reg.PORT_CTL n) Fld.PORT_CTL_FS_FORCE.mask).setFlag (Reg.PORT_CTL n) Fld.PORT_CTL_FS_FORCE on

/-- A write of FS_FORCE from CD. -/
def State.fsForce (s : State) (n : Nat) (on : Bool) : State := s.when (s.portWritable n) fun s => s.fsForceStore n on

/-- FS_FORCE. -/
def execFsForce (n : PortId) (on : Bool) (s : State) : Host.Outcome State Fault Refusal :=
  (s.fsForce n on).done

/-- HELD clears when heartbeats count and no port of the die is held on a timeout (R145). -/
def State.heldCheck (s : State) (d : Nat) : State :=
  if (s.keeper d).beats && !(List.range 4).any (fun i => (s.port (4 * d + i)).taken) then
    s.lower (Reg.KEEPER_STATUS d) Fld.KEEPER_STATUS_HELD
  else s

/-- The tick a release write counts for: every latched cause, the hold and KEEPER end (R144, R145, R146); during a reset the
write stays stored. -/
def State.portRelease (s : State) (n : Nat) : State :=
  let p := s.port n
  if !p.released || p.resetTicks != 0 then s
  else
    let s := s.setPort n { p with keeperLat := false, guardLat := false, resetLat := false, ckLat := false, parkLat := false,
                                  parked := false, taken := false, released := false, relAt := some s.ck }
    let s := s.lower (Reg.PORT_STATUS n) Fld.PORT_STATUS_KEEPER
    (s.lower (Reg.KEEPER_STATUS (ldOf n)) Fld.KEEPER_STATUS_PARKED).heldCheck (ldOf n)

/-! ### Roles (R124, R125) -/

/-- MISWIRE and a pending retry are cleared (R125). -/
def State.miswireForget (s : State) (n : Nat) : State :=
  let s := (s.disarm (.miswireProbe n)).setPort n { s.port n with probing := false, openAt := none }
  (s.lower (Reg.PORT_STATUS n) Fld.PORT_STATUS_MISWIRE).when (n == 0) State.readyCheck

/-- A probe begins: the switches close for 2 ms with the stage limited to 8000 counts (R140). -/
def State.probeStart (s : State) (n : Nat) : State :=
  if !s.switchesOpen n then s
  else
    let s := (s.setPort n { s.port n with probing := true, openAt := none }).arm (.miswireProbe n) (msCk 2)
    s.when (s.roleActive n != 0) fun s => s.raise (Reg.PORT_STATUS n) Fld.PORT_STATUS_DRIVING

/-- A write of PORT_CTL.ROLE (R124, R125, R118, R167); P0 is ready for Tether mode only while its role is TETHER (R148, R293). With
MISWIRE_RETRY 0 it ends the open state of a MISWIRE (R140): OFF clears it, any other role starts the probe a software clear starts
(DEDUCED, log entry 66). A late write of P0's ROLE is lost while LOOP_A is off (the model's choice: log entry 20). -/
def State.roleWrite (s : State) (n r : Nat) : State :=
  if !s.portWritable n then s
  else if 4 < r || (r = 4 && n != 0) then s.raise (Reg.PORT_EVENT n) Fld.PORT_EVENT_ROLE_ERR
  else
    let old := s.fld (Reg.PORT_CTL n) Fld.PORT_CTL_ROLE
    let s := (s.setFld (Reg.PORT_CTL n) Fld.PORT_CTL_ROLE r).trimAbandon n
    let s := s.when (n == 0) State.readyCheck
    let latched := s.fld (Reg.PORT_PROT n) Fld.PORT_PROT_MISWIRE_RETRY == 0
    let s := s.when (r != 0 && latched) fun s => s.probeStart n
    let s := s.when (old != r) fun s =>
      let p := s.port n
      (s.toneClose n).setPort n { p with roleStep := 1 }
    s.when (r == 0) fun s => s.miswireForget n

/-- ROLE_WRITE; the guard lock refuses a change (R51). -/
def execRoleWrite (n : PortId) (role : BitVec 4) (s : State) : Host.Outcome State Fault Refusal :=
  (s.when (!s.locked || s.fld (Reg.PORT_CTL n) Fld.PORT_CTL_ROLE == role.toNat) fun s =>
    (s.overLate (Reg.PORT_CTL n) (Fld.PORT_CTL_ROLE.put 15)).gRow (Reg.PORT_CTL n) fun s => s.roleWrite n role.toNat).done

/-- The stage stops driving and both switches open (R125, step 1; R168). -/
def State.stageOff (s : State) (n : Nat) : State :=
  let st := Reg.PORT_STATUS n
  let s := (((s.modemStop n).modemDeaf n).setTarget n 0).lower st Fld.PORT_STATUS_TETHER_READY
  (((s.setFld st Fld.PORT_STATUS_ROLE_ACTIVE 0).lower st Fld.PORT_STATUS_FAILSAFE).lower st Fld.PORT_STATUS_SLEWING).lower st
    Fld.PORT_STATUS_DRIVING

/-- The tick's part in a role change; a new role begins to drive from 0 counts (R125). -/
def State.roleTick (s : State) (n : Nat) : State :=
  let p := s.port n
  let want := s.fld (Reg.PORT_CTL n) Fld.PORT_CTL_ROLE
  let act := s.roleActive n
  if p.resetTicks != 0 || p.roleStep = 0 then s
  else if p.roleStep = 1 then
    if want = act then s.setPort n { p with roleStep := 0 }
    else if (want = 2 && act = 4) || (want = 4 && act = 2) then
      (s.setPort n { p with roleStep := 0 }).setFld (Reg.PORT_STATUS n) Fld.PORT_STATUS_ROLE_ACTIVE want
    else (s.setPort n { p with roleStep := if want = 0 then 0 else 2 }).stageOff n
  else ((s.setPort n { p with roleStep := 0 }).setFld (Reg.PORT_STATUS n) Fld.PORT_STATUS_ROLE_ACTIVE want).setTarget n 0

/-! ### Mis-wiring, short circuit, heat (R139 to R142) -/

/-- Both switches open for mis-wiring, also while CK is lost: counted, and logged when MISWIRE sets from 0; the receiver is blanked, P0 is no longer ready for Tether
mode, and the next loop tick ends a trim run, which the opening has upset, and a transmission (R116, R139, R140, R148, R154). -/
def State.miswireOpen (s : State) (n : Nat) : State :=
  if !s.portPowered n || s.roleActive n == 0 || s.switchesOpen n then s
  else
    let st := Reg.PORT_STATUS n
    let first := !s.flag st Fld.PORT_STATUS_MISWIRE
    let p := s.port n
    let run := p.trimRun.map fun r => { r with upset := r.upset || decide (r.tick < 301) }
    let s := (s.disarm (.miswireProbe n)).setPort n { p with probing := false, openAt := some s.ck, cutDue := true, trimRun := run }
    let s := (s.hearEnd n).lower st Fld.PORT_STATUS_TETHER_READY
    let s := s.when (n == 0) State.armTether
    let s := (((s.raise st Fld.PORT_STATUS_MISWIRE).lower st Fld.PORT_STATUS_DRIVING).lower st Fld.PORT_STATUS_FAILSAFE).setTarget n 0
    let s := (s.count (Reg.MISWIRE_COUNT n) (Reg.PORT_EVENT n) Fld.PORT_EVENT_CTR_SAT 1).raise (Reg.PORT_EVENT n)
      Fld.PORT_EVENT_MISWIRE
    s.when first fun s => (s.log .error 0x0040 0x20 n (s.reg (Reg.MISWIRE_COUNT n)) 0 0).keeperWake n 1

/-- A probe ends: the switches open again, or MISWIRE clears and the target slews from 8000 (R140); where a cause of R143 stands the port
drives its fail-safe level, without CK too (R17). -/
def State.probeEnd (s : State) (n : Nat) (recurs : Bool) : State :=
  if recurs then s.miswireOpen n
  else
    let s := s.miswireForget n
    if !isOut (s.roleActive n) then s else if s.fsCause n then s.enterFs n else s.setTarget n 8000

/-- The retry of a MISWIRE is due RETRY × 100 ms after the opening, by MISWIRE_RETRY as it stands; none with RETRY 0 (R140). -/
def State.miswireProbe (s : State) (n : Nat) : State :=
  let r := s.fld (Reg.PORT_PROT n) Fld.PORT_PROT_MISWIRE_RETRY
  match (s.port n).openAt with
  | none => s
  | some t => if r = 0 || !s.switchesOpen n then s else (s.passTo (t + msCk (100 * r))).probeStart n

/-- MISWIRE. -/
def execMiswire (n : PortId) (s : State) : Host.Outcome State Fault Refusal := (s.miswireOpen n).done

/-- MISWIRE_CLR. -/
def execMiswireClr (n : PortId) (s : State) : Host.Outcome State Fault Refusal :=
  (s.hostRow (Reg.PORT_CTL n) false fun s => s.when (s.portWritable n) fun s => s.probeStart n).done

/-- MISWIRE_PROBE. -/
def execMiswireProbe (n : PortId) (s : State) : Host.Outcome State Fault Refusal :=
  (s.miswireProbe n).done

/-- MISWIRE_PROBE_END. -/
def execMiswireProbeEnd (n : PortId) (recurs : Bool) (s : State) : Host.Outcome State Fault Refusal :=
  (s.fall (.miswireProbe n) fun s => s.probeEnd n recurs).done

/-- Whether the supply switch of port `n` is closed: IN with SUPPLY_EN, the blocking switches closed, no short (R141), and no CK loss
since the last release write (R17, R143). -/
def State.supplyOn (s : State) (n : Nat) : Bool :=
  s.roleActive n == 3 && s.flag (Reg.PORT_CTL n) Fld.PORT_CTL_SUPPLY_EN && !s.switchesOpen n &&
    !s.flag (Reg.PORT_STATUS n) Fld.PORT_STATUS_SHORT && !(s.port n).ckLat

/-- The supply switch of a powered IN port opens for a short: SHORT, the modem suspended, a probe each second (R141, R168). -/
def State.shortOpen (s : State) (n : Nat) : State :=
  let st := Reg.PORT_STATUS n
  if s.portRuns n && s.supplyOn n then
    (((s.raise st Fld.PORT_STATUS_SHORT).raise (Reg.PORT_EVENT n) Fld.PORT_EVENT_SHORT).modemSuspend n true).arm (.shortRetry n)
      (msCk 1020)
  else s

/-- SHORT clears. -/
def State.shortClear (s : State) (n : Nat) : State :=
  if s.flag (Reg.PORT_STATUS n) Fld.PORT_STATUS_SHORT then
    ((s.disarm (.shortRetry n)).lower (Reg.PORT_STATUS n) Fld.PORT_STATUS_SHORT).modemSuspend n false
  else s

/-- SHORT. -/
def execPortShort (n : PortId) (s : State) : Host.Outcome State Fault Refusal := (s.shortOpen n).done

/-- SHORT_PROBE. -/
def execShortProbe (n : PortId) (limiting : Bool) (s : State) : Host.Outcome State Fault Refusal :=
  (s.fall (.shortRetry n) fun s => if limiting then s.arm (.shortRetry n) (msCk 1000) else s.shortClear n).done

/-- The thermal limiter acts or releases (R142). -/
def State.thermal (s : State) (n : Nat) (hot : Bool) : State :=
  let st := Reg.PORT_STATUS n
  if !s.portPowered n then s
  else if !hot then s.lower st Fld.PORT_STATUS_THERMAL
  else if s.flag st Fld.PORT_STATUS_THERMAL then s
  else ((s.raise st Fld.PORT_STATUS_THERMAL).raise (Reg.PORT_EVENT n) Fld.PORT_EVENT_THERMAL).keeperWake n 3

/-- THERMAL. -/
def execThermal (n : PortId) (hot : Bool) (s : State) : Host.Outcome State Fault Refusal := (s.thermal n hot).done

/-! ### The loop keeper (R145, R146) -/

/-- KEEPER_CTL.TIMEOUT as it acts, in ms. -/
def State.keeperTmo (s : State) (d : Nat) : Nat := clampNat 10 1000 (s.fld (Reg.KEEPER_CTL d) Fld.KEEPER_CTL_TIMEOUT)

/-- Whether the keeper waits for its core: parked while CORE is off, so that a held port keeps its target; a release write, which lowers
KEEPER_STATUS.PARKED, leaves it so (R146). -/
def State.keeperParked (s : State) (d : Nat) : Bool := !s.on .core && (s.keeper d).parked

/-- A loop tick of the keeper of die `d`: the heartbeat counts while CORE is on, under SUPERVISE only after a kick (R145). -/
def State.keeperTick (s : State) (d : Nat) : State :=
  if !s.runs (ldDie d) then s
  else
    let k := s.keeper d
    let beats := s.on .core && !s.linkIsDown (ldDie d) &&
      (!s.flag (Reg.KEEPER_CTL d) Fld.KEEPER_CTL_SUPERVISE || k.kicked)
    if beats then (s.setKeeper d { age := 0, sinceTake := 0, kicked := false, beats := true }).heldCheck d
    else s.setKeeper d { k with age := min 0xFFFF (k.age + 1), beats := false,
                                sinceTake := if s.keeperParked d then k.sinceTake else k.sinceTake + 1 }

/-- The keeper takes port `n` on a timeout: recorded in every role; an OUT or TETHER port is taken (R143, R145). -/
def State.keeperTake (s : State) (n : Nat) : State :=
  let p := s.port n
  if isOut (s.roleActive n) && !p.taken then
    let s := (s.raise (Reg.PORT_STATUS n) Fld.PORT_STATUS_KEEPER).raise (Reg.PORT_EVENT n) Fld.PORT_EVENT_KEEPER
    s.latchFs n true (fun p => { p with keeperLat := true, taken := true })
  else s.latchFs n true (fun p => { p with keeperLat := true })

/-- KEEPER_TIMEOUT of die `d` (R145). -/
def State.keeperTimeout (s : State) (d : Nat) : State :=
  let k := s.keeper d
  if !s.runs (ldDie d) || k.sinceTake < s.keeperTmo d then s
  else
    let s := (s.setKeeper d { k with sinceTake := 0 }).raise (Reg.LD_EVENT d) Fld.LD_EVENT_KEEPER_TIMEOUT
    iterate 4 (fun i s => s.keeperTake (4 * d + i)) (s.raise (Reg.KEEPER_STATUS d) Fld.KEEPER_STATUS_HELD)

/-- KEEPER_TIMEOUT. -/
def execKeeperTimeout (d : LdId) (s : State) : Host.Outcome State Fault Refusal := (s.keeperTimeout d).done

/-- KEEPER_KICK. -/
def execKeeperKick (d : LdId) (s : State) : Host.Outcome State Fault Refusal :=
  (s.hostRow (Reg.KEEPER_KICK d) false fun s => s.when (s.runs (ldDie d)) fun s => s.setKeeper d { s.keeper d with kicked := true }).done

/-- VFIELD_LOW. -/
def execVfieldLow (d : LdId) (s : State) : Host.Outcome State Fault Refusal :=
  (s.when (s.runs (ldDie d)) fun s => s.raise (Reg.LD_EVENT d) Fld.LD_EVENT_VFIELD_LOW).done

/-- The park strobe reaches port `n`: fail-safe or hold by PARK, KEEPER 1 for an OUT or TETHER port (R146). It may come on a tick edge, after
the port's tick (R144, R282). -/
def State.parkPort (s : State) (n : Nat) : State :=
  let hold := s.flag (Reg.PORT_CTL n) Fld.PORT_CTL_PARK
  if isOut (s.roleActive n) then
    let s := s.raise (Reg.PORT_STATUS n) Fld.PORT_STATUS_KEEPER
    if hold then s.holdTarget n else s.latchFs n true (fun p => { p with parkLat := true })
  else if hold then s else s.latchFs n true (fun p => { p with parkLat := true })

/-- The park strobe reaches loop die `d` (R146). -/
def State.parkStrobe (s : State) (d : Nat) : State :=
  if !s.runs (ldDie d) then s
  else iterate 4 (fun i s => s.parkPort (4 * d + i))
    ((s.setKeeper d { s.keeper d with parked := true }).raise (Reg.KEEPER_STATUS d) Fld.KEEPER_STATUS_PARKED)

/-- Guard action 0b10: every keeper drives its OUT ports to fail-safe, latched (R50, R143). -/
def State.guardFailsafe (s : State) : State :=
  iterate 16 (fun n s => s.when (s.on (portDomain n)) fun s => s.latchFs n true (fun p => { p with guardLat := true })) s

/-! ### The loop tick of a port (R128, R133, R135 to R137, R148, R149) -/

/-- The per-function reset of port `n` begins (R298, R299). DESIGN CHOICE, log entry 83: a trim START that waits for its tick is dropped, without
DONE and without a count, as it is where the domain turns off (R114). -/
def State.portReset (s : State) (n : Nat) : State :=
  let st := Reg.PORT_STATUS n
  let s := ((s.trimAbandon n).trimUnstage n).shortClear n
  let p := s.port n
  let s := s.setPort n { p with resetTicks := 2, resetLat := true, released := false, relAt := none, trimReq := false, winFrom := some s.ck,
                                mmBad := 0, mmGood := 0, mmHold := 0, satRun := 0, satFree := 0, clipFree := 0,
                                roleStep := if p.roleStep = 0 then 0 else 1 }
  let s := ((s.lower st Fld.PORT_STATUS_LOOP_MISMATCH).lower st Fld.PORT_STATUS_LOOP_HEADROOM).lower st
    Fld.PORT_STATUS_TONE_CLIP
  (s.enterFs n).raise Reg.RST_BUSY0 (Fld.RST_BUSY0_PORT.bit n)

/-- The reset ends; a release write stored during it acts now (R144, R299). -/
def State.portResetEnd (s : State) (n : Nat) : State :=
  if (s.port n).resetTicks = 0 then s
  else ((s.setPort n { s.port n with resetTicks := 0 }).lower Reg.RST_BUSY0 (Fld.RST_BUSY0_PORT.bit n)).portRelease n

/-- A tick of the reset: it ends at the second one (R299). -/
def State.portResetTick (s : State) (n : Nat) : State :=
  let t := (s.port n).resetTicks
  if t = 0 then s else if t = 1 then s.portResetEnd n else s.setPort n { s.port n with resetTicks := t - 1 }

/-- P0's target while the governor is FROZEN is held (R296). -/
def State.frozenAt (s : State) (n : Nat) : Bool := n == 0 && s.inTether && s.fld Reg.TETHER_STATUS Fld.TETHER_STATUS_SHED == 3

/-- The target of the tick, by the precedence of R149. A parked port drives its held target, to which it returns under the slew limit; so
does P0 while the governor is FROZEN (R296). -/
def State.tickTarget (s : State) (n : Nat) : Nat :=
  let p := s.port n
  let prev := s.target n
  let slewed (x : Nat) : Nat := s.driveCap n (slewTo prev x (s.fld (Reg.LOOP_SLEW n) Fld.LOOP_SLEW_STEP))
  if !isOut (s.roleActive n) || s.switchesOpen n then 0
  else if s.fsCause n then s.driveCap n (s.fsLevel n)
  else match p.trimRun with
    | some r =>
      if r.back then slewed (s.loopSetValue n) else s.driveCap n (if r.high then 40000 else 8000)
    | none => slewed (if p.parked || s.frozenAt n then p.held else s.loopSetValue n)

/-- Whether port `n` drives its fail-safe level (R143, R149). -/
def State.drivesFs (s : State) (n : Nat) : Bool := isOut (s.roleActive n) && !s.switchesOpen n && s.fsCause n

/-- Whether the target of the tick goes after LOOP_SET: not at a fail-safe level, a trim's point or a held target (R118, R128, R149, R296). -/
def State.goesToSet (s : State) (n : Nat) : Bool :=
  isOut (s.roleActive n) && !s.switchesOpen n && !s.drivesFs n && !(s.port n).parked && !s.frozenAt n &&
    (match (s.port n).trimRun with
     | some r => r.back
     | none => true)

/-- The target is formed, and SLEWING and DRIVING follow it (R128, R149). SLEWING is 1 where the slew limit is what keeps the target off
LOOP_SET: the target is not the one LOOP_SET would give without it (log entry 88). -/
def State.formTarget (s : State) (n : Nat) : State :=
  let st := Reg.PORT_STATUS n
  let t := s.tickTarget n
  let slews := s.goesToSet n && t != s.driveCap n (s.loopSetValue n)
  let s := (s.setTarget n t).setFlag st Fld.PORT_STATUS_SLEWING slews
  s.setFlag st Fld.PORT_STATUS_DRIVING (s.roleActive n != 0 && !s.switchesOpen n)

/-- LOOP_TOL.TOL. -/
def State.tol (s : State) (n : Nat) : Nat := s.fld (Reg.LOOP_TOL n) Fld.LOOP_TOL_TOL

/-- The end of the last window, at or before now, that started on the bit grid, while no frame was received with its timing recovered; where the
grid's last one would have started in that reception, it is the last before it (R133). -/
def State.gridWindow (s : State) (n : Nat) : Nat :=
  let x := s.modem n
  let g := s.bitLast s.ck
  if decide (x.bitAt + bitCk ≤ g) && (s.rxTimed n || x.bitEnd.any fun e => decide (g < e + bitCk)) then s.bitLast (x.bitAt - 1) + bitCk else g

/-- The end of the last window, at or before now, that started on a received bit while a frame was received with its timing recovered; 0 if
there is none (R133). DESIGN CHOICE, log entry 66: of the receptions only the last one counts. -/
def State.rxWindow (s : State) (n : Nat) : Nat :=
  let x := s.modem n
  let stop := x.bitEnd.getD 0
  let last := if s.rxTimed n then s.ck - bitCk else min (s.ck - bitCk) (stop - 1)
  if decide (x.bitAt + bitCk ≤ s.ck) && (s.rxTimed n || decide (x.bitAt < stop)) then x.bitAt + (last - x.bitAt) / bitCk * bitCk + bitCk else 0

/-- The elapsed time at which the last readback window of port `n` ended, at or before now: one that started on the port's bit grid, or on
a received bit while a frame was received with its timing recovered (R133). -/
def State.windowEnd (s : State) (n : Nat) : Nat := max (s.gridWindow n) (s.rxWindow n)

/-- The converter samples that count in the last window: its 32, one each 2560 CK, without those from before a reset of the port, which clears the
window (R133, R299). DESIGN CHOICE, log entry 88: the mean is then that of the others, and 0 where there is none. -/
def State.windowCount (s : State) (n : Nat) : Nat :=
  match (s.port n).winFrom with
  | none => 32
  | some t => min 32 ((s.windowEnd n - t + 2559) / 2560)

/-- The readback of the tick: the mean of the converter samples of the last window (R133), rounded (DESIGN CHOICE, log entry 66); in OFF
and with the switches open it is leakage, within 20 counts of 0 (R132). -/
def State.readback (s : State) (n : Nat) (x : PortSample) : Int :=
  let w := (x.adc.reverse.drop ((s.ck - s.windowEnd n) / 2560)).take (s.windowCount n)
  let m := roundDiv (sumInt w) (s.windowCount n)
  if s.roleActive n = 0 || s.switchesOpen n then clampInt (-20) 20 m else m

/-- The mismatch test of a sample against the target of the tick that opened its window, the last one. The timer does not run for three
ticks after a change of target larger than TOL: one that this tick makes to the target `pre` it found, or one since the last tick
(R135). -/
def State.mismatchTick (s : State) (n : Nat) (rb : Int) (pre : Nat) : State :=
  let st := Reg.PORT_STATUS n
  let p := s.port n
  let opened := p.openT
  let far (a b : Nat) : Bool := decide (s.tol n < ((a : Int) - (b : Int)).natAbs)
  if !isOut (s.roleActive n) then
    (s.setPort n { p with mmBad := 0, mmGood := 0, mmHold := 0 }).lower st Fld.PORT_STATUS_LOOP_MISMATCH
  else
    let moved := far pre opened
    let hold := if far (s.target n) pre then 3 else if moved then 2 else p.mmHold - 1
    if decide (s.tol n < (rb - (opened : Int)).natAbs) then
      let bad := if p.mmHold = 0 && !moved then p.mmBad + 1 else p.mmBad
      let s := s.setPort n { p with mmBad := bad, mmGood := 0, mmHold := hold }
      if clampNat 4 1000 (s.fld (Reg.LOOP_TOL n) Fld.LOOP_TOL_TIME) ≤ bad ∧ s.flag st Fld.PORT_STATUS_LOOP_MISMATCH = false then
        ((s.raise st Fld.PORT_STATUS_LOOP_MISMATCH).raise (Reg.PORT_EVENT n) Fld.PORT_EVENT_LOOP_MISMATCH).keeperWake n 0
      else s
    else
      let s := s.setPort n { p with mmBad := 0, mmGood := p.mmGood + 1, mmHold := hold }
      s.when (10 ≤ p.mmGood + 1) fun s => s.lower st Fld.PORT_STATUS_LOOP_MISMATCH

/-- Saturation with an error beyond 4 counts for two ticks sets LOOP_HEADROOM; ten ticks without clear it (R136). -/
def State.headroomTick (s : State) (n : Nat) (sat : Bool) : State :=
  let st := Reg.PORT_STATUS n
  let p := s.port n
  if sat then
    let s := s.setPort n { p with satRun := p.satRun + 1, satFree := 0 }
    if 2 ≤ p.satRun + 1 ∧ s.flag st Fld.PORT_STATUS_LOOP_HEADROOM = false then
      ((s.raise st Fld.PORT_STATUS_LOOP_HEADROOM).raise (Reg.PORT_EVENT n) Fld.PORT_EVENT_LOOP_HEADROOM).keeperWake n 2
    else s
  else
    let s := s.setPort n { p with satRun := 0, satFree := p.satFree + 1 }
    s.when (10 ≤ p.satFree + 1) fun s => s.lower st Fld.PORT_STATUS_LOOP_HEADROOM

/-- Saturation on the tone's peaks alone (`clip`), the mean `within` TOL, sets TONE_CLIP; ten ticks without clear it (R137). A tick whose
peaks clip with the mean outside TOL sets nothing and is none of the ten (the model's choice: log entry 88). -/
def State.clipTick (s : State) (n : Nat) (clip within : Bool) : State :=
  let st := Reg.PORT_STATUS n
  let p := s.port n
  if clip then
    let s := s.setPort n { p with clipFree := 0 }
    if !within || s.flag st Fld.PORT_STATUS_TONE_CLIP then s
    else (s.raise st Fld.PORT_STATUS_TONE_CLIP).raise (Reg.PORT_EVENT n) Fld.PORT_EVENT_TONE_CLIP
  else
    let s := s.setPort n { p with clipFree := p.clipFree + 1 }
    s.when (10 ≤ p.clipFree + 1) fun s => s.lower st Fld.PORT_STATUS_TONE_CLIP

/-- The sample of the tick: LOOP_RB, PORT_VTERM, LOW_MARGIN, TETHER_READY and the tests of R135 to R137; `rb` is the readback, `pre` the
target the tick found. -/
def State.sampleTick (s : State) (n : Nat) (x : PortSample) (rb : Int) (pre : Nat) : State :=
  let st := Reg.PORT_STATUS n
  let drives := isOut (s.roleActive n) && !s.switchesOpen n
  let out := isOut (s.roleActive n)
  let margin := if out then min 0xFFFF x.margin else 0
  let s := (s.setPort n { s.port n with rbAt := some s.ck }).setReg (Reg.LOOP_RB n) (ofInt32 rb)
  let s := s.setReg (Reg.PORT_VTERM n) (Fld.PORT_VTERM_MARGIN.put margin ||| Fld.PORT_VTERM_VTERM.put (BitVec.ofInt 16 x.vterm).toNat)
  let s := s.setFlag st Fld.PORT_STATUS_LOW_MARGIN (out && decide (margin < 50))
  let s := s.mismatchTick n rb pre
  let s := s.headroomTick n (drives && x.sat)
  let s := s.clipTick n (drives && x.clip) (decide ((rb - ((s.port n).openT : Int)).natAbs ≤ s.tol n))
  s.when (n == 0) State.readyCheck

/-- A loop die without CK: its analogue preset follows the selected level (R17, R143). -/
def State.presetTick (s : State) (n : Nat) : State := s.when (s.portPowered n && s.fsCause n) fun s => s.enterFs n

/-- What comes before the target of a tick: FS_FORCE as it is now (R143), the port's reset, a release write, a role change, the trim, what an
open switch ends, the fail-safe state and a trim's start. -/
def State.tickReady (s : State) (n : Nat) : State :=
  let s := s.setPort n { s.port n with fsForced := s.flag (Reg.PORT_CTL n) Fld.PORT_CTL_FS_FORCE }
  let s := ((s.modemCutDone n).portResetTick n).portRelease n
  let s := (s.roleTick n).trimTick n
  let s := s.when (s.switchesOpen n || (s.port n).cutDue) fun s =>
    let s := (s.trimAbandon n).modemStop n
    s.setPort n { s.port n with cutDue := false }
  let s := s.when (s.roleActive n != 3 || !s.flag (Reg.PORT_CTL n) Fld.PORT_CTL_SUPPLY_EN) fun s => s.shortClear n
  (if s.drivesFs n then s.enterFs n else s.lower (Reg.PORT_STATUS n) Fld.PORT_STATUS_FAILSAFE).trimCheck n

/-- One loop tick of port `n`: what comes before its target, the target, and the readback sample. -/
def State.portTick (s : State) (n : Nat) (x : PortSample) : State :=
  if !s.portRuns n then s.presetTick n
  else
    let pre := s.target n
    let rb := s.readback n x
    let s := (s.tickReady n).formTarget n
    let s := (s.sampleTick n x rb pre).trimSample n rb
    s.setPort n { s.port n with openT := s.target n }

/-! ### CK loss and domains (R17, R126, R38) -/

/-- CK is lost at loop die `d`: fail-safe from the analogue preset, modems stop, the supply switch of an IN port opens; what was written
before is no release write of this cause (R17, R143, R168). -/
def State.ldCkLoss (s : State) (d : Nat) : State :=
  iterate 4 (fun i s =>
    let n := 4 * d + i
    s.when (s.portRuns n) fun s =>
      ((s.modemStop n).modemDeaf n).latchFs n false (fun p => { p with ckLat := true, released := false })) s

/-- What port `n` is when its LOOP domain turns on: OFF, its fuse trim (R38, R126). -/
def State.portFresh (s : State) (n : Nat) : State :=
  let s := (s.disarm (.miswireProbe n)).disarm (.shortRetry n)
  (s.modemFresh n).setPort n { trim := vget s.fuses.portTrim n 0 }

/-- Port `n` loses its domain: a trim run is abandoned, its session closes (R118, R126, R167). -/
def State.portOff (s : State) (n : Nat) : State := ((s.trimAbandon n).toneClose n).portFresh n

end Sys2Proof.Machine
end

