-- ==== Sys2Proof/Machine/RingQueue.lean ====
section
/-! DEFINITION. Stavelm messages and the hop queues they leave by (spec/11, R252, R253, R255, R266, R267, R269, R272). -/

namespace Sys2Proof.Machine

/-! ### Messages (R252) -/

/-- A message: its fields, without CRC and length, which follow from them. -/
structure Msg where
  typ    : Nat
  flags  : Nat := 0
  src    : Nat
  dst    : Nat
  seq    : BitVec 16
  hops   : Nat := 0
  target : Nat := 0
  body   : List Byte := []
  deriving DecidableEq, Repr

/-- A message's bytes before its CRC. -/
def Msg.head (m : Msg) : List Byte :=
  [byte m.typ, byte m.flags, byte m.src, byte m.dst] ++ leBytes 2 m.seq.toNat ++ [byte m.hops, byte m.target] ++
    leBytes 2 m.body.length ++ [0, 0] ++ m.body

/-- A message's bytes. -/
def Msg.bytes (m : Msg) : List Byte := m.head ++ wordBytes (crc32c m.head)

/-- Bytes `o` … `o + n − 1` of a list as a little-endian number. -/
def leAt (bs : List Byte) (o n : Nat) : Nat := leNat (sliceBytes bs o n)

/-- The fields a message's bytes spell. -/
def readMsg (bs : List Byte) : Msg :=
  { typ := leAt bs 0 1, flags := leAt bs 1 1, src := leAt bs 2 1, dst := leAt bs 3 1, seq := BitVec.ofNat 16 (leAt bs 4 2),
    hops := leAt bs 6 1, target := leAt bs 7 1, body := sliceBytes bs 12 (leAt bs 8 2) }

/-- POS. -/
def Msg.pos (m : Msg) : Bool := m.flags.testBit 1

/-- The distance of the node that receives the message (R252). -/
def Msg.distance (m : Msg) : Nat := m.hops + 1

/-! ### What the ring link stands at -/

/-- TD works. -/
def State.tdRuns (s : State) : Bool := s.runs .td

/-- The bypass is closed with TRUNK on (R243). -/
def State.bypassed (s : State) : Bool := s.flag (Reg.TRX_STATUS 0) Fld.TRX_STATUS_BYPASSED

/-- LINK_READY of a port. -/
def State.linkReady (s : State) (t : Trx) : Bool := s.flag (Reg.TRX_STATUS t.idx) Fld.TRX_STATUS_LINK_READY

/-- The node address in force; 97 to 127 act as 0 (R255). -/
def State.nodeAddr (s : State) : Nat :=
  let a := s.fld Reg.RING_CFG Fld.RING_CFG_NODE_ADDR
  if a ≤ 96 then a else 0

/-- The operating SF field and code index. -/
def State.opSf (s : State) : Nat := s.fld Reg.RING_STATUS Fld.RING_STATUS_SF_OP
def State.opCode (s : State) : Nat := s.fld Reg.RING_STATUS Fld.RING_STATUS_CODE_OP

/-- ROLE: 0 ISOLATED, 1 FOLLOWER, 2 MASTER, 3 BYPASSED. -/
def State.ringRole (s : State) : Nat := s.fld Reg.RING_STATUS Fld.RING_STATUS_ROLE

/-- ROLE changes, with its event. -/
def State.setRole (s : State) (r : Nat) : State :=
  if s.ringRole = r then s else (s.setFld Reg.RING_STATUS Fld.RING_STATUS_ROLE r).raise Reg.RING_EVENT Fld.RING_EVENT_ROLE

/-- A ring counter counts (R45). -/
def State.ringCount (s : State) (a n : Nat) : State := s.count a Reg.RING_EVENT Fld.RING_EVENT_CTR_SAT n

/-- RING_TOPO's neighbour fields of a port. -/
def nbrFld (t : Trx) : Fld := match t with | .tw => Fld.RING_TOPO_TW_NBR | .te => Fld.RING_TOPO_TE_NBR
def nbrKnownFld (t : Trx) : Fld := match t with | .tw => Fld.RING_TOPO_TW_KNOWN | .te => Fld.RING_TOPO_TE_KNOWN

/-- A neighbour address is forgotten: the hop's other end is not known again until a header passes (R254, R268). -/
def State.forgetNbr (s : State) (t : Trx) : State :=
  (s.lower Reg.RING_TOPO (nbrKnownFld t)).setTrunk t { s.trunk t with hopSeen := none }

/-! ### The hop queues (R266, R267) -/

/-- A copy of the host's message has left, or was discarded; with the last one BUSY clears (R271). -/
def State.hostLeave (s : State) : State :=
  if s.ring.hostLeft = 0 then s
  else
    let s := { s with ring := { s.ring with hostLeft := s.ring.hostLeft - 1 } }
    if s.ring.hostLeft = 0 then
      (s.lower Reg.RING_TX_STATUS Fld.RING_TX_STATUS_BUSY).raise Reg.RING_EVENT Fld.RING_EVENT_TX_DONE
    else s

/-- A frame is lost from a queue. -/
def State.frameGone (s : State) (f : TxFrame) : State := if f.kind == .host then s.hostLeave else s

/-- The lowest PRIO in a queue. -/
def lowestPrio (q : List TxFrame) : Nat := q.foldl (fun m f => min m f.prio) 3

/-- A frame is put into a port's queue of 4: the newest of the lowest PRIO makes room for a higher one (R266). A bypassed node
sends nothing (R268); a message too long for the SF is dropped. -/
def State.enqueue (s : State) (t : Trx) (f : TxFrame) : State :=
  let x := s.trunk t
  let room (q : List TxFrame) : State :=
    s.setTrunk t { x with queue := q ++ [f], quietAt := if x.queue.isEmpty then s.ck else x.quietAt }
  if s.bypassed then s.frameGone f
  else if maxMessage s.opSf < f.msg.length ∧ f.sf = none then (s.ringCount Reg.RING_DROP_COUNT 1).frameGone f
  else if x.queue.length < 4 then room x.queue
  else
    let low := lowestPrio x.queue
    let s' := s.ringCount Reg.RING_QFULL_COUNT 1
    if low < f.prio then
      match x.queue.reverse.find? (fun g => g.prio == low) with
      | some g => ((s'.setTrunk t { x with queue := (x.queue.reverse.erase g).reverse ++ [f] })).frameGone g
      | none => s'.frameGone f
    else s'.frameGone f

/-- Every frame queued for a port is discarded and counted (R267, R273, R299). -/
def State.flush (s : State) (t : Trx) : State :=
  let q := (s.trunk t).queue
  let s := s.setTrunk t { s.trunk t with queue := [] }
  if q.isEmpty then s else q.foldl (fun s f => s.frameGone f) (s.ringCount Reg.RING_FLUSH_COUNT q.length)

/-! ### Originating messages (R253, R255) -/

/-- The next MSG_SEQ, kept among the last 32 originated (R252, R255). -/
def State.takeSeq (s : State) : BitVec 16 × State :=
  (s.ring.msgSeq, { s with ring := { s.ring with msgSeq := s.ring.msgSeq + 1, own := (s.ring.msgSeq :: s.ring.own).take 32 } })

/-- A message of this node on one port, with the number `seq`. -/
def State.sendOn (s : State) (t : Trx) (kind : TxKind) (prio : Nat) (m : Msg) : State :=
  s.enqueue t { prio, kind, msg := { m with flags := m.flags ||| t.idx }.bytes }

/-- A message of this node both ways round. -/
def State.sendBoth (s : State) (kind : TxKind) (typ dst prio : Nat) (body : List Byte) : State :=
  let (q, s) := s.takeSeq
  let m : Msg := { typ, src := s.nodeAddr, dst, seq := q, body }
  (s.sendOn .tw kind prio m).sendOn .te kind prio m

/-- Bytes of TIME with its valid bit, for a body. -/
def State.stamp (s : State) : List Byte := timeBytes s.time

/-- An EVENT body (R272). -/
def eventBody (code source : Nat) (time : List Byte) (value : Word) (tbv : Bool) : List Byte :=
  leBytes 2 code ++ leBytes 2 source ++ time ++ wordBytes value ++ [byte (b2n tbv), 0, 0, 0]

/-- A message offered to the ring link: dropped and counted where there is no destination (R255, R272). -/
def State.offer (s : State) (typ dst prio : Nat) (body : List Byte) : State :=
  let dest := if dst = 0 then s.fld Reg.RING_STATUS Fld.RING_STATUS_MASTER else dst
  if !s.tdRuns then s
  else if s.nodeAddr = 0 ∨ s.bypassed = true ∨ s.ring.inReset = true ∨ dest = 0 then s.ringCount Reg.RING_OFFER_DROP_COUNT 1
  else s.sendBoth .plain typ dest prio body

/-- A ring event goes to every node, from an unassigned one with SRC 0 (R269); it is no offer of a lane, so none is counted as dropped
where the ring link can send nothing (R255, R268, R272). -/
def State.ringEventMsg (s : State) (code source : Nat) (value : Word) : State :=
  s.when (s.tdRuns && !s.bypassed && !s.ring.inReset) fun s => s.sendBoth .plain 0x07 0x7F 2 (eventBody code source s.stamp value s.tbValid)

/-- A lane's RECORD offer: the 32-byte entry of Spool 3 (R195, R272). -/
def State.offerRecord (s : State) (entry : List Byte) : State :=
  s.offer 0x06 (s.fld Reg.RING_DEST Fld.RING_DEST_RECORD_DST) 1 entry

/-- A lane's EVENT offer (R188, R272). -/
def State.offerAlarm (s : State) (set : Bool) (source : Nat) (value : Word) : State :=
  s.offer 0x07 (s.fld Reg.RING_DEST Fld.RING_DEST_EVENT_DST) 2
    (eventBody (if set then 1 else 2) source s.stamp value s.tbValid)

/-! ### Breaks (R269) -/

/-- The master takes note of a LINK_BREAK report of a port: the node whose TE faces the break. -/
def State.locateBreak (s : State) (port reporter nbr : Nat) : State :=
  if s.ringRole != 2 then s
  else
    let s := s.setFld Reg.RING_TOPO Fld.RING_TOPO_BREAK_HOP (if port = 1 then reporter else nbr)
    (s.raise Reg.RING_TOPO Fld.RING_TOPO_BREAK_VALID).raise Reg.RING_EVENT Fld.RING_EVENT_BREAK_LOCATED

/-- BREAK_TW or BREAK_TE. -/
def breakFld (t : Trx) : Fld := match t with | .tw => Fld.RING_STATUS_BREAK_TW | .te => Fld.RING_STATUS_BREAK_TE

/-- Whether a port counts as broken. -/
def State.portBroken (s : State) (t : Trx) : Bool :=
  s.tdRuns && ((!s.bypassed && !s.linkReady t) || s.flag (Reg.TRX_STATUS t.idx) Fld.TRX_STATUS_LINK_SILENT ||
    decide (3 ≤ (s.trunk t).missed))

/-- A change of a port's break state: event, log entry, EVENT message, and the master's own report. -/
def State.breakCheck (s : State) (t : Trx) : State :=
  let b := s.portBroken t
  if b == s.flag Reg.RING_STATUS (breakFld t) then s
  else
    let nbr := s.fld Reg.RING_TOPO (nbrFld t)
    let s := (s.setFlag Reg.RING_STATUS (breakFld t) b).raise Reg.RING_EVENT Fld.RING_EVENT_LINK_BREAK
    let s := if b then s.log .warning 0x0060 0x40 t.idx (BitVec.ofNat 32 nbr) 0 0
      else s.log .info 0x0061 0x40 t.idx (BitVec.ofNat 32 nbr) 0 0
    let s := s.ringEventMsg (if b then 0x10 else 0x11) t.idx (BitVec.ofNat 32 nbr)
    s.when b fun s => s.locateBreak t.idx s.nodeAddr nbr

end Sys2Proof.Machine
end

