-- ==== Sys2Proof/Machine/LaneRun.lean ====
section
/-! DEFINITION. Lanes at work (spec/08): the check at RUN, one activation of a chain, the lane commands, lots, and lane 0's chain on
the keeper core. -/

namespace Sys2Proof.Machine

/-! ### What a lane is configured as -/

/-- The parameters of a slot as written. -/
def State.blkWritten (s : State) (n b : Nat) : List Word := (List.range 8).map fun j => s.reg (Reg.BLK_P n b j)

/-- The lane table as written. -/
def State.tableWritten (s : State) (n : Nat) : List Word := (List.range 64).map fun i => s.reg (Reg.LANE_TABLE n i)

/-- The state words of a slot. -/
def State.blkState (s : State) (n b : Nat) : List Word := (List.range 4).map fun i => s.reg (Reg.BLK_STATE n b i)

/-- The slots a RECORD's VALUES names. -/
def recordSlots (vals : Nat) : List Nat := (List.range 4).map fun i => vals / 16 ^ i % 16

/-- Whether the inputs of slot `b` of a chain of `nblk` name earlier slots where the block uses them (R170, R180). -/
def inputsOk (nblk b : Nat) (cfg : Word) (p : List Word) : Bool :=
  let typ := Fld.BLK_CFG_TYPE.get cfg
  let opt := Fld.BLK_CFG_OPT.get cfg
  let inB := Fld.BLK_CFG_IN_B.get cfg
  let early (k : Nat) : Bool := decide (k < b) && decide (k < nblk)
  (!usesA typ || (match slotA b (Fld.BLK_CFG_IN_A.get cfg) with | some a => early a | none => false)) &&
    (!usesB typ opt || (if inB = 0xF then !needsB typ opt else early inB)) &&
    (typ != 0x14 || (recordSlots (par p 1).toNat).all fun k => k == 0xF || early k)

/-- Ports the LOOP_OUT blocks of lane `n` name, by the parameters given. -/
def State.loopOuts (s : State) (n : Nat) (p : Nat → List Word) : List Nat :=
  (List.range (s.laneNblk n)).filterMap fun b => if s.blkType n b = 0x0D then some (par (p b) 4).toNat else none

/-- The first reason of R180 for which the chain of lane `n` fails, in table order; 0 if none does. -/
def State.laneCheck (s : State) (n : Nat) : Nat :=
  let nb := s.laneNblk n
  let slots := List.range nb
  let cfg (b : Nat) : Word := s.reg (Reg.BLK_CFG n b)
  let p (b : Nat) : List Word := s.blkWritten n b
  let tb := s.fld (Reg.LANE_CFG n) Fld.LANE_CFG_TRIG_BLK
  let mine := s.loopOuts n p
  if slots.any (fun b => !typeOk (s.blkType n b)) then 0x01
  else if slots.any (fun b => !inputsOk nb b (cfg b) (p b)) then 0x02
  else if slots.any (fun b => !blkCheck (s.blkType n b) (s.blkOpt n b) (p b) (s.tableWritten n)) then 0x03
  else if (List.range 16).any (fun m => m != n && s.laneActive m &&
      (s.loopOuts m fun b => ((s.lane m).block b).params).any mine.contains) then 0x04
  else if s.fld (Reg.LANE_CFG n) Fld.LANE_CFG_TRIG == 1 &&
      !(decide (tb < nb) && s.blkType n tb == 0x01 && decide (s.blkOpt n tb % 8 ≤ 3)) then 0x05
  else if 1 < (slots.filter fun b => s.blkType n b == 0x08).length then 0x06
  else 0

/-! ### Lane 0 for the keeper core (R197) -/

/-- The conditions of TETHER_OK on a chain, with the channel in force. -/
def storeOk (st : Store) (ch : Nat) : Bool :=
  let typ (x : Word × List Word) : Nat := Fld.BLK_CFG_TYPE.get x.1
  let opt (x : Word × List Word) : Nat := Fld.BLK_CFG_OPT.get x.1
  let regs := st.blks.filter fun x => typ x == 1 && opt x % 8 == 0
  decide (st.nblk ≤ 6) &&
    st.blks.all (fun x =>
      [0x01, 0x02, 0x05, 0x06, 0x09, 0x0D, 0x0E].contains (typ x) &&
        (typ x != 0x01 || (opt x / 16 % 4 == 0 && (opt x % 8 == 0 || opt x % 8 == 4))) &&
        (typ x != 0x0D || par x.2 4 == 0) && (typ x != 0x0E || par x.2 0 == 0)) &&
    regs.length == 1 && regs.all fun x => (par x.2 0).toNat == ch

/-- Lane 0's chain is copied to the keeper core's store and TETHER_OK follows (R197). -/
def State.tetherCopy (s : State) : State :=
  let nb := s.laneNblk 0
  let st : Store := { nblk := nb, blks := (List.range nb).map fun b => (s.reg (Reg.BLK_CFG 0 b), ((s.lane 0).block b).params) }
  ({ s with keeperCore := { s.keeperCore with store := some st } }).setFlag (Reg.LANE_STATUS 0) Fld.LANE_STATUS_TETHER_OK
    (storeOk st s.tetherCh)

/-! ### Commands (R178 to R181) -/

/-- LANE_EVENT.CMD_ERR. -/
def State.laneCmdErr (s : State) (n : Nat) : State := s.raise (Reg.LANE_EVENT n) Fld.LANE_EVENT_CMD_ERR

/-- A lane enters FAULT, with the parameters `p` its LOOP_OUT blocks name their ports by (R181); a waiting activation is gone with it. -/
def State.laneFault (s : State) (n reason : Nat) (p : Nat → List Word) : State :=
  let s := { s with actQueue := s.actQueue.filter (· != n) }
  let s := (s.setLaneState n 3).setFld (Reg.LANE_STATUS n) Fld.LANE_STATUS_FAULT_REASON reason
  let s := (s.raise (Reg.LANE_EVENT n) Fld.LANE_EVENT_FAULT).lower (Reg.LANE_STATUS n) Fld.LANE_STATUS_TETHER_OK
  let s := s.log (if reason = 7 then .fatal else .error) 0x0050 0x30 (16 * n) (BitVec.ofNat 32 reason) 0 0
  if s.flag (Reg.LANE_CTL n) Fld.LANE_CTL_FAULT_FS then
    (s.loopOuts n p).foldl (fun s p => if p < 16 then s.fsForce p true else s) s
  else s

/-- A block as RUN leaves it: initialised, or with WARM from its state words (R184). -/
def warmBlk (typ : Nat) (st : List Word) (b : Blk) : Blk :=
  let b := { b with onSince := none, offSince := none, restart := false }
  match typ with
  | 0x0B => { b with begun := true }
  | 0x11 => { b with begun := true, badTicks := (par st 2).toNat * 12288 }
  | 0x12 => { b with begun := true }
  | 0x13 => { b with begun := true, hist := if fZero (par st 3) then [] else [par st 3] }
  | _ => b

/-- LANE_STATUS.ALARM: a LIMIT, DEVIATE or FAILSAFE block is set. -/
def State.laneAlarm (s : State) (n : Nat) : State :=
  s.setFlag (Reg.LANE_STATUS n) Fld.LANE_STATUS_ALARM ((List.range (s.laneNblk n)).any fun b =>
    decide (0x0E ≤ s.blkType n b) && decide (s.blkType n b ≤ 0x10) && s.flag (Reg.BLK_Q n b) Fld.BLK_Q_ACTIVE)

/-- RUN's work on slot `b`: parameters and block state. -/
def State.runBlk (s : State) (n b : Nat) : State :=
  let warm := s.flag (Reg.LANE_CTL n) Fld.LANE_CTL_WARM
  let l := s.lane n
  let p := s.blkWritten n b
  let blk := if warm then warmBlk (s.blkType n b) (s.blkState n b) (l.block b) else {}
  let s := s.setLane n (l.setBlock b { blk with params := p, seen := p })
  let s := s.lower (Reg.BLK_Q n b) Fld.BLK_Q_PARAM_ERR
  if warm then s else (s.lower (Reg.BLK_Q n b) Fld.BLK_Q_ACTIVE).lower (Reg.BLK_Q n b) Fld.BLK_Q_LATCHED

/-- RUN of a stopped lane: the chain is checked, and the lane enters RUN or FAULT (R180, R184). DESIGN CHOICE, log entry 91: STALE's "since
the lane entered RUN" counts from this command, and a RESUME does not begin it anew (R173). -/
def State.laneStart (s : State) (n : Nat) : State :=
  let reason := s.laneCheck n
  if reason != 0 then s.laneFault n reason fun b => s.blkWritten n b
  else
    let l := s.lane n
    let t := s.tableWritten n
    let s := s.setLane n { l with first := true, prevLot := none, caught := false, runAt := s.ck, table := t, tableSeen := t }
    let s := iterate 12 (fun b s => s.runBlk n b) s
    let s := ((s.laneAlarm n).setLaneState n 1).setFld (Reg.LANE_EXEC n) Fld.LANE_EXEC_MAX 0
    s.when (n == 0) State.tetherCopy

/-- Lane commands act while CORE runs; a lane in its per-function reset is past it at once (log entry 2). -/
def State.laneCmd (s : State) (f : State → State) : State := s.when (s.on .core) f

/-- RUN. -/
def State.laneRunCmd (s : State) (n : Nat) : State := if s.laneState n = 0 then s.laneStart n else s.laneCmdErr n

/-- STOP: a waiting activation is discarded without counting (R179); no manual point delivers any more. -/
def State.laneStopCmd (s : State) (n : Nat) : State :=
  let s := { s with actQueue := s.actQueue.filter (· != n) }
  ((s.setLaneState n 0).lower (Reg.LANE_STATUS n) Fld.LANE_STATUS_TETHER_OK).lower (Reg.LANE_STATUS n) Fld.LANE_STATUS_MAN_ACTIVE

/-- HOLD. -/
def State.laneHoldCmd (s : State) (n : Nat) : State :=
  if s.laneState n = 1 then
    ((s.setLaneState n 2).lower (Reg.LANE_STATUS n) Fld.LANE_STATUS_HOLD_CAUSE).setLane n { s.lane n with caught := false }
  else s.laneCmdErr n

/-- The times of every FAILSAFE block of a lane that leaves HOLD start from zero (R191). -/
def State.failsafeAfresh (s : State) (n : Nat) : State :=
  iterate 12 (fun b s => s.when (s.blkType n b == 0x0E) fun s =>
    s.setLane n ((s.lane n).setBlock b { (s.lane n).block b with onSince := none, offSince := none })) s

/-- RESUME: refused while a MISMATCH bit stands. The lane enters RUN, lane 0 with its chain copied again (R178, R191, R197). -/
def State.laneResumeCmd (s : State) (n : Nat) : State :=
  if s.laneState n = 2 ∧ s.fld Reg.GUARD_STATUS Fld.GUARD_STATUS_MISMATCH = 0 then
    ((s.failsafeAfresh n).setLaneState n 1).when (n == 0) State.tetherCopy
  else s.laneCmdErr n

/-- RUN of lane `n`. -/
def execLaneRun (n : LaneId) (s : State) : Host.Outcome State Fault Refusal := (s.laneCmd fun s => s.laneRunCmd n).done

/-- LANE_STOP. -/
def execLaneStop (n : LaneId) (s : State) : Host.Outcome State Fault Refusal := (s.laneCmd fun s => s.laneStopCmd n).done

/-- HOLD of lane `n`. -/
def execLaneHold (n : LaneId) (s : State) : Host.Outcome State Fault Refusal := (s.laneCmd fun s => s.laneHoldCmd n).done

/-- RESUME of lane `n`. -/
def execLaneResume (n : LaneId) (s : State) : Host.Outcome State Fault Refusal := (s.laneCmd fun s => s.laneResumeCmd n).done

/-- CLEAR_LATCH waits for the next activation (R191). -/
def State.clearLatch (s : State) (n : Nat) : State := s.setLane n { s.lane n with latchReq := true }

/-- CLEAR_LATCH. -/
def execClearLatch (n : LaneId) (s : State) : Host.Outcome State Fault Refusal :=
  (s.hostRow (Reg.LANE_CTL n) false fun s => s.clearLatch n).done

/-- RESET_STATS waits for the next activation (R193). -/
def State.resetStats (s : State) (n : Nat) : State := s.setLane n { s.lane n with closeReq := true }

/-- RESET_STATS. -/
def execResetStats (n : LaneId) (s : State) : Host.Outcome State Fault Refusal :=
  (s.hostRow (Reg.LANE_CTL n) false fun s => s.resetStats n).done

/-! ### BLK_CFG (R171, R182) -/

/-- The bits of BLK_CFG that hold fields; every one is guarded. -/
def blkCfgMask : Word := 0x00FFFF1F

/-- A write of BLK_CFG: refused outside STOPPED; a new TYPE loads its defaults and clears the state words, and the slot is no longer set
(R171, R182, R184). -/
def State.blkCfgWrite (s : State) (n b : Nat) (v : Word) : State :=
  let a := Reg.BLK_CFG n b
  let new := v &&& blkCfgMask
  if new = s.reg a then s
  else if s.laneState n ≠ 0 then s.raise (Reg.LANE_EVENT n) Fld.LANE_EVENT_CFG_REFUSED
  else if Fld.BLK_CFG_TYPE.get new = s.blkType n b then s.setReg a new
  else
    let (opt, p) := blkDefaults (Fld.BLK_CFG_TYPE.get new) n
    let s := s.setReg a (Fld.BLK_CFG_OPT.set new opt)
    let s := iterate 8 (fun j s => s.setReg (Reg.BLK_P n b j) (par p j)) s
    let s := iterate 4 (fun i s => s.setReg (Reg.BLK_STATE n b i) 0) s
    let s := (s.lower (Reg.BLK_Q n b) Fld.BLK_Q_ACTIVE).lower (Reg.BLK_Q n b) Fld.BLK_Q_LATCHED
    (s.laneAlarm n).setLane n ((s.lane n).setBlock b { params := p, seen := p })

/-- BLK_CFG_WRITE: the guard lock is judged first (R51, R182). -/
def execBlkCfgWrite (n : LaneId) (b : Fin 12) (v : Word) (s : State) : Host.Outcome State Fault Refusal :=
  (s.laneCmd fun s =>
    if s.locked && (v &&& blkCfgMask) != s.reg (Reg.BLK_CFG n b) then s
    else s.gRow (Reg.BLK_CFG n b) fun s => s.blkCfgWrite n b v).done

/-! ### Lots (R192) -/

/-- ENGINE_EVENT.LOT_CHANGE of a station. -/
def State.lotChanged (s : State) (st : Nat) : State := s.raise Reg.ENGINE_EVENT (Fld.ENGINE_EVENT_LOT_CHANGE.bit st)

/-- A write of LOT_ID: VALID sets; a change of either is an event. -/
def State.lotWrite (s : State) (st : Nat) (v : Word) : State :=
  let same := v == s.reg (Reg.LOT_ID st) && s.flag (Reg.LOT_STATUS st) Fld.LOT_STATUS_VALID
  let s := (s.setReg (Reg.LOT_ID st) v).raise (Reg.LOT_STATUS st) Fld.LOT_STATUS_VALID
  s.when (!same) fun s => s.lotChanged st

/-- LOT_STATUS.CLEAR. -/
def State.lotClear (s : State) (st : Nat) : State :=
  if s.flag (Reg.LOT_STATUS st) Fld.LOT_STATUS_VALID then (s.lower (Reg.LOT_STATUS st) Fld.LOT_STATUS_VALID).lotChanged st
  else s

/-- LOT_ID_WRITE. -/
def execLotIdWrite (st : Fin 16) (v : Word) (s : State) : Host.Outcome State Fault Refusal :=
  (s.laneCmd fun s => s.lotWrite st v).done

/-- LOT CLEAR. -/
def execLotClear (st : Fin 16) (s : State) : Host.Outcome State Fault Refusal := (s.laneCmd fun s => s.lotClear st).done

/-! ### The sources' values (R173, R177, R185) -/

/-- A result word in volts: W0 × FS / 2^(30 + K − SHIFT), FS by gain and divider (R54, R63, R91). -/
def resultVolts (w0 : Int) (gain : Nat) (div10 : Bool) (up : Int) : Word :=
  let sh : Int := if div10 then -2 else match gain with | 0 => 0 | 1 => 2 | 2 => 4 | 3 => 6 | _ => 7
  (fRoundInt false (w0 * 5) (-31 - sh - up)).getD 0

/-- The quality bits of a result's flags (R173). -/
def resultQ (w1 : Word) : Nat :=
  b2n (w1.getLsbD 19) + 2 * b2n (w1.getLsbD 18) + 4 * b2n (w1.getLsbD 17) + 8 * b2n (w1.getLsbD 16)

/-- A source's value with STALE judged: nothing within STALE_MS, or nothing since RUN (R173). -/
def State.judge (s : State) (n staleMs at_ : Nat) (y : Word) (q : Nat) : Val :=
  (y, qIf (decide (at_ < (s.lane n).runAt) || (staleMs != 0 && decide (at_ + msCk staleMs < s.ck))) qStale q)

/-- The quality of a loop source (R173). -/
def State.portQ (s : State) (p : Nat) : Nat :=
  2 * b2n (s.lanePort p Fld.PORT_STATUS_MISWIRE || s.lanePort p Fld.PORT_STATUS_SHORT) +
    4 * b2n (s.lanePort p Fld.PORT_STATUS_LOOP_HEADROOM || s.lanePort p Fld.PORT_STATUS_TONE_CLIP)

/-- What SRC in slot `b` of lane `n` takes at the snapshot: 0.0 with STALE before the first value. -/
def State.srcValue (s : State) (n b : Nat) : Val :=
  let p := ((s.lane n).block b).params
  let src := (par p 0).toNat
  let stale := (par p 2).toNat
  let newest (l : List Newest) : Val :=
    match l.find? (fun x => x.ch == src) with
    | some x => s.judge n stale x.at_ (resultVolts x.w0.toInt x.gain x.div10 x.shiftUp) (resultQ x.w1)
    | none => (0, qStale)
  match s.blkOpt n b % 8 with
  | 0 => newest s.newReg
  | 1 => newest s.newInj
  | 2 =>
    match (s.port src).rbAt with
    | some t => if src < 16 then s.judge n stale t ((fDiv ((fOfInt (s.reg (Reg.LOOP_RB src)).toInt).getD 0) 0x44FA0000).getD 0)
        (s.portQ src) else (0, qStale)
    | none => (0, qStale)
  | 3 =>
    let m := src / 16
    match (s.lane m).doneAt with
    | some t => if m < 16 ∧ src % 16 < 12 then s.judge n stale t (s.reg (Reg.BLK_Y m (src % 16)))
        (s.fld (Reg.BLK_Q m (src % 16)) Fld.BLK_Q_Q) else (0, qStale)
    | none => (0, qStale)
  | _ => (0, 0)

/-! ### Parameters (R182) -/

/-- Slot `b` at the start of an activation: changed parameters go in force if they pass; true if some did. -/
def State.adoptBlk (s : State) (n b : Nat) (tableNew : Bool) : State × Bool :=
  let l := s.lane n
  let x := l.block b
  let p := s.blkWritten n b
  let t := s.tableWritten n
  let typ := s.blkType n b
  if p = x.seen && !(tableNew && typ == 0x08) then (s, false)
  else if blkCheck typ (s.blkOpt n b) p t && inputsOk (s.laneNblk n) b (s.reg (Reg.BLK_CFG n b)) p then
    let l := l.setBlock b { x with params := p, seen := p }
    ((s.setLane n (if typ = 0x08 then { l with table := t } else l)).lower (Reg.BLK_Q n b) Fld.BLK_Q_PARAM_ERR, true)
  else
    let s := s.setLane n (l.setBlock b { x with seen := p })
    ((s.raise (Reg.BLK_Q n b) Fld.BLK_Q_PARAM_ERR).raise (Reg.LANE_EVENT n) Fld.LANE_EVENT_PARAM_REFUSED, false)

/-- Every block whose parameters changed is checked; an accepted change in lane 0 is copied for the keeper core (R182, R197). -/
def State.adoptParams (s : State) (n : Nat) : State :=
  let t := s.tableWritten n
  let new := t != (s.lane n).tableSeen
  let (s, any) := (List.range (s.laneNblk n)).foldl (fun (p : State × Bool) b =>
    let (s, c) := p.1.adoptBlk n b new
    (s, p.2 || c)) (s, false)
  let s := s.setLane n { s.lane n with tableSeen := t }
  s.when (n == 0 && any) State.tetherCopy

/-! ### An activation (R175 to R177, R183, R192 to R196) -/

/-- The manual point: the first PID, else the first LOOP_OUT (R183). -/
def State.manPoint (s : State) (n : Nat) : Option Nat :=
  let slots := List.range (s.laneNblk n)
  match slots.find? (fun b => s.blkType n b == 0x0B) with
  | some b => some b
  | none => slots.find? fun b => s.blkType n b == 0x0D

/-- A Spool 3 entry (R196). -/
def recordEntry (seq : BitVec 16) (n : Nat) (tbv lotv hold alarm : Bool) (time : BitVec 64) (lot : Word) (vals : Nat)
    (out : List Val) : List Byte :=
  let pick (k : Nat) : Nat × Word := match out[k]? with
    | some v => if k = 0xF then (3, 0) else (qGrade v.2, v.1)
    | none => (3, 0)
  let v := (recordSlots vals).map pick
  let qual := v.reverse.foldl (fun a p => 4 * a + p.1) 0
  leBytes 2 seq.toNat ++ [byte (n + 16 * b2n tbv + 32 * b2n lotv + 64 * b2n hold + 128 * b2n alarm), byte qual] ++
    timeBytes time ++ wordBytes lot ++ v.flatMap fun p => wordBytes p.2

/-- RECORD writes an entry to Spool 3, and offers it to the ring (R195, R196); it stands as the lane's last record. -/
def State.writeRecord (s : State) (n : Nat) (lot : Word × Bool) (hold ring : Bool) (vals : Nat) (out : List Val) : State :=
  let e := recordEntry s.seqRec n s.tbValid lot.2 hold (s.flag (Reg.LANE_STATUS n) Fld.LANE_STATUS_ALARM) s.time lot.1 vals out
  let s := { s with seqRec := s.seqRec + 1, od := { s.od with records := insertKey s.od.records n (bytesToWords 8 e) } }
  let s := s.spoolWrite 3 e s.tbValid
  s.when ring fun s => s.offerRecord e

/-- What a block does outside its registers (R80, R84, R188, R190, R191, R195); nothing reaches a die whose link is down (R16). -/
def State.laneEff (s : State) (n b : Nat) (lot : Word × Bool) (hold : Bool) (out : List Val) : Eff → State
  | .loopSet p c => s.loopSetWrite p (Fld.LOOP_SET_VALUE.put c)
  | .fsForce p on => if p < 16 then s.fsForce p on else s
  | .seqStart => s.when (s.flag Reg.SEQ_CTL Fld.SEQ_CTL_LANE_EN && !s.linkIsDown .md) State.seqTrigger
  | .urgent => s.when ((Fld.INJ_CFG_LANE_EN.bit n).on (s.reg Reg.INJ_CFG) && !s.linkIsDown .md) State.injTrigger
  | .alarm set ev v =>
    let s := s.when set fun s => s.raise (Reg.LANE_EVENT n) Fld.LANE_EVENT_ALARM
    s.when ev fun s =>
      (if set then s.log .warning 0x0051 0x30 (16 * n + b) v 0 0 else s.log .info 0x0052 0x30 (16 * n + b) v 0 0).offerAlarm set
        (16 * n + b) v
  | .entered => s.raise (Reg.LANE_EVENT n) Fld.LANE_EVENT_FAILSAFE
  | .record ring vals => s.writeRecord n lot hold ring vals out

/-- Slot `b` as this activation finds it; its last Y is 0.0 before its first (R172). -/
def State.slotIn (s : State) (n b : Nat) (out : List Val) : SlotIn :=
  let cfg := s.reg (Reg.BLK_CFG n b)
  let inB := Fld.BLK_CFG_IN_B.get cfg
  { opt := Fld.BLK_CFG_OPT.get cfg, p := ((s.lane n).block b).params, st := s.blkState n b, b := (s.lane n).block b,
    y := if ((s.lane n).block b).ran then s.reg (Reg.BLK_Y n b) else 0, act := s.flag (Reg.BLK_Q n b) Fld.BLK_Q_ACTIVE,
    a := nth out ((slotA b (Fld.BLK_CFG_IN_A.get cfg)).getD 0) (0, 0),
    ib := if inB = 0xF then none else some (nth out inB (0, 0)) }

/-- Slot `b` executes: its registers, its state, then its effects. -/
def State.runSlot (s : State) (n b : Nat) (c : Act) (man : Option Nat) (manual : Option Word) (src : List Val) (lot : Word × Bool) :
    State × List Val :=
  let typ := s.blkType n b
  let c := { c with man := if man = some b then manual else none, src := nth src b (0, 0) }
  let (r, nf) := blkRun s c typ (s.slotIn n b c.out)
  let err := s.reg (Reg.BLK_Q n b) &&& Fld.BLK_Q_PARAM_ERR.mask
  let s := (s.setReg (Reg.BLK_Y n b) r.y).setReg (Reg.BLK_Q n b) (r.bits ||| err ||| Fld.BLK_Q_Q.put r.q)
  let s := iterate 4 (fun i s => s.setReg (Reg.BLK_STATE n b i) (par r.st i)) s
  let s := s.setLane n ((s.lane n).setBlock b r.b)
  let s := s.when nf fun s => s.raise (Reg.LANE_EVENT n) Fld.LANE_EVENT_NONFINITE
  let s := s.laneAlarm n
  let out := c.out ++ [(r.y, r.q)]
  (r.eff.foldl (fun s e => s.laneEff n b lot c.hold out e) s, out)

/-- The interval of an activation in TB ticks (R174). -/
def State.laneTicks (s : State) (n : Nat) : Nat :=
  let l := s.lane n
  if l.first then clampNat 1 10000 (s.fld (Reg.LANE_PERIOD n) Fld.LANE_PERIOD_PERIOD_MS) * 12288 else s.ck / 16 - l.prevStart / 16

/-- The cycles an execution took: at most 320 + 200 × NBLK, no more is said (R176; log entry 8). -/
def State.laneExec (s : State) (n : Nat) : State :=
  let (w, s) := s.free
  let last := w.toNat % (321 + 200 * s.laneNblk n)
  let s := s.setFld (Reg.LANE_EXEC n) Fld.LANE_EXEC_LAST last
  let s := s.setFld (Reg.LANE_EXEC n) Fld.LANE_EXEC_MAX (max last (s.fld (Reg.LANE_EXEC n) Fld.LANE_EXEC_MAX))
  { s with engBusy := s.engBusy + last }

/-- One activation of lane `n`: the snapshot, every slot in order, and what its end brings. A guard's HOLD that found it waiting or running acts
after its first `before` blocks (R179; log entry 50). -/
def State.activate (s : State) (n before : Nat) : State :=
  let s := s.adoptParams n
  let l := s.lane n
  let nb := s.laneNblk n
  let hold (b : Nat) : Bool := s.laneState n == 2 && !(l.caught && decide (b < before))
  let st := s.fld (Reg.LANE_CFG n) Fld.LANE_CFG_STATION
  let lot := (s.reg (Reg.LOT_ID st), s.flag (Reg.LOT_STATUS st) Fld.LOT_STATUS_VALID)
  let change := match l.prevLot with | some p => p != lot | none => false
  let recLot := if change then l.prevLot.getD lot else lot
  let man := s.manPoint n
  let manOn := s.flag (Reg.LANE_CTL n) Fld.LANE_CTL_MAN
  let manual := if manOn then some (s.reg (Reg.MAN_VALUE n)) else none
  let src := (List.range nb).map fun b => s.srcValue n b
  let c : Act := { ticks := s.laneTicks n, lot := change, stats := l.closeReq, latch := l.latchReq, first := l.first,
                   start := s.ck, table := l.table }
  let s := s.setLane n { l with first := false, caught := false, prevStart := s.ck, prevLot := some lot, closeReq := false, latchReq := false }
  let s := (s.setReg (Reg.LANE_ACT_TIME_LO n) (lo32 s.time)).setReg (Reg.LANE_ACT_TIME_HI n) (hi32 s.time)
  let s := (s.setReg (Reg.LANE_LOT n) lot.1).setFlag (Reg.LANE_STATUS n) Fld.LANE_STATUS_LOT_VALID lot.2
  let s := s.setFlag (Reg.LANE_STATUS n) Fld.LANE_STATUS_MAN_ACTIVE (manOn && man.isSome)
  let (s, _) := (List.range nb).foldl (fun (p : State × List Val) b =>
    p.1.runSlot n b { c with hold := hold b, out := p.2 } man manual src recLot) (s, [])
  let s := match man with
    | some b => if manOn then s else s.setReg (Reg.MAN_VALUE n) (s.reg (Reg.BLK_Y n b))
    | none => s
  let s := s.count (Reg.LANE_ACT_COUNT n) (Reg.LANE_EVENT n) Fld.LANE_EVENT_CTR_SAT 1
  let s := (s.laneExec n).setLane n { (s.laneExec n).lane n with doneAt := some s.ck }
  s.deliver 3 n

/-- LANE_ACTIVATION: a core takes the activation at the front of the queue, which is that lane's (R175); the cores have stopped
during a power failure (R312). A parity error in the lane's state memory puts the lane in FAULT before a block of it has executed (R181;
log entry 63). -/
def execLaneActivation (x : Activation) (s : State) : Host.Outcome State Fault Refusal :=
  (s.when (s.on .core && !s.pwr.pfwActive && s.actQueue.head? == some x.lane.val) fun s =>
    let s := { s with actQueue := s.actQueue.tail }
    if x.parity then s.laneFault x.lane 7 fun b => ((s.lane x.lane).block b).params else s.activate x.lane x.before).done

/-- The per-function reset of lane `n` (R299): it ends at once, for no activation is running between commands. -/
def State.laneReset (s : State) (n : Nat) : State :=
  let s := (s.laneStopCmd n).lower (Reg.LANE_CTL n) Fld.LANE_CTL_MAN
  let s := iterate 12 (fun b s =>
    let s := (s.setReg (Reg.BLK_Y n b) 0).setReg (Reg.BLK_Q n b) 0
    iterate 4 (fun i s => s.setReg (Reg.BLK_STATE n b i) 0) s) s
  let s := ((s.setReg (Reg.MAN_VALUE n) 0).setReg (Reg.LANE_LOT n) 0).setReg (Reg.LANE_EXEC n) 0
  let s := (s.setReg (Reg.LANE_ACT_TIME_LO n) 0).setReg (Reg.LANE_ACT_TIME_HI n) 0
  let l := s.lane n
  (s.setReg (Reg.LANE_STATUS n) 0).setLane n { l with
    first := true, prevLot := none, closeReq := false, latchReq := false,
    blk := l.blk.map fun (b : Blk) => { params := b.params, seen := b.seen } }

/-- What the lanes lose when CORE turns off (R38, R204). -/
def State.laneClear (s : State) : State :=
  { s with lanes := Vector.replicate 16 {}, actQueue := [], engBusy := 0, newReg := [], newInj := [], seqRec := 0 }

/-! ### The keeper core (R198) -/

/-- What a block of the stored chain does outside it: release writes and FS_FORCE of P0. They reach P0 over a link declared down too
(the model's choice: log entry 87). -/
def State.keeperEff (s : State) : Eff → State
  | .loopSet _ c => s.when (s.portRuns 0) fun s => s.loopSetStore 0 (Fld.LOOP_SET_VALUE.put c)
  | .fsForce _ on => s.when (s.portRuns 0) fun s => s.fsForceStore 0 on
  | _ => s

/-- The stored chain runs on a result of the Tether channel: its value in volts with its quality; `frozen` while the governor
holds the set-point. -/
def State.keeperRun (s : State) (v : Val) (frozen : Bool) : State :=
  match s.keeperCore.store with
  | none => s
  | some st =>
    if !s.keeperCore.active then s
    else
      let k := s.keeperCore
      let c : Act := { first := k.lane.first, start := s.ck, ticks := s.ck / 16 - k.lane.prevStart / 16, keeper := true, frozen }
      let s := { s with keeperCore := { k with lane := { k.lane with first := false, prevStart := s.ck } } }
      (((List.range st.blks.length).foldl (fun (p : State × List Val) b =>
        let (s, out) := p
        let (cfg, ps) := nth st.blks b (0, [])
        let typ := Fld.BLK_CFG_TYPE.get cfg
        let (y, q, ws) := nth s.keeperCore.out b (0, 0, [])
        let inB := Fld.BLK_CFG_IN_B.get cfg
        let i : SlotIn := { opt := Fld.BLK_CFG_OPT.get cfg, p := ps, st := ws, b := s.keeperCore.lane.block b, y,
                            act := decide (q / 512 % 2 = 1), a := nth out ((slotA b (Fld.BLK_CFG_IN_A.get cfg)).getD 0) (0, 0),
                            ib := if inB = 0xF then none else some (nth out inB (0, 0)) }
        let (r, _) := blkRun s { c with out, src := v } typ i
        let k := s.keeperCore
        let cell := (r.y, (r.bits ||| BitVec.ofNat 32 r.q).toNat, r.st)
        let s := { s with keeperCore := { k with lane := k.lane.setBlock b r.b, out := k.out.take b ++ [cell] ++ k.out.drop (b + 1) } }
        (r.eff.foldl (fun s e => s.keeperEff e) s, out ++ [(r.y, r.q)])) (s, [])).1)

/-- The keeper core begins under the first-activation rules (R198). -/
def State.keeperStart (s : State) : State :=
  { s with keeperCore := { s.keeperCore with active := true, lane := { prevStart := s.ck }, out := [] } }

/-- The keeper core stops. -/
def State.keeperStop (s : State) : State := { s with keeperCore := { s.keeperCore with active := false } }

end Sys2Proof.Machine
end

