-- ==== Sys2Proof/Machine/Convert.lean ====
section
/-! DEFINITION. The end of a conversion: its result word, pairing of reversal halves, averaging, delivery (spec/03, R67, R71 to R73;
spec/04, R84, R86). -/

namespace Sys2Proof.Machine

/-- A code within the converter's linear over-range (R55, R71). -/
def linearCode (code : Int) : Int := clampInt (-codeMax) codeMax code

/-- The flags of one conversion of slice `i`, with its code; the clamp's sign is corrected for polarity (R67, R71, R73). DESIGN CHOICE, log
entry 65: CALSTALE is judged as the result is formed, after a trim swap at the ending boundary. -/
def State.convFlags (s : State) (i : Nat) (c : Conv) (code : Int) : Flags :=
  { ovr := codeOvr code || c.clamp.isSome, clamp := c.clamp.map fun neg => neg != c.reversed, dirty := c.dirty,
    calstale := s.calStale i }

/-- W0 of a single conversion: the clamp code, or the code, negated for reversed polarity (R67, R73). -/
def convCode (c : Conv) (code : Int) : Int :=
  match c.clamp with
  | some neg => clampCode (neg != c.reversed)
  | none => if c.reversed then -(linearCode code) else linearCode code

/-- The pair's W0: (C+ − C−) >> 1, or the clamp code of the later clamp (R67). -/
def pairCode (plus minus : Int) (f : Flags) : Int :=
  match f.clamp with
  | some neg => clampCode neg
  | none => floorDiv (plus - minus) 2

/-- The value and quality of a result for the keeper core. -/
def convVolts (c : Conv) (w0 : Int) (f : Flags) : Val :=
  (resultVolts w0 c.gain c.div10 0,
   b2n (f.ovr || codeOvr w0) + 2 * b2n f.clamp.isSome + 4 * b2n f.dirty + 8 * b2n f.calstale)

/-- A regular conversion's result goes to its averager (R90); in STANDBY that of TETHER_CFG.CH goes to the keeper core, and none anywhere else
(R283). -/
def State.regResult (s : State) (i : Nat) (c : Conv) (w0 : Int) (f : Flags) (t : BitVec 64) (v : Bool) : State :=
  if s.on .core then s.average i c w0 f t v
  else s.when (s.keeperCore.active && c.ch == s.tetherCh) fun s => s.keeperRun (convVolts c w0 f) false

/-- An injected conversion is delivered, to CORE; the slice takes the sequence's next entry, or the sequence is done (R84, R86). -/
def State.injResult (s : State) (i : Nat) (c : Conv) (w0 : Int) (f : Flags) (t : BitVec 64) (v : Bool) : State :=
  let s := s.when (s.on .core) fun s => s.deliverInj i c w0 f t v
  let s := { s with inj := { s.inj with left := s.inj.left - 1 } }
  (s.when ((s.slice i).injRole && (s.slice i).injNext.isNone && !(s.slice i).inReset) fun s => s.injGive i).injCheckDone

/-- The conversion `c` of slice `i` has its code. -/
def State.deliverConv (s : State) (i : Nat) (c : Conv) (code : Int) (t : BitVec 64) (v : Bool) : State :=
  let raw := linearCode code
  let f := s.convFlags i c raw
  if c.inj then s.injResult i c (convCode c code) f t v
  else match c.half with
    | 0 => (s.regResult i c (convCode c code) f t v).seqCheckDone
    | 1 => s.setSlice i { s.slice i with half := some (raw, f) }
    | 2 =>
      match (s.slice i).half with
      | some (plus, g) =>
        let f := g.or f
        let w := pairCode plus raw f
        ((s.setSlice i { s.slice i with half := none }).regResult i c w { f with ovr := f.ovr || codeOvr w } t v).seqCheckDone
      | none => s.unpaired.seqCheckDone
    | _ => s.unpaired.seqCheckDone

/-- An integration of slice `i` has ended and its code is known: one that a boundary ended first, else the one in progress, once time
has passed to its end (R53, R72, R85). -/
def State.conversionEnd (s : State) (i : Nat) (code : Int) : State :=
  let x := s.slice i
  match x.ended with
  | some c =>
    let (t, v) := c.endStamp.getD (s.time, s.tbValid)
    (s.setSlice i { x with ended := none }).deliverConv i c code t v
  | none =>
    match x.conv with
    | some c =>
      let s := if c.inj then s.passTo c.due else s.toFrameEnd
      let (t, v) := if c.inj then (s.time, s.tbValid) else s.endTime
      (s.setSlice i { x with conv := none }).deliverConv i c code t v
    | none => s

/-- CONVERSION_END. -/
def execConversionEnd (i : SliceId) (code : Int) (s : State) : Host.Outcome State Fault Refusal :=
  (s.when s.measRuns fun s => s.conversionEnd i code).done

end Sys2Proof.Machine
end

