-- ==== Sys2Proof/Machine/Sessions.lean ====
section
/-! DEFINITION. Keys, challenges and sessions of the object dictionary (spec/09, R206, R210 to R213; spec/07, R167). -/

namespace Sys2Proof.Machine

/-! ### SHA-256 and HMAC (R211; FIPS 180-4 and RFC 2104, PRESUMED, log entry 11) -/

/-- The round constants. -/
def shaK : List Word :=
  [0x428A2F98, 0x71374491, 0xB5C0FBCF, 0xE9B5DBA5, 0x3956C25B, 0x59F111F1, 0x923F82A4, 0xAB1C5ED5,
   0xD807AA98, 0x12835B01, 0x243185BE, 0x550C7DC3, 0x72BE5D74, 0x80DEB1FE, 0x9BDC06A7, 0xC19BF174] ++
  [0xE49B69C1, 0xEFBE4786, 0x0FC19DC6, 0x240CA1CC, 0x2DE92C6F, 0x4A7484AA, 0x5CB0A9DC, 0x76F988DA,
   0x983E5152, 0xA831C66D, 0xB00327C8, 0xBF597FC7, 0xC6E00BF3, 0xD5A79147, 0x06CA6351, 0x14292967] ++
  [0x27B70A85, 0x2E1B2138, 0x4D2C6DFC, 0x53380D13, 0x650A7354, 0x766A0ABB, 0x81C2C92E, 0x92722C85,
   0xA2BFE8A1, 0xA81A664B, 0xC24B8B70, 0xC76C51A3, 0xD192E819, 0xD6990624, 0xF40E3585, 0x106AA070] ++
  [0x19A4C116, 0x1E376C08, 0x2748774C, 0x34B0BCB5, 0x391C0CB3, 0x4ED8AA4A, 0x5B9CCA4F, 0x682E6FF3,
   0x748F82EE, 0x78A5636F, 0x84C87814, 0x8CC70208, 0x90BEFFFA, 0xA4506CEB, 0xBEF9A3F7, 0xC67178F2]

/-- The eight working words. -/
structure Sha where
  a : Word
  b : Word
  c : Word
  d : Word
  e : Word
  f : Word
  g : Word
  h : Word
  deriving DecidableEq, Repr

/-- The initial hash value. -/
def shaInit : Sha :=
  ⟨0x6A09E667, 0xBB67AE85, 0x3C6EF372, 0xA54FF53A, 0x510E527F, 0x9B05688C, 0x1F83D9AB, 0x5BE0CD19⟩

/-- The XOR of a word rotated right by `i`, by `j`, and rotated or shifted by `k`. -/
def shaMix (i j k : Nat) (shift : Bool) (x : Word) : Word :=
  x.rotateRight i ^^^ x.rotateRight j ^^^ (if shift then x >>> k else x.rotateRight k)

/-- `n` words of the message schedule from a window of 16. -/
def shaWords : Nat → List Word → List Word
  | 0, _ => []
  | n + 1, w =>
    nth w 0 0 :: shaWords n (w.drop 1 ++
      [shaMix 17 19 10 true (nth w 14 0) + nth w 9 0 + shaMix 7 18 3 true (nth w 1 0) + nth w 0 0])

/-- One round. -/
def shaRound (x : Sha) (kw : Word) : Sha :=
  let t1 := x.h + shaMix 6 11 25 false x.e + ((x.e &&& x.f) ^^^ (~~~x.e &&& x.g)) + kw
  let t2 := shaMix 2 13 22 false x.a + ((x.a &&& x.b) ^^^ (x.a &&& x.c) ^^^ (x.b &&& x.c))
  ⟨t1 + t2, x.a, x.b, x.c, x.d + t1, x.e, x.f, x.g⟩

/-- One block of 64 bytes. -/
def shaBlock (x : Sha) (bs : List Byte) : Sha :=
  let w := (List.range 16).map fun i => BitVec.ofNat 32 (beNat (sliceBytes bs (4 * i) 4))
  let y := (List.zipWith (fun k w => k + w) shaK (shaWords 64 w)).foldl shaRound x
  ⟨x.a + y.a, x.b + y.b, x.c + y.c, x.d + y.d, x.e + y.e, x.f + y.f, x.g + y.g, x.h + y.h⟩

/-- SHA-256 of a byte string. -/
def sha256 (bs : List Byte) : List Byte :=
  let n := (bs.length + 8) / 64 + 1
  let m := bs ++ 0x80 :: List.replicate (64 * n - bs.length - 9) 0 ++ beBytes 8 (8 * bs.length)
  let x := (List.range n).foldl (fun x i => shaBlock x (sliceBytes m (64 * i) 64)) shaInit
  [x.a, x.b, x.c, x.d, x.e, x.f, x.g, x.h].flatMap fun w => beBytes 4 w.toNat

/-- HMAC-SHA-256 under a key of at most 64 bytes. -/
def hmacSha256 (key msg : List Byte) : List Byte :=
  let k := sliceBytes key 0 64
  sha256 (k.map (fun b => b ^^^ 0x5C) ++ sha256 (k.map (fun b => b ^^^ 0x36) ++ msg))

/-! ### Answers (R206) -/

/-- The status codes every path shares. -/
inductive OdCode where
  | ok | noObject | typeMismatch | access | range | busy | level
  deriving DecidableEq, Repr

/-- The code's number. -/
def OdCode.num : OdCode → Nat
  | .ok => 0 | .noObject => 1 | .typeMismatch => 2 | .access => 3 | .range => 4 | .busy => 5 | .level => 6

/-- An answer of the engine: status, type code and value (little-endian; empty unless the status is OK). -/
structure Answer where
  code  : OdCode
  typ   : Nat := 0
  value : List Byte := []
  deriving DecidableEq, Repr

/-- The engine's answer as it keeps it: status, type code of a read, value. -/
def Answer.bytes (a : Answer) : List Byte :=
  BitVec.ofNat 8 a.code.num :: (if a.typ = 0 then a.value else BitVec.ofNat 8 a.typ :: a.value)

/-- An answer goes out. -/
def State.answered (r : Answer × State) : State := { r.2 with od := { r.2.od with answer := r.1.bytes } }

/-- Whether the engine answers BUSY to everything: its per-function reset (R299), an image being applied (R217). -/
def State.odBusy (s : State) : Bool := s.od.inReset || s.od.snap.state == 5

/-! ### Keys (R210) -/

/-- The key of a level. -/
def State.odKey (s : State) (l : Nat) : List Byte := vget s.od.keys l []

/-- Whether the key of level `l` is loaded: one of all zero bytes is not. -/
def State.keyLoaded (s : State) (l : Nat) : Bool := (s.odKey l).any fun b => b != 0

/-! ### Sessions (R167, R213) -/

/-- An opening or closing is reported. -/
def State.sessionEvent (s : State) : State := s.raise Reg.OD_EVENT Fld.OD_EVENT_SESSION

/-- The session a source holds. -/
def State.session (s : State) (p : OdPath) : Option Session :=
  match p with
  | .host => none
  | .trunk _ => (s.od.trunk.toList.filterMap id).find? fun x => x.path == p
  | .tone n _ => match vget s.od.tone n none with
    | some x => if x.path = p then some x else none
    | none => none

/-- The level a request of a path executes at (R203, R270). -/
def State.levelOf (s : State) (p : OdPath) : Nat :=
  match p with
  | .host => 3
  | _ => if p = .trunk 0 then 0 else match s.session p with | some x => x.level | none => 0

/-- The trunk slot of a source. -/
def State.trunkSlot (s : State) (p : OdPath) : Option Nat :=
  (List.range 16).find? fun i => match vget s.od.trunk i none with | some x => x.path == p | none => false

/-- Trunk slot `i` closes. -/
def State.trunkClose (s : State) (i : Nat) : State :=
  match vget s.od.trunk i none with
  | none => s
  | some x => ({ s.disarm (.sessionIdle x.path) with od := { s.od with trunk := vset s.od.trunk i none } }).sessionEvent

/-- The session of a source closes, if it holds one. -/
def State.closeSession (s : State) (p : OdPath) : State :=
  match p with
  | .host => s
  | .trunk _ => match s.trunkSlot p with | some i => s.trunkClose i | none => s
  | .tone n _ => if (s.session p).isSome then s.toneClose n else s

/-- Every trunk session closes (R213, R299). -/
def State.closeTrunk (s : State) : State := iterate 16 (fun i s => s.trunkClose i) s

/-- Every tone session closes. -/
def State.closeTone (s : State) : State := iterate 16 (fun n s => s.toneClose n) s

/-- Every session of level `l` closes (R210). -/
def State.closeLevel (s : State) (l : Nat) : State :=
  let s := iterate 16 (fun i s => match vget s.od.trunk i none with
    | some x => if x.level = l then s.trunkClose i else s
    | none => s) s
  iterate 16 (fun n s => match vget s.od.tone n none with
    | some x => if x.level = l then s.toneClose n else s
    | none => s) s

/-- Where a session of a source would stand: its own slot, else a free one; none: the table is full (R167, R211). -/
def State.sessionRoom (s : State) (p : OdPath) : Bool :=
  match p with
  | .host => false
  | .trunk _ => (s.trunkSlot p).isSome || s.od.trunk.toList.any (fun x => x.isNone)
  | .tone n _ => match vget s.od.tone n none with | some x => x.path == p | none => true

/-- A request of the snapshot buffer's owner restarts its 60 s (R218). -/
def State.snapTouch (s : State) (p : OdPath) : State :=
  s.when (s.od.snap.owner == some p) fun s => s.arm .snapOwner (secCk 60)

/-- A request of a source restarts its session's 60 s (R167, R213). -/
def State.sessionTouch (s : State) (p : OdPath) : State :=
  match s.session p with
  | none => s
  | some x =>
    let y := some { x with last := s.ck }
    let od := match p with
      | .host => s.od
      | .trunk _ => match s.trunkSlot p with | some i => { s.od with trunk := vset s.od.trunk i y } | none => s.od
      | .tone n _ => { s.od with tone := vset s.od.tone n y }
    { s with od := od }.arm (.sessionIdle p) (secCk 60)

/-- A request of a source, whatever the answer, restarts its session's 60 s and those of the snapshot buffer it owns. -/
def State.touch (s : State) (p : OdPath) : State := (s.sessionTouch p).snapTouch p

/-- A session opens at level `l`, in place of one the source held. -/
def State.openSession (s : State) (p : OdPath) (l : Nat) : State :=
  let s := s.closeSession p
  let x := some { path := p, level := l, last := s.ck }
  let s := match p with
    | .host => s
    | .trunk _ => match (List.range 16).find? (fun i => (vget s.od.trunk i none).isNone) with
      | some i => { s with od := { s.od with trunk := vset s.od.trunk i x } }.sessionEvent
      | none => s
    | .tone n src =>
      let s := { s with od := { s.od with tone := vset s.od.tone n x } }.sessionEvent
      let s := s.when (s.portRuns n) fun s =>
        (s.setFld (Reg.MODEM_STATUS n) Fld.MODEM_STATUS_SESSION_SRC src.toNat).setFld (Reg.MODEM_STATUS n)
          Fld.MODEM_STATUS_SESSION_LEVEL l
      s.raise (Reg.MODEM_EVENT n) Fld.MODEM_EVENT_SESSION
  s.touch p

/-! ### Authentication (R211, R213) -/

/-- What the engine keeps for a source. -/
def State.authOf (s : State) (p : OdPath) : Auth := (s.od.auth.find? fun a => a.path == p).getD { path := p }

/-- It is put to a value. -/
def State.setAuth (s : State) (a : Auth) : State :=
  { s with od := { s.od with auth := a :: s.od.auth.filter fun b => b.path != a.path } }

/-- The challenge of a source is used up. -/
def State.dropChallenge (s : State) (p : OdPath) : State :=
  (s.disarm (.challenge p)).setAuth { s.authOf p with challenge := none }

/-- The message M (R212). -/
def State.authMessage (s : State) (p : OdPath) (c : BitVec 128) (l : Nat) : List Byte :=
  let (path, src) := match p with
    | .host => (0, 0)
    | .trunk src => (0x20, src.toNat)
    | .tone n src => (0x10 + n.val, src.toNat)
  beBytes 16 c.toNat ++ [BitVec.ofNat 8 l, BitVec.ofNat 8 path, BitVec.ofNat 8 src] ++ timeBytes s.fuses.uniqueId

/-- An authentication fails; one that is the fourth or more of its source within 60 s locks the source out for the next 60 s, also where it
is locked out already (R213; DEDUCED, log entry 84). A tone source is left at level 0: a session it held closes (R167). -/
def State.authFail (s : State) (p : OdPath) : State :=
  let a := s.authOf p
  let fails := s.ck :: a.fails.filter fun t => decide (s.ck < t + secCk 60)
  let lock := decide (4 ≤ fails.length)
  let s := s.setAuth { a with fails := fails, locked := a.locked || lock }
  let s := s.when lock fun s => s.arm (.lockout p) (secCk 60)
  let s := (s.count Reg.OD_AUTH_FAIL_COUNT Reg.OD_EVENT Fld.OD_EVENT_CTR_SAT 1).raise Reg.OD_EVENT Fld.OD_EVENT_AUTH_FAIL
  match p with
  | .tone n _ => (s.closeSession p).raise (Reg.MODEM_EVENT n) Fld.MODEM_EVENT_AUTH_FAIL
  | _ => s

/-- A fresh challenge for a source, kept with its level for 10 s. -/
def State.drawChallenge (s : State) (p : OdPath) (l : Nat) : Answer × State :=
  let c := Config.noise s.od.drawn
  let s := { s with od := { s.od with drawn := s.od.drawn + 1 } }
  let s := (s.setAuth { s.authOf p with challenge := some (l, c) }).arm (.challenge p) (secCk 10)
  ({ code := .ok, value := beBytes 16 c.toNat }, s)

/-- Whether a path is a tone path. -/
def isTone (p : OdPath) : Bool := match p with | .tone _ _ => true | _ => false

/-- SESSION_OPEN (R166, R211, R213): a challenge of the source still alive expires. -/
def State.sessionOpen (s : State) (p : OdPath) (l : Nat) : Answer × State :=
  if p = .host then ({ code := .access }, s)
  else if s.odBusy then ({ code := .busy }, s.touch p)
  else
    let s := (s.touch p).dropChallenge p
    if isTone p && decide (1 < l) then ({ code := .level }, s)
    else if l = 0 ∨ 3 < l ∨ s.keyLoaded l = false then ({ code := .level }, s)
    else if (s.authOf p).locked || !s.sessionRoom p then ({ code := .busy }, s)
    else s.drawChallenge p l

/-- SESSION_AUTH (R211, R212): the granted level is the answer's value. DESIGN CHOICE, log entry 85: a right answer for whose session there is
no room is answered BUSY. -/
def State.sessionAuth (s : State) (p : OdPath) (hmac : List Byte) : Answer × State :=
  if p = .host then ({ code := .access }, s)
  else if s.odBusy then ({ code := .busy }, s.touch p)
  else if hmac.length != 32 then ({ code := .access }, s.touch p)
  else
    let s := s.touch p
    let refused (s : State) : Answer × State := ({ code := .ok, value := [0] }, s.authFail p)
    match (s.authOf p).challenge with
    | none => refused s
    | some (l, c) =>
      let s := s.dropChallenge p
      if s.keyLoaded l && hmac == hmacSha256 (s.odKey l) (s.authMessage p c l) then
        if s.sessionRoom p then ({ code := .ok, value := [BitVec.ofNat 8 l] }, s.openSession p l) else ({ code := .busy }, s)
      else refused s

/-- SESSION_CLOSE (R167, R213). -/
def State.sessionClose (s : State) (p : OdPath) : Answer × State :=
  if p = .host then ({ code := .access }, s)
  else if s.odBusy then ({ code := .busy }, s.touch p)
  else ({ code := .ok }, (s.touch p).closeSession p)

/-- SESSION_IDLE_TIMEOUT: 60 s without a request. -/
def execSessionIdleTimeout (p : OdPath) (s : State) : Host.Outcome State Fault Refusal :=
  (s.fall (.sessionIdle p) fun s => s.closeSession p).done

/-- CHALLENGE_EXPIRY. -/
def execChallengeExpiry (p : OdPath) (s : State) : Host.Outcome State Fault Refusal :=
  (s.fall (.challenge p) fun s => s.dropChallenge p).done

/-- LOCKOUT_END. -/
def execLockoutEnd (p : OdPath) (s : State) : Host.Outcome State Fault Refusal :=
  (s.fall (.lockout p) fun s => s.setAuth { s.authOf p with locked := false }).done

/-! ### Loading keys (R210) -/

/-- The key of level `l` is loaded or cleared: every session at that level closes. -/
def State.putKey (s : State) (l : Nat) (k : List Byte) : State :=
  ({ s with od := { s.od with keys := vset s.od.keys l k } }).closeLevel l

/-- OD_KEY_CTL.LEVEL. -/
def State.keyLevel (s : State) : Nat := s.fld Reg.OD_KEY_CTL Fld.OD_KEY_CTL_LEVEL

/-- The bytes of OD_KEY. -/
def State.keyBytes (s : State) : List Byte := (List.range 8).flatMap fun w => wordBytes (s.reg (Reg.OD_KEY w))

/-- OD_KEY set to 0. -/
def State.wipeKey (s : State) : State := iterate 8 (fun w s => s.setReg (Reg.OD_KEY w) 0) s

/-- OD_KEY_CTL.LOAD. -/
def State.keyLoad (s : State) : State :=
  if s.keyLevel = 0 then s else (s.putKey s.keyLevel s.keyBytes).wipeKey

/-- OD_KEY_CTL.CLEAR. -/
def State.keyClear (s : State) : State := if s.keyLevel = 0 then s else s.putKey s.keyLevel []

/-- LOAD. -/
def execKeyLoad (s : State) : Host.Outcome State Fault Refusal := (s.hostRow Reg.OD_KEY_CTL false State.keyLoad).done

/-- CLEAR. -/
def execKeyClear (s : State) : Host.Outcome State Fault Refusal := (s.hostRow Reg.OD_KEY_CTL false State.keyClear).done

/-! ### The engine's memory (R204, R210, R299) -/

/-- Deadlines of the engine: sessions, challenges, lockouts, the snapshot owner. -/
def State.odDisarm (s : State) : State :=
  { s with timers := s.timers.filter fun p => match p.1 with
      | .sessionIdle _ | .challenge _ | .lockout _ | .snapOwner => false
      | _ => true }

/-- CORE is off: all the engine holds is gone but the keys. -/
def State.odLost (s : State) : State :=
  let s := (s.closeTrunk.closeTone).odDisarm
  { s with od := { keys := s.od.keys, drawn := s.od.drawn } }

/-- The engine's per-function reset begins (R299): the keys and TAG stay, OD_STATUS is 0 but for the RESULT of a request that was
pending, and the window's value is gone (R298). -/
def State.odReset (s : State) : State :=
  let s := (s.closeTrunk.closeTone).odDisarm
  let s := { s with od := { s.od with auth := [], lastTid := [], snap := {}, window := none, inReset := true } }
  let pending := s.flag Reg.OD_STATUS Fld.OD_STATUS_BUSY
  let s := iterate 64 (fun w s => s.setReg (Reg.OD_DATA w) 0) (s.setReg Reg.OD_LEN 0)
  let s := s.setReg Reg.OD_STATUS (if pending then Fld.OD_STATUS_RESULT.put OdCode.busy.num else 0)
  s.when pending fun s => s.raise Reg.OD_EVENT Fld.OD_EVENT_DONE

end Sys2Proof.Machine
end

