-- ==== Sys2Proof/Machine/TrunkLine.lean ====
section
/-! DEFINITION. The trunk signal path (spec/10, R220 to R244): reception up to the header decision, transmission, predistortion,
link readiness and the bypass. -/

namespace Sys2Proof.Machine

/-! ### Status of a port -/

/-- RX_STATE: 0 OFF, 1 SEARCH, 2 ACQ, 3 HDR, 4 PAYLOAD, 5 TX, 6 BLANK. -/
def State.rxState (s : State) (t : Trx) : Nat := s.fld (Reg.TRX_STATUS t.idx) Fld.TRX_STATUS_RX_STATE
def State.setRx (s : State) (t : Trx) (r : Nat) : State := s.setFld (Reg.TRX_STATUS t.idx) Fld.TRX_STATUS_RX_STATE r

/-- TRX_CTL.EN. -/
def State.trxOn (s : State) (t : Trx) : Bool := s.tdRuns && s.flag (Reg.TRX_CTL t.idx) Fld.TRX_CTL_EN

/-- An event bit and a counter of a port. -/
def State.trxRaise (s : State) (t : Trx) (f : Fld) : State := s.raise (Reg.TRX_EVENT t.idx) f
def State.trxCount (s : State) (t : Trx) (a : Nat → Nat) : State :=
  s.count (a t.idx) (Reg.TRX_EVENT t.idx) Fld.TRX_EVENT_CTR_SAT 1

/-- The AGC is frozen, or follows again. -/
def State.agc (s : State) (t : Trx) (frozen : Bool) : State :=
  s.setFlag (Reg.TRX_STATUS t.idx) Fld.TRX_STATUS_AGC_FROZEN frozen

/-- The candidate of a port is set, or gone. -/
def State.setCand (s : State) (t : Trx) (c : Option Candidate) : State :=
  (s.setTrunk t { s.trunk t with cand := c }).setFlag (Reg.TRX_STATUS t.idx) Fld.TRX_STATUS_CANDIDATE c.isSome

/-- CK cycles of 48 symbols at SF64: the delimiter's search (R234), and preamble with delimiter (R227). -/
def sf64x48 : Nat := 98304

/-! ### Keys of the duplicate filter that wait for a decision (R263) -/

/-- The key of a frame whose first codeword is known: SRC and MSG_SEQ. -/
def DecJob.key (j : DecJob) : Nat × BitVec 16 := (leAt j.bytes 2 1, BitVec.ofNat 16 (leAt j.bytes 4 2))

/-- A tentative key is removed; copies held for it go on to their own decision. -/
def State.dropKey (s : State) (k : Nat × BitVec 16) : State :=
  let back := s.ring.held.filter fun p => p.2.key == k
  let s := { s with ring := { s.ring with tentative := s.ring.tentative.filter (fun e => (e.1, e.2.1) != k),
                                          held := s.ring.held.filter fun p => p.2.key != k } }
  back.foldl (fun s p => s.setTrunk p.1 { s.trunk p.1 with frames := p.2 :: (s.trunk p.1).frames }) s

/-- A frame is dropped before its decision: its key goes, if it holds one. -/
def State.dropJob (s : State) (t : Trx) (j : DecJob) : State :=
  if j.got != 0 && s.ring.tentative.contains (j.key.1, j.key.2, t) then s.dropKey j.key else s

/-- Reception ends without a frame: the frame followed and the candidate are dropped. -/
def State.rxDrop (s : State) (t : Trx) : State :=
  let x := s.trunk t
  let s := (((s.disarm (.acq t)).setTrunk t { x with job := none }).setCand t none).agc t false
  match x.job with
  | some j => s.dropJob t j
  | none => s

/-! ### Reception (R233 to R238) -/

/-- Distance of two chip offsets modulo 64. -/
def chipGap (a b : BitVec 6) : Nat := min (a - b).toNat (b - a).toNat

/-- Whether the phases of four correlations lie within 45° of their mean, taken from the first one's. -/
def phasesClose (ps : List (BitVec 16)) : Bool :=
  let d := ps.map fun p => (p - nth ps 0 0).toInt
  d.all fun x => decide ((4 * x - d.foldl (· + ·) 0).natAbs ≤ 4 * 8192)

/-- Whether four correlations qualify against a threshold in 0.25 dB (R233). -/
def preambleQualifies (p : Preamble) (thresh : Nat) : Bool :=
  p.corr.length == 4 && p.corr.all (fun c => decide (chipGap c.offset p.offset ≤ 1) && decide ((thresh : Int) ≤ c.above)) &&
    phasesClose (p.corr.map Corr.phase)

/-- The start delimiter (R227). -/
def delimiterWord : BitVec 16 := 0xE2B4

/-- Whether sixteen symbol decisions match it with at most one in error (R234). -/
def delimiterMatches (syms : BitVec 16) : Bool :=
  decide ((List.range 16).countP (fun i => (syms ^^^ delimiterWord).getLsbD i) ≤ 1)

/-- L_f of the frame followed, in 0.25 dB. -/
def State.levelF (s : State) (t : Trx) : Int := Fld.TRX_LEVEL_LEVEL.sget (s.reg (Reg.TRX_LEVEL t.idx))

/-- The gain in force. -/
def State.setGain (s : State) (t : Trx) (g : Int) : State :=
  s.setFld (Reg.TRX_LEVEL t.idx) Fld.TRX_LEVEL_GAIN (BitVec.ofInt 16 g).toNat

/-- A receiver enters ACQ on a preamble: the fast AGC loop, at the gain at which it settles; 48 symbols to find the delimiter (R234). -/
def State.enterAcq (s : State) (t : Trx) (p : Preamble) : State :=
  let s := (s.setTrunk t { s.trunk t with level := p.level, chip := p.offset, qualAt := s.ck }).arm (.acq t) sf64x48
  ((s.agc t false).setGain t p.gain).setRx t 2

/-- Whether a preamble takes the place of one of level `l` and offset `chip` that qualified on edge `qual`: it is stronger, or as strong
on the same edge with the lower offset (R234, R237, R238). -/
def State.beats (s : State) (p : Preamble) (l : Int) (chip : BitVec 6) (qual : Nat) : Bool :=
  decide (l < p.level) || (l == p.level && qual == s.ck && decide (p.offset < chip))

/-- TRX_DETECT.MARGIN as it acts, in 0.25 dB (R236). -/
def State.capMargin (s : State) (t : Trx) : Int := 4 * (max 3 (s.fld (Reg.TRX_DETECT t.idx) Fld.TRX_DETECT_MARGIN) : Int)

/-- The clip detector fired without a capture (R236). -/
def State.clipSeen (s : State) (t : Trx) : State :=
  (s.setTrunk t { s.trunk t with clipAt := some s.ck }).trxRaise t Fld.TRX_EVENT_CLIP

/-- A capture: the current frame is abandoned for the new preamble (R236). -/
def State.capture (s : State) (t : Trx) (p : Preamble) : State :=
  let lost := s.rxState t == 4
  let s := ((s.rxDrop t).enterAcq t p).trxCount t Reg.TRX_CAPTURE_COUNT
  let s := s.trxRaise t Fld.TRX_EVENT_CAPTURE
  s.when lost fun s => (s.trxCount t Reg.TRX_LOST_TO_CAPTURE).trxRaise t Fld.TRX_EVENT_LOST_TO_CAPTURE

/-- A qualified preamble while a frame is received (R236, R237). On the edge of a failed header at which a found candidate took over, it is
one more candidate: if it is the stronger, the receiver goes on to it in ACQ (R238). -/
def State.secondFrame (s : State) (t : Trx) (p : Preamble) : State :=
  let x := s.trunk t
  let cap := s.flag (Reg.TRX_CTL t.idx) Fld.TRX_CTL_CAPTURE_EN
  if chipGap p.offset x.chip < 2 then s
  else if cap && x.tookOver == some s.ck && s.rxState t == 3 then
    (if s.beats p (s.levelF t) x.chip x.qualAt then (s.rxDrop t).enterAcq t p else s)
  else if cap && (p.clip || decide (s.levelF t + s.capMargin t ≤ p.level)) then
    (s.when p.clip fun s => s.setTrunk t { s.trunk t with clipAt := some s.ck }).capture t p
  else
    let s := s.when p.clip fun s => s.clipSeen t
    let stronger := match x.cand with | some c => s.beats p c.level c.chip c.qual | none => true
    if cap && s.rxState t == 3 && stronger then
      (s.setCand t (some { level := p.level, chip := p.offset, qual := s.ck })).arm (.acq t) sf64x48
    else s

/-- Four correlations: a preamble, if they qualify (R233 to R238). -/
def State.preamble (s : State) (t : Trx) (p : Preamble) : State :=
  let x := s.trunk t
  if !s.trxOn t || x.inReset || !preambleQualifies p (s.fld (Reg.TRX_DETECT t.idx) Fld.TRX_DETECT_DET_THRESH) then s
  else
    let s := s.setTrunk t { x with quietAt := s.ck }
    match s.rxState t with
    | 1 => s.enterAcq t p
    | 2 => if s.beats p x.level x.chip x.qualAt then s.enterAcq t p else s
    | 3 | 4 => s.secondFrame t p
    | _ => s

/-- PREAMBLE_QUALIFY. -/
def execPreambleQualify (t : Trx) (p : Preamble) (s : State) : Host.Outcome State Fault Refusal := (s.preamble t p).done

/-- A stamp of reception goes into TRX_RX_TIME (R230). -/
def State.rxStamp (s : State) (t : Trx) (time : BitVec 64) (tbv : Bool) (ck : Nat) : State :=
  let s := (s.setReg (Reg.TRX_RX_TIME_LO t.idx) (lo32 time)).setReg (Reg.TRX_RX_TIME_HI t.idx) (hi32 time)
  (s.setFlag (Reg.TRX_STATUS t.idx) Fld.TRX_STATUS_RX_TB_VALID tbv).setTrunk t { s.trunk t with rxCk := ck }

/-- LEVEL. -/
def State.setLevel (s : State) (t : Trx) (l : Int) : State :=
  s.setFld (Reg.TRX_LEVEL t.idx) Fld.TRX_LEVEL_LEVEL (BitVec.ofInt 16 l).toNat

/-- The start delimiter is detected (R234), or the candidate's by the shadow chain (R237). -/
def State.delimiter (s : State) (t : Trx) (syms : BitVec 16) (level gain : Int) (shadow : Bool) : State :=
  if !s.trxOn t || !delimiterMatches syms then s
  else if shadow then
    match (s.trunk t).cand with
    | some c =>
      if s.rxState t = 3 ∧ c.found = false then
        (s.disarm (.acq t)).setCand t (some { c with level, found := true, time := s.time, tbv := s.tbValid, ck := s.ck })
      else s
    | none => s
  else if s.rxState t = 2 then
    let s := ((s.disarm (.acq t)).agc t true).setRx t 3
    let s := (s.setLevel t level).setGain t gain
    s.rxStamp t s.time s.tbValid s.ck
  else s

/-- DELIMITER_DETECT. -/
def execDelimiterDetect (t : Trx) (syms : BitVec 16) (x : LineLevel) (shadow : Bool) (s : State) : Host.Outcome State Fault Refusal :=
  (s.delimiter t syms x.level x.gain shadow).done

/-- ACQ_TIMEOUT: back to SEARCH, counted; a candidate without its delimiter is forgotten (R234, R237). -/
def execAcqTimeout (t : Trx) (s : State) : Host.Outcome State Fault Refusal :=
  (s.fall (.acq t) fun s =>
    if s.rxState t = 2 then
      ((s.setRx t 1).trxCount t Reg.TRX_ACQ_TIMEOUT_COUNT).trxRaise t Fld.TRX_EVENT_ACQ_TIMEOUT
    else s.setCand t none).done

/-! ### The header (R228, R229, R235) -/

/-- `n` bits of a header from bit `lo`. -/
def hdrBits (h : BitVec 128) (lo n : Nat) : Nat := (h.toNat >>> lo) % 2 ^ n

/-- The RATE field that goes with an SF field (R227). -/
def rateOf (sf : Nat) : Nat := match sf with | 0 => 2 | 1 => 1 | _ => 0

/-- The check over bits 127:16. -/
def hdrCrc (h : BitVec 128) : BitVec 16 := crc16 (beBytes 14 (h.toNat >>> 16))

/-- Whether a decoded header passes under the code index in force (R229). -/
def hdrPasses (h : BitVec 128) (code : Nat) : Bool :=
  let sf := hdrBits h 122 2
  let ncw := hdrBits h 118 2
  let len := hdrBits h 109 9
  hdrBits h 0 16 == (hdrCrc h).toNat && hdrBits h 124 4 == 1 && hdrBits h 16 27 == 0 && hdrBits h 107 2 == code &&
    hdrBits h 120 2 == rateOf sf && ncw != 0 && decide ((ncw - 1) * cwBytes sf + 1 ≤ len) && decide (len ≤ ncw * cwBytes sf)

/-- A header's fields but TX_STAMP and the check (R228). -/
def buildHdr (sf ncw len code prio src dst : Nat) (seq : BitVec 16) : BitVec 128 :=
  let put (x lo n : Nat) : Nat := (x % 2 ^ n) <<< lo
  BitVec.ofNat 128 (put 1 124 4 + put sf 122 2 + put (rateOf sf) 120 2 + put ncw 118 2 + put len 109 9 + put code 107 2 +
    put prio 105 2 + put src 98 7 + put dst 91 7 + put seq.toNat 75 16)

/-- A header with its stamp, and the check over it. -/
def stampHdr (h : BitVec 128) (stamp : Word) : BitVec 128 :=
  let h := h ||| (BitVec.ofNat 128 stamp.toNat <<< 43)
  h ||| BitVec.ofNat 128 (hdrCrc h).toNat

/-- Both ports ready with HUNT set: 2 s without a header start the hunt. Without them a search under way ends, and no index is kept
(R259). -/
def State.huntArm (s : State) : State :=
  if s.linkReady .tw && s.linkReady .te && s.flag Reg.RING_CTL Fld.RING_CTL_HUNT then s.arm .codeHunt (secCk 2)
  else (s.disarm .codeHunt).lower Reg.RING_STATUS Fld.RING_STATUS_CODE_HUNT

/-- The hop's neighbour and the gaps in its numbers, from a header that passed (R254). -/
def State.hopSeen (s : State) (t : Trx) (src : Nat) (seq : BitVec 16) : State :=
  if s.bypassed then s
  else
    let known := s.flag Reg.RING_TOPO (nbrKnownFld t) && s.fld Reg.RING_TOPO (nbrFld t) == src
    let gap := match (s.trunk t).hopSeen with | some q => if known then (seq - q - 1).toNat else 0 | none => 0
    let s := if gap = 0 then s else s.ringCount Reg.RING_HOP_GAP_COUNT gap
    let s := (s.setFld Reg.RING_TOPO (nbrFld t) src).raise Reg.RING_TOPO (nbrKnownFld t)
    s.setTrunk t { s.trunk t with hopSeen := some seq }

/-- The decoder's reset runs. -/
def State.decResetting (s : State) : Bool := (s.dueOf (.funcReset .dec)).isSome

/-- A frame that enters PAYLOAD while the decoder's reset runs is dropped and counted (R299). -/
def State.decDrop (s : State) (t : Trx) : State := ((s.agc t false).setRx t 1).ringCount Reg.RING_DROP_COUNT 1

/-- A header passed: PAYLOAD, LINK_SILENT ends, a code hunt ends (R235, R237, R242, R259). -/
def State.headerPass (s : State) (t : Trx) (h : BitVec 128) : State :=
  let st := Reg.TRX_STATUS t.idx
  let s := ((s.disarm (.acq t)).setCand t none).setRx t 4
  let s := (s.trxCount t Reg.TRX_RX_FRAME_COUNT).setFld st Fld.TRX_STATUS_RX_SF (hdrBits h 122 2)
  let s := s.lower st Fld.TRX_STATUS_LINK_SILENT
  let s := s.when (s.linkReady t) fun s => s.arm (.silent t) (secCk 1)
  let kept := s.ring.huntKept || s.flag Reg.RING_STATUS Fld.RING_STATUS_CODE_HUNT
  let s := { (s.lower Reg.RING_STATUS Fld.RING_STATUS_CODE_HUNT).huntArm with ring := { s.ring with huntKept := kept } }
  let s := s.hopSeen t (hdrBits h 98 7) (BitVec.ofNat 16 (hdrBits h 75 16))
  let j : DecJob :=
    { hdr := h, time := pair64 (s.reg (Reg.TRX_RX_TIME_HI t.idx)) (s.reg (Reg.TRX_RX_TIME_LO t.idx)),
      tbv := s.flag st Fld.TRX_STATUS_RX_TB_VALID, ck := (s.trunk t).rxCk }
  let s := if s.decResetting then s.decDrop t else s.setTrunk t { s.trunk t with job := some j }
  s.breakCheck t

/-- A header failed: the candidate takes over, or the receiver searches (R235, R237). -/
def State.headerFail (s : State) (t : Trx) : State :=
  let s := (s.trxCount t Reg.TRX_HDR_FAIL_COUNT).trxRaise t Fld.TRX_EVENT_FALSE_DETECT
  match (s.trunk t).cand with
  | none => (s.agc t false).setRx t 1
  | some c =>
    let s := s.setCand t none
    let s := s.setTrunk t { s.trunk t with level := c.level, chip := c.chip, qualAt := c.qual,
                                           tookOver := if c.found then some s.ck else none }
    if c.found then (s.setLevel t c.level).rxStamp t c.time c.tbv c.ck else (s.agc t false).setRx t 2

/-- DEC_CTL.MAX_ITER as it acts. -/
def State.maxIter (s : State) : Nat := clampNat 1 16 (s.fld Reg.DEC_CTL Fld.DEC_CTL_MAX_ITER)

/-- The header decision on what was decoded (R229, R235). -/
def State.headerDecide (s : State) (t : Trx) : Option (BitVec 128) → State
  | some h => if hdrPasses h s.opCode then s.headerPass t h else s.headerFail t
  | none => s.headerFail t

/-- HEADER_DECISION: the header is decoded as R250 says and judged. -/
def execHeaderDecision (t : Trx) (soft : List Int) (s : State) : Host.Outcome State Fault Refusal :=
  (s.when (s.trxOn t && s.rxState t == 3) fun s => s.headerDecide t (decodeHeader s.maxIter soft)).done

/-- RX_FRAME_END: the frame goes on to its decision, the AGC follows again (R235). -/
def execRxFrameEnd (t : Trx) (snr : Int) (s : State) : Host.Outcome State Fault Refusal :=
  (s.when (s.trxOn t && s.rxState t == 4) fun s =>
    let x := s.trunk t
    let s := s.setTrunk t { x with job := none, frames := x.frames ++ x.job.toList, lastEnd := some (s.ck, false) }
    ((s.setFld (Reg.TRX_SNR t.idx) Fld.TRX_SNR_ES_N0 (BitVec.ofInt 16 snr).toNat).agc t false).setRx t 1).done

/-- CLIP: the clip detector fires during reception with no new preamble (R236). -/
def execClip (t : Trx) (s : State) : Host.Outcome State Fault Refusal :=
  (s.when (s.trxOn t && decide (2 ≤ s.rxState t) && decide (s.rxState t ≤ 4)) fun s => s.clipSeen t).done

/-! ### Predistortion (R239 to R241) -/

/-- The identity set. -/
def dpdIdentity : Vector Word 15 := (Vector.replicate 15 0).set 0 0x40000000

/-- The register of coefficient `i` of a port. -/
def dpdReg (t : Trx) (i : Nat) : Nat := match t with | .tw => Reg.DPD_COEF_TW i | .te => Reg.DPD_COEF_TE i

/-- ADAPT of a port. -/
def State.adapts (s : State) (t : Trx) : Bool :=
  s.flag Reg.DPD_CTL (match t with | .tw => Fld.DPD_CTL_ADAPT_TW | .te => Fld.DPD_CTL_ADAPT_TE)

/-- PAUSE of a port. -/
def pauseFld (t : Trx) : Fld := match t with | .tw => Fld.DPD_STATUS_PAUSE_TW | .te => Fld.DPD_STATUS_PAUSE_TE

/-- A complex number. -/
structure Cplx where
  re : Rat
  im : Rat
  deriving DecidableEq, Repr

/-- A coefficient in Q2.14: the real part in the upper half of its word. -/
def coefOf (w : Word) : Cplx := ⟨((w.extractLsb' 16 16).toInt : Rat) / 16384, ((w.extractLsb' 0 16).toInt : Rat) / 16384⟩

/-- y[n] of the predistorter from x[n], x[n−1], x[n−2], each with its magnitude (R239): the line signal itself is no state of the model. -/
def predistort (set : Vector Word 15) (x : List (Cplx × Rat)) : Cplx :=
  (List.range 15).foldl (fun y i =>
    let (v, mag) := nth x (i / 5) (⟨0, 0⟩, 0)
    let a := coefOf (vget set i 0)
    let g := mag ^ (i % 5)
    ⟨y.re + (a.re * v.re - a.im * v.im) * g, y.im + (a.re * v.im + a.im * v.re) * g⟩) ⟨0, 0⟩

/-- DPD_CTL.BYPASS of a port. -/
def State.dpdBypassed (s : State) (t : Trx) : Bool :=
  s.flag Reg.DPD_CTL (match t with | .tw => Fld.DPD_CTL_BYPASS_TW | .te => Fld.DPD_CTL_BYPASS_TE)

/-- The set a frame that starts now is sent with. -/
def State.dpdSet (s : State) (t : Trx) : Vector Word 15 := if s.dpdBypassed t then dpdIdentity else (s.trunk t).coef

/-- The set that waits goes in force at a frame boundary, the registers show it; software's words win, and the adapter then
starts afresh (R239, R241). -/
def State.dpdBoundary (s : State) (t : Trx) : State :=
  let x := s.trunk t
  let base := if x.ident then dpdIdentity else x.nextCoef.getD x.coef
  let new := x.writes.foldl (fun v p => vset v p.1 p.2) base
  if x.ident || x.nextCoef.isSome || !x.writes.isEmpty then
    let soft := x.ident || !x.writes.isEmpty
    let s := s.setTrunk t { x with coef := new, nextCoef := none, goesBack := false, writes := [], ident := false,
                                   prevCoef := if soft || x.goesBack then none else some x.coef, fresh := !soft && !x.goesBack,
                                   dpdRun := if soft then none else x.dpdRun }
    let s := s.when soft fun s => s.disarm (.dpd t)
    iterate 15 (fun i s => s.setReg (dpdReg t i) (vget new i 0)) s
  else s

/-- One half of a coefficient moved by 2^−MU of its distance to the fitted value; a fraction goes either way (log entry 8). -/
def blendHalf (old new : BitVec 16) (mu : Nat) (up : Bool) : BitVec 16 :=
  let d := new.toInt - old.toInt
  BitVec.ofInt 16 (old.toInt + floorDiv d (2 ^ mu) + (if up && d % (2 ^ mu : Int) != 0 then 1 else 0))

/-- a_old + 2^−MU × (a_ls − a_old) (R240). -/
def blend (old : Vector Word 15) (ls : List Word) (mu : Nat) (bits : Word) : Vector Word 15 :=
  (Vector.range 15).map fun i =>
    let a := vget old i 0
    let b := nth ls i 0
    let half (o : Nat) (k : Nat) : BitVec 16 := blendHalf (a.extractLsb' o 16) (b.extractLsb' o 16) mu (bits.getLsbD (2 * i + k))
    (half 16 1 ++ half 0 0 : BitVec 32)

/-- CONVERGED: E at −35 dB or better over the last 4 frames (R241). -/
def dpdConverged (errs : List Int) : Bool := errs.length == 4 && errs.all fun e => decide (e ≤ -140)

/-- The adapter has solved for frame `r`: back to the set before the update it judges, also where a still newer one has come in force since, or
a new set for the next boundary (R240, R241). -/
def State.dpdSolve (s : State) (t : Trx) (r : DpdRun) (ls : List Word) (err : Int) : State :=
  let x := { s.trunk t with dpdRun := none }
  let errs := (err :: x.errs).take 4
  let s := s.setFld Reg.DPD_ERR (match t with | .tw => Fld.DPD_ERR_TW | .te => Fld.DPD_ERR_TE) (BitVec.ofInt 16 err).toNat
  let s := s.setFlag Reg.DPD_STATUS (match t with | .tw => Fld.DPD_STATUS_CONVERGED_TW | .te => Fld.DPD_STATUS_CONVERGED_TE)
    (dpdConverged errs)
  let worse := r.prev.isSome && (match x.errs with | e :: _ => decide (e + 12 < err) | [] => false)
  if worse then
    let s := s.setTrunk t { x with errs := errs, nextCoef := r.prev, goesBack := true, prevCoef := none }
    let s := s.count Reg.DPD_REVERT_COUNT Reg.DPD_EVENT Fld.DPD_EVENT_CTR_SAT 1
    let s := s.raise Reg.DPD_EVENT (match t with | .tw => Fld.DPD_EVENT_REVERT_TW | .te => Fld.DPD_EVENT_REVERT_TE)
    s.setFld Reg.DPD_STATUS (pauseFld t) 16
  else if !r.learns then s.setTrunk t { x with errs := errs }
  else
    let (bits, s) := s.free
    let new := blend r.coef ls (s.fld Reg.DPD_CTL Fld.DPD_CTL_MU) bits
    s.setTrunk t { x with errs := errs, nextCoef := some new, goesBack := false }

/-- DPD_SOLVE: the solve for the last full frame ends, 200 µs after it (R240). -/
def execDpdSolve (t : Trx) (ls : List Word) (err : Int) (s : State) : Host.Outcome State Fault Refusal :=
  (s.when s.tdRuns fun s => s.fall (.dpd t) fun s =>
    match (s.trunk t).dpdRun with
    | some r => s.dpdSolve t r ls err
    | none => s).done

/-- DPD_CTL.RESET of a port: the identity at its next boundary (R241). -/
def State.dpdReset (s : State) (t : Trx) : State :=
  s.when (s.tdRuns && !s.linkIsDown .td) fun s => s.setTrunk t { s.trunk t with ident := true }

/-- RESET_TW. -/
def execDpdResetTw (s : State) : Host.Outcome State Fault Refusal :=
  (s.hostRow Reg.DPD_CTL false fun s => s.dpdReset .tw).done

/-- RESET_TE. -/
def execDpdResetTe (s : State) : Host.Outcome State Fault Refusal :=
  (s.hostRow Reg.DPD_CTL false fun s => s.dpdReset .te).done

/-! ### Transmission (R227 to R232, R265) -/

/-- The frame a port sends next: a TIME answer, else the oldest of the highest PRIO (R266). -/
def nextFrame (q : List TxFrame) : Option TxFrame :=
  let isTime (f : TxFrame) : Bool := match f.kind with | .time _ => true | _ => false
  match q.find? isTime with
  | some f => some f
  | none => q.find? fun f => f.prio == q.foldl (fun m g => max m g.prio) 0

/-- TX_GAP as it acts, in CK cycles (R231). -/
def State.txGap (s : State) (t : Trx) : Nat := usCk (max 4 (s.fld (Reg.TRX_TIMING t.idx) Fld.TRX_TIMING_TX_GAP))

/-- The elapsed time from which a held request of a port may start (R231, R265). -/
def State.txFrom (s : State) (t : Trx) : Nat :=
  let x := s.trunk t
  let gap := s.txGap t
  let yield_ := usCk 96
  let (after, idle) := match x.lastEnd with
    | some (c, own) => (c + gap + (if own then yield_ else 0), c + gap + yield_)
    | none => (0, 0)
  let wait := if t = .tw ∧ idle < x.quietAt + 1 then x.quietAt + yield_ else x.quietAt
  max after wait

/-- Whether nothing but time holds a request of a port (R231); from the cause that closes the bypass nothing is sent (R244). -/
def State.txAllowed (s : State) (t : Trx) : Bool :=
  s.trxOn t && s.rxState t == 1 && !s.bypassed && !s.ring.closing && s.linkReady t && !(s.trunk t).inReset

/-- The first chip boundary at or after elapsed time `c` (R222: a chip is 32 CK cycles). -/
def chipAt (c : Nat) : Nat := (c + 31) / 32 * 32

/-- CK cycles of a frame (R227). -/
def airTime (sf ncw : Nat) : Nat := 32 * (48 * 64 + 256 * 32 + (792 * ncw + 1) * (8 * 2 ^ sf))

/-- A message body with `n` bytes at offset `o` replaced. -/
def patch (b : List Byte) (o : Nat) (new : List Byte) : List Byte := b.take o ++ new ++ b.drop (o + new.length)

/-- The delay register of a port (R260). -/
def delayReg (t : Trx) : Nat := match t with | .tw => Reg.RING_DELAY_TW | .te => Reg.RING_DELAY_TE

/-! The signal a frame is sent as (R226, R227): the state holds its coded header and codewords, and these definitions say what goes out. -/

/-- A symbol: BPSK, a bit on the I branch; QPSK, a bit on each branch. Bit 0 is sent as +1, bit 1 as −1, over √2 for QPSK (R226). -/
inductive Symbol where
  | bpsk (b : Bool)
  | qpsk (i q : Bool)
  deriving DecidableEq, Repr

/-- The pilot. -/
def Symbol.pilot : Symbol := .qpsk false false

/-- QPSK symbols of bits, two a symbol. -/
def qpskSymbols : List Bool → List Symbol
  | b :: c :: bs => .qpsk b c :: qpskSymbols bs
  | _ => []

/-- A pilot before each group of 32 data symbols. -/
def withPilots (data : List Symbol) : List Symbol :=
  (List.range (data.length / 32)).flatMap fun i => Symbol.pilot :: (data.drop (32 * i)).take 32

/-- The symbols of every frame up to its reference instant, with their SF field: preamble and start delimiter (R226, R227). -/
def startSymbols : List (Nat × Symbol) :=
  List.replicate 32 (3, .bpsk false) ++ (List.range 16).map fun i => (3, .bpsk (delimiterWord.getLsbD (15 - i)))

/-- The symbols of a frame, each with the SF field of its part: preamble, start delimiter, coded header, payload with pilots and one more
pilot at its end (R226, R227). -/
def frameSymbols (sf : Nat) (hdr : List Byte) (cws : List (List Byte)) : List (Nat × Symbol) :=
  startSymbols ++ (hdr.flatMap byteBits).map (fun b => (2, .bpsk b)) ++
    (cws.flatMap fun c => withPilots (qpskSymbols (c.flatMap byteBits))).map (fun x => (sf, x)) ++ [(sf, Symbol.pilot)]

/-- What a frame's message holds that is known as it starts: DELAY of a CYCLE, TURN of a TIME answer, counted up to the reference instant
on elapsed time (R257, R260). -/
def State.startMsg (s : State) (t : Trx) (f : TxFrame) (refAt : Nat) : List Byte :=
  let m := readMsg f.msg
  match f.kind with
  | .cycle => { m with body := patch m.body 12 (wordBytes (s.reg (delayReg t))) }.bytes
  | .time c => { m with body := patch m.body 4 (leBytes 4 ((refAt - c) / 16)) }.bytes
  | _ => f.msg

/-- What it holds of TIME at its reference instant: RING_TIME and TB_VALID of a CYCLE (R257). -/
def refMsg (f : TxFrame) (time : BitVec 64) (tbv : Bool) : List Byte :=
  let m := readMsg f.msg
  match f.kind with
  | .cycle =>
    let b := patch m.body 4 (timeBytes time)
    { m with body := patch b 17 [byte (leAt b 17 1 / 2 * 2 + b2n tbv)] }.bytes
  | _ => f.msg

/-- The reference instant of the frame being sent, once it has come: TRX_TX_TIME and TX_TB_VALID, TX_STAMP, what the message says of it
(R230). -/
def State.refTake (s : State) (t : Trx) : State :=
  let x := s.trunk t
  match x.sending with
  | none => s
  | some f =>
    if x.stamped || decide (s.ck < x.refAt) then s
    else
      let (time, tbv) := s.stampAt x.refAt
      let f := { f with msg := refMsg f time tbv }
      let cws := match f.kind with | .cycle => codePayload x.sentSf f.msg | _ => x.sentCws
      let s := s.setTrunk t { x with sending := some f, stamped := true, sentHdr := codeHeader (stampHdr x.hdrBits (lo32 time)),
                                     sentCws := cws }
      let s := (s.setReg (Reg.TRX_TX_TIME_LO t.idx) (lo32 time)).setReg (Reg.TRX_TX_TIME_HI t.idx) (hi32 time)
      s.setFlag (Reg.TRX_STATUS t.idx) Fld.TRX_STATUS_TX_TB_VALID tbv

/-- What a port sends: its symbols, the code that spreads each (R223 to R225), and the predistortion set; what follows the delimiter is known
once the reference instant has given the header its stamp (R230). -/
def State.lineSymbols (s : State) (t : Trx) : List (Symbol × List Bool) × Vector Word 15 :=
  let x := (s.refTake t).trunk t
  let l := if x.sending.isNone then [] else if x.stamped then frameSymbols x.sentSf x.sentHdr x.sentCws else startSymbols
  (l.map fun p => (p.2, spreadCode p.1 s.opCode), x.sentCoef)

/-- A frame starts: its predistortion set, header and payload, coded as R227 and R249 give; the stamp follows at the reference instant. -/
def State.txBegin (s : State) (t : Trx) (f : TxFrame) : State :=
  let s := s.dpdBoundary t
  let x := s.trunk t
  let refAt := s.ck + sf64x48
  let msg := s.startMsg t f refAt
  let sf := f.sf.getD s.opSf
  let len := match f.kind with | .cut _ => f.len | _ => msg.length
  let ncw := (len + cwBytes sf - 1) / cwBytes sf
  let dst := if s.flag Reg.RING_TOPO (nbrKnownFld t) then s.fld Reg.RING_TOPO (nbrFld t) else 0x7F
  let h := buildHdr sf ncw len s.opCode f.prio s.nodeAddr dst x.hopSeq
  let s := s.setTrunk t { x with queue := x.queue.erase f, sending := some { f with msg }, hopSeq := x.hopSeq + 1,
                                 sendEnd := s.ck + airTime sf ncw, refAt := refAt, stamped := false, hdrBits := h, sentHdr := [],
                                 sentCws := codePayload sf msg, sentSf := sf, sentCoef := s.dpdSet t }
  (s.agc t false).setRx t 5

/-- TX_START: at the first chip boundary at which nothing holds the request; time passes up to it. -/
def execTxStart (t : Trx) (s : State) : Host.Outcome State Fault Refusal :=
  (match nextFrame (s.trunk t).queue with
   | none => s
   | some f => if s.txAllowed t then (s.passTo (chipAt (max s.ck (s.txFrom t)))).txBegin t f else s).done

/-- The receiver is blanked from elapsed time `from_`, the end of the last chip, for RX_BLANK (R231). -/
def State.blank (s : State) (t : Trx) (from_ : Nat) : State :=
  (s.setRx t 6).arm (.rxBlank t) (from_ - s.ck + usCk (max 2 (s.fld (Reg.TRX_TIMING t.idx) Fld.TRX_TIMING_RX_BLANK)))

/-- A transmission is cut off at the next chip: TX_CUT, nothing counted; the receiver is blanked after it (R231, R232). -/
def State.cutTx (s : State) (t : Trx) : State :=
  let s := s.refTake t
  match (s.trunk t).sending with
  | none => s
  | some f =>
    let s := s.setTrunk t { s.trunk t with sending := none, stamped := true, lastEnd := some (chipAt s.ck, true) }
    ((s.trxRaise t Fld.TRX_EVENT_TX_CUT).frameGone f).blank t (chipAt s.ck)

/-- A frame has been sent in full (R231, R240, R260, R271). While PAUSE counts, the adapter does not learn from it (R241). -/
def State.txDone (s : State) (t : Trx) (f : TxFrame) : State :=
  let x := s.trunk t
  let sentAt := pair64 (s.reg (Reg.TRX_TX_TIME_HI t.idx)) (s.reg (Reg.TRX_TX_TIME_LO t.idx))
  let echo := match f.kind with
    | .cycle => [(BitVec.ofNat 32 (leAt (readMsg f.msg).body 0 4), sentAt, s.ck + msCk 50)]
    | _ => []
  let p := s.fld Reg.DPD_STATUS (pauseFld t)
  let judged := s.adapts t && decide (x.sentCoef = x.coef)
  let run : DpdRun := { coef := x.coef, prev := if x.fresh && judged then x.prevCoef else none, learns := p == 0 }
  let s := s.setTrunk t { x with sending := none, lastEnd := some (s.ck, true), quietAt := s.ck, echoes := x.echoes ++ echo,
                                 fresh := x.fresh && !judged, dpdRun := if s.adapts t then some run else x.dpdRun }
  let s := (s.trxCount t Reg.TRX_TX_FRAME_COUNT).frameGone f
  let s := s.setFld Reg.DPD_STATUS (pauseFld t) (p - 1)
  let s := s.when (s.adapts t) fun s => s.arm (.dpd t) (usCk 200)
  s.blank t s.ck

/-- RX_BLANK_END. -/
def execRxBlankEnd (t : Trx) (s : State) : Host.Outcome State Fault Refusal :=
  (s.fall (.rxBlank t) fun s => s.when (s.rxState t == 6) fun s => s.setRx t 1).done

/-! ### Link readiness (R242, R267) -/

/-- A cause that closes the bypass stands. -/
def State.bypassCause (s : State) : Bool :=
  !s.tdRuns || s.inTether || !s.linkReady .tw || !s.linkReady .te || s.flag Reg.BD_BYPASS_CTL Fld.BD_BYPASS_CTL_BYPASS_FORCE

/-- A cause may have arisen that closes the bypass: transmissions are cut at once (R232, R244). -/
def State.bypassCheck (s : State) : State :=
  if s.on .trunk && !s.bypassed && !s.ring.closing && s.bypassCause then
    (({ s with ring := { s.ring with closing := true } }).cutTx .tw).cutTx .te
  else s

/-- LINK_READY as its conditions give it, with what its rise and fall bring. -/
def State.linkCheck (s : State) (t : Trx) : State :=
  let st := Reg.TRX_STATUS t.idx
  let ready := s.trxOn t && !s.limp && s.flag st Fld.TRX_STATUS_SELFTEST_OK
  if ready == s.linkReady t then s
  else if ready then
    let s := ((s.raise st Fld.TRX_STATUS_LINK_READY).trxRaise t Fld.TRX_EVENT_LINK_UP).forgetNbr t
    ((s.arm (.silent t) (secCk 1)).huntArm).breakCheck t
  else
    let s := (((s.lower st Fld.TRX_STATUS_LINK_READY).trxRaise t Fld.TRX_EVENT_LINK_DOWN).flush t).bypassCheck
    ((s.disarm (.silent t)).huntArm).breakCheck t

/-- EN of a port rises: the receiver runs and the self-test starts (R242). -/
def State.trxEnable (s : State) (t : Trx) : State :=
  let s := (s.raise (Reg.TRX_CTL t.idx) Fld.TRX_CTL_EN).lower (Reg.TRX_STATUS t.idx) Fld.TRX_STATUS_SELFTEST_OK
  ((s.setRx t 1).arm (.selftest t) (msCk 1)).setTrunk t { s.trunk t with quietAt := s.ck }

/-- TRX_ENABLE: EN is written from 0 to 1; the guard lock refuses it (R51). -/
def execTrxEnable (t : Trx) (s : State) : Host.Outcome State Fault Refusal :=
  (s.hostRow (Reg.TRX_CTL t.idx) (!s.trxOn t) fun s => (s.overLate (Reg.TRX_CTL t.idx) Fld.TRX_CTL_EN.mask).when
    (s.tdRuns && !s.trxOn t) fun s => s.trxEnable t).done

/-- SELFTEST_END. -/
def execSelftestEnd (t : Trx) (ok : Bool) (s : State) : Host.Outcome State Fault Refusal :=
  (s.fall (.selftest t) fun s =>
    if ok then (s.raise (Reg.TRX_STATUS t.idx) Fld.TRX_STATUS_SELFTEST_OK).linkCheck t
    else s.trxRaise t Fld.TRX_EVENT_SELFTEST_FAIL).done

/-- EN of a port falls: reception is dropped without a count, a transmission is cut, the link goes down (R232, R238, R242). -/
def State.trxDisable (s : State) (t : Trx) : State :=
  let s := (s.lower (Reg.TRX_CTL t.idx) Fld.TRX_CTL_EN).cutTx t
  let s := ((s.rxDrop t).disarm (.selftest t)).disarm (.rxBlank t)
  (s.setRx t 0).linkCheck t

/-- LINK_SILENT: no header for 1 s on a ready port (R242). -/
def execLinkSilent (t : Trx) (s : State) : Host.Outcome State Fault Refusal :=
  (s.fall (.silent t) fun s => s.when (s.linkReady t) fun s =>
    (((s.raise (Reg.TRX_STATUS t.idx) Fld.TRX_STATUS_LINK_SILENT).trxRaise t Fld.TRX_EVENT_LINK_SILENT)).breakCheck t).done

/-! ### The bypass (R243, R244, R268) -/

/-- BYPASSED of both ports, and what BD shows of the switches. -/
def State.setBypassed (s : State) (b : Bool) : State :=
  let s := (s.setFlag (Reg.TRX_STATUS 0) Fld.TRX_STATUS_BYPASSED b).setFlag (Reg.TRX_STATUS 1) Fld.TRX_STATUS_BYPASSED b
  (s.setFlag Reg.BD_STATUS Fld.BD_STATUS_BYPASS_CLOSED b).raise Reg.BD_EVENT Fld.BD_EVENT_BYPASS

/-- A port starts afresh as its bypass opens: SEARCH, delays and neighbour unknown (R244, R268); TX_GAP after the last frame stays (R231). -/
def State.portOpens (s : State) (t : Trx) : State :=
  let s := (s.rxDrop t).forgetNbr t
  let s := s.setTrunk t { s.trunk t with delays := [], echoes := [], missed := 0, quietAt := s.ck }
  (s.setReg (delayReg t) 0).setRx t 1

/-- Three periods without a CYCLE are counted from now (R258). -/
def State.armNoCycle (s : State) : State := s.arm .noCycle (msCk (3 * s.ring.opMs))

/-- BYPASS_OPENED. -/
def execBypassOpened (s : State) : Host.Outcome State Fault Refusal :=
  (s.when (s.tdRuns && s.bypassed && !s.bypassCause) fun s =>
    let s := s.setBypassed false
    let s := ((s.portOpens .tw).portOpens .te).setRole 0
    (s.armNoCycle.breakCheck .tw).breakCheck .te).done

/-- The switches close: transmissions are cut, queues discarded, the node is BYPASSED; no key waits for a decision any more (R232, R244,
R263, R267, R268). -/
def State.bypassClose (s : State) : State :=
  let s := (s.cutTx .tw).cutTx .te
  let s := (s.flush .tw).flush .te
  let s := s.ring.tentative.foldl (fun s e => s.dropKey (e.1, e.2.1)) s
  let s := ((s.setBypassed true).setRole 3).disarm .noCycle |>.disarm .election
  let s := { s with ring := { s.ring with masterKey := none, beMaster := false, higher := 0, closing := false, copy := none } }
  (s.breakCheck .tw).breakCheck .te

/-! ### TRUNK on and off, resets -/

/-- Deadlines of the trunk. -/
def State.trunkDisarm (s : State) : State :=
  let ts := s.timers.filter fun p => match p.1 with
    | .selftest _ | .acq _ | .rxBlank _ | .silent _ | .dpd _ | .noCycle | .election | .codeHunt | .dupEntry _ => false
    | .funcReset f => !(f == .tw || f == .te || f == .dec || f == .ring)
    | _ => true
  { s with timers := ts }

/-- TRUNK has turned on: everything fresh, the bypass closed (R38, R243). -/
def State.trunkUp (s : State) : State :=
  let s := { s.trunkDisarm with trunks := Vector.replicate 2 {}, ring := {} }
  let s := (s.raise (Reg.TRX_STATUS 0) Fld.TRX_STATUS_BYPASSED).raise (Reg.TRX_STATUS 1) Fld.TRX_STATUS_BYPASSED
  s.setRole 3

/-- TRUNK turns off: the bypass closes and all is lost (R38, R232, R243). -/
def State.trunkOff (s : State) : State :=
  let s := { s.trunkDisarm with trunks := Vector.replicate 2 {}, ring := {} }
  if s.flag Reg.BD_STATUS Fld.BD_STATUS_BYPASS_CLOSED then s
  else (s.raise Reg.BD_STATUS Fld.BD_STATUS_BYPASS_CLOSED).raise Reg.BD_EVENT Fld.BD_EVENT_BYPASS

/-- TRUNK switches off: transmissions are cut, and TX_CUT reaches IRQ_STATUS before the domain's registers go (R52, R232). -/
def State.trunkShut (s : State) : State :=
  s.when (s.on .trunk) fun s => (((s.cutTx .tw).cutTx .te).settle.trunkOff).domainDown .trunk

/-- A LAST_GASP waits on a port or is being sent (R273). -/
def State.gaspWaits (s : State) : Bool :=
  s.on .trunk && s.trunks.toList.any fun x =>
    x.queue.any (fun f => f.kind == .gasp) || (match x.sending with | some f => f.kind == .gasp | none => false)

/-- During a power failure TRUNK turns off once LAST_GASP has left both ports or been discarded (R312, step 5); with Tether armed
the switch-over turns it off (R293). -/
def State.gaspCheck (s : State) : State :=
  s.when (s.pwr.pfwActive && !s.gaspWaits && !s.flag Reg.BD_STATUS Fld.BD_STATUS_TETHER_ARMED) State.trunkShut

/-- TX_END. -/
def execTxEnd (t : Trx) (s : State) : Host.Outcome State Fault Refusal :=
  (match (s.trunk t).sending with
   | some f =>
     let s := (s.passTo (s.trunk t).sendEnd).refTake t
     (s.txDone t ((s.trunk t).sending.getD f)).gaspCheck
   | none => s).done

/-- BYPASS_CLOSED: the switches, which BD works without CK (R17), have closed for a cause that stands or has stood. -/
def execBypassClosed (s : State) : Host.Outcome State Fault Refusal :=
  (s.when (s.on .trunk && !s.bypassed && (s.ring.closing || s.bypassCause)) fun s => s.bypassClose.gaspCheck).done

/-- TRX_DISABLE. -/
def execTrxDisable (t : Trx) (s : State) : Host.Outcome State Fault Refusal :=
  (s.hostRow (Reg.TRX_CTL t.idx) (s.trxOn t) fun s => (s.overLate (Reg.TRX_CTL t.idx) Fld.TRX_CTL_EN.mask).when (s.trxOn t) fun s =>
    (s.trxDisable t).gaspCheck).done

/-- The registers of a port that show what it last received or sent. -/
def trxWorking (i : Nat) : List Nat :=
  [Reg.TRX_LEVEL i, Reg.TRX_SNR i, Reg.TRX_RX_TIME_LO i, Reg.TRX_RX_TIME_HI i, Reg.TRX_TX_TIME_LO i, Reg.TRX_TX_TIME_HI i]

/-- The per-function reset of a port begins, and a self-test in progress ends without a verdict; LINK_READY, SELFTEST_OK and the bypass state stay, and the silence of R242 is counted afresh
(R298, R299); a port that was broken by silence alone is so no longer (R269). -/
def State.trxReset (s : State) (t : Trx) : State :=
  let st := Reg.TRX_STATUS t.idx
  let s := ((s.cutTx t).rxDrop t).flush t
  let s := (s.trunk t).frames.foldl (fun s j => s.dropJob t j) s
  let keep := Fld.TRX_STATUS_LINK_READY.mask ||| Fld.TRX_STATUS_SELFTEST_OK.mask ||| Fld.TRX_STATUS_BYPASSED.mask |||
    Fld.TRX_STATUS_RX_STATE.mask
  let s := ((trxWorking t.idx).foldl (fun s a => s.setReg a 0) s).setReg st (s.reg st &&& keep)
  let s := s.when (s.linkReady t) fun s => s.arm (.silent t) (secCk 1)
  let s := s.setTrunk t { s.trunk t with inReset := true, frames := [] }
  (((s.disarm (.rxBlank t)).disarm (.selftest t)).when (s.trxOn t) fun s => s.setRx t 1).breakCheck t

/-- Frames in PAYLOAD on both ports are dropped and counted at a decoder reset (R299). -/
def State.decReset (s : State) : State :=
  iterate 2 (fun i s =>
    let t : Trx := if i = 0 then .tw else .te
    let x := s.trunk t
    let lost := x.job.toList ++ x.frames
    let s := s.setTrunk t { x with job := none, frames := [] }
    let s := lost.foldl (fun s j => s.dropJob t j) s
    let s := s.when (s.rxState t == 4) fun s => (s.agc t false).setRx t 1
    if lost.isEmpty then s else s.ringCount Reg.RING_DROP_COUNT lost.length)
    (s.lower Reg.DEC_STATUS Fld.DEC_STATUS_LAST_ITER)

end Sys2Proof.Machine
end

