-- ==== Sys2Proof/Machine/RingHost.lean ====
section
/-! DEFINITION. The ring link's host side, its LAST_GASP and its per-function reset (spec/11, R271, R273; spec/13, R299). -/

namespace Sys2Proof.Machine

/-! ### The host's message (R271) -/

/-- Whether a SEND is refused. -/
def State.ringSendRefused (s : State) : Bool :=
  let typ := s.fld Reg.RING_TX_HDR Fld.RING_TX_HDR_TYPE
  s.flag Reg.RING_TX_STATUS Fld.RING_TX_STATUS_BUSY || !(typ == 3 || typ == 4 || typ == 8) || s.nodeAddr == 0 || s.bypassed ||
    s.ring.inReset || decide (maxMessage s.opSf < s.fld Reg.RING_TX_LEN Fld.RING_TX_LEN_BODY_LEN + 16)

/-- The bytes of RING_TX_DATA. -/
def State.ringTxBody (s : State) : List Byte :=
  ((List.range 116).flatMap fun w => wordBytes (s.reg (Reg.RING_TX_DATA w))).take (s.fld Reg.RING_TX_LEN Fld.RING_TX_LEN_BODY_LEN)

/-- The staged message with its number (R252, R256). -/
def State.ringTxMsg (s : State) (seq : BitVec 16) : Msg :=
  let h := s.reg Reg.RING_TX_HDR
  let pos := Fld.RING_TX_HDR_POS.on h
  { typ := Fld.RING_TX_HDR_TYPE.get h, flags := if pos then 2 else 0, src := s.nodeAddr,
    dst := if pos then 0 else Fld.RING_TX_HDR_DST.get h, seq,
    target := if pos then Fld.RING_TX_HDR_TARGET_HOP.get h else 0, body := s.ringTxBody }

/-- PRIO of the staged message: 2 for the OD types, 0 or 1 for MAILBOX. -/
def State.ringTxPrio (s : State) : Nat :=
  if s.fld Reg.RING_TX_HDR Fld.RING_TX_HDR_TYPE = 8 then min 1 (s.fld Reg.RING_TX_HDR Fld.RING_TX_HDR_PRIO) else 2

/-- RING_TX_CTL.SEND. -/
def State.ringSend (s : State) : State :=
  if !s.tdRuns then s
  else if s.ringSendRefused then
    (s.raise Reg.RING_TX_STATUS Fld.RING_TX_STATUS_ERR).raise Reg.RING_EVENT Fld.RING_EVENT_TX_ERR
  else
    let pos := s.flag Reg.RING_TX_HDR Fld.RING_TX_HDR_POS
    let (seq, s) := s.takeSeq
    let m := s.ringTxMsg seq
    let prio := s.ringTxPrio
    let s := { s with ring := { s.ring with hostLeft := if pos then 1 else 2 } }
    let s := (s.setFld Reg.RING_TX_STATUS Fld.RING_TX_STATUS_SEQ seq.toNat).lower Reg.RING_TX_STATUS Fld.RING_TX_STATUS_ERR
    let s := s.raise Reg.RING_TX_STATUS Fld.RING_TX_STATUS_BUSY
    if pos then s.sendOn (if s.flag Reg.RING_TX_HDR Fld.RING_TX_HDR_DIR then .te else .tw) .host prio m
    else (s.sendOn .tw .host prio m).sendOn .te .host prio m

/-- RING_SEND. -/
def execRingSend (s : State) : Host.Outcome State Fault Refusal :=
  (s.hostRow Reg.RING_TX_CTL false State.ringSend).done

/-- RING_RX_CTL.POP removes the head of the receive queue. -/
def State.ringPop (s : State) : State :=
  s.when s.tdRuns fun s => { s with ring := { s.ring with rxq := s.ring.rxq.drop 1 } }

/-- POP. -/
def execRingPop (s : State) : Host.Outcome State Fault Refusal :=
  (s.hostRow Reg.RING_RX_CTL false State.ringPop).done

/-! ### LAST_GASP (R273) -/

/-- Entries the log holds (log entry 12). -/
def State.logHeld (s : State) : Nat := min (s.reg Reg.LOG_WP).toNat 4096

/-- The bytes of the `i`-th entry counted back from the newest; empty beyond what the log holds. -/
def State.logBack (s : State) (i : Nat) : List Byte :=
  if i < s.logHeld then (s.logSlot (((s.reg Reg.LOG_WP).toNat - 1 - i) % 4096)).flatMap wordBytes else []

/-- The body of LAST_GASP. -/
def State.gaspBody (s : State) : List Byte :=
  [byte 1, byte (min 8 s.logHeld), byte s.pwrState, byte (b2n s.tbValid)] ++ s.stamp ++
    (List.range 8).flatMap fun i => sliceBytes (s.logBack i) 0 32

/-- The power-fail warning reaches the ring link: queues discarded, LAST_GASP on both ports. -/
def State.lastGasp (s : State) : State :=
  if !s.tdRuns then s
  else
    let s := (s.flush .tw).flush .te
    s.when (!s.ring.inReset) fun s => s.sendBoth .gasp 0x09 0x7F 3 s.gaspBody

/-! ### Operating values and the per-function reset (R259, R299) -/

/-- CYCLE_MS as it acts: 20 to 1000. -/
def cycleMs (x : Nat) : Nat := clampNat 20 1000 x

/-- SF, code index and CYCLE_MS configured in RING_CFG. -/
def State.cfgValues (s : State) : Nat × Nat × Nat :=
  (s.fld Reg.RING_CFG Fld.RING_CFG_SF, s.fld Reg.RING_CFG Fld.RING_CFG_CODE,
   cycleMs (s.fld Reg.RING_CFG Fld.RING_CFG_CYCLE_MS))

/-- Queued messages longer than the largest at the SF in force cannot be sent: they are dropped and counted (R266). -/
def State.dropLong (s : State) (t : Trx) : State :=
  let long := (s.trunk t).queue.filter fun f => decide (maxMessage s.opSf < f.msg.length) && f.sf.isNone
  if long.isEmpty then s
  else
    let s := s.setTrunk t { s.trunk t with queue := (s.trunk t).queue.filter fun f => !long.contains f }
    long.foldl (fun s f => s.frameGone f) (s.ringCount Reg.RING_DROP_COUNT long.length)

/-- SF, code index and period become operating; CONFIG_CHANGE if one of them changes. -/
def State.operate (s : State) (v : Nat × Nat × Nat) : State :=
  let (sf, c, ms) := v
  let changed := s.opSf != sf || s.opCode != c || s.ring.opMs != ms
  let s := (s.setFld Reg.RING_STATUS Fld.RING_STATUS_SF_OP sf).setFld Reg.RING_STATUS Fld.RING_STATUS_CODE_OP c
  let s := { s with ring := { s.ring with opMs := ms } }
  let s := (s.dropLong .tw).dropLong .te
  s.when changed fun s => s.raise Reg.RING_EVENT Fld.RING_EVENT_CONFIG_CHANGE

/-- A port's hop measurements start afresh. -/
def State.hopFresh (s : State) (t : Trx) : State :=
  (s.setTrunk t { s.trunk t with hopSeen := none, delays := [], echoes := [], missed := 0 }).setReg (delayReg t) 0

/-- Registers of the ring link that its reset returns to their reset values: status and staged message. -/
def ringWorking : List Nat :=
  [Reg.RING_TOPO, Reg.RING_CYCLE_NO, Reg.RING_TIME_ERR, Reg.RING_STEER, Reg.RING_TX_HDR, Reg.RING_TX_LEN] ++
    (List.range 116).map Reg.RING_TX_DATA

/-- No frame of port `t` is forwarded by cut-through any more. -/
def State.cutStop (s : State) (t : Trx) : State :=
  let x := s.trunk t
  let off (j : DecJob) : DecJob := { j with fwd := false }
  s.setTrunk t { x with job := x.job.map off, frames := x.frames.map off }

/-- The per-function reset of the ring link begins. A frame that is being forwarded by cut-through gets no further codeword: what of it is being
sent goes on with zeros for the others (R264, R299; log entry 52). -/
def State.ringReset (s : State) : State :=
  let pending := s.flag Reg.RING_TX_STATUS Fld.RING_TX_STATUS_BUSY
  let (w, e) := (s.flag Reg.RING_STATUS Fld.RING_STATUS_BREAK_TW, s.flag Reg.RING_STATUS Fld.RING_STATUS_BREAK_TE)
  let s := { s with ring := { msgSeq := s.ring.msgSeq, own := s.ring.own, closing := s.ring.closing, inReset := true },
                    timers := s.timers.filter fun p => match p.1 with
                      | .noCycle | .election | .dupEntry _ => false
                      | _ => true }
  let s := (((s.flush .tw).flush .te).cutStop .tw |>.cutStop .te).closeTrunk
  let s := ringWorking.foldl (fun s a => s.setReg a (resetOf s.fuses a)) s
  let s := s.setReg Reg.RING_TX_STATUS (if pending then Fld.RING_TX_STATUS_ERR.put 1 else 0)
  let role := s.ringRole
  let s := s.setReg Reg.RING_STATUS (Fld.RING_STATUS_ROLE.set 0 role)
  let s := (s.setFlag Reg.RING_STATUS Fld.RING_STATUS_BREAK_TW w).setFlag Reg.RING_STATUS Fld.RING_STATUS_BREAK_TE e
  let (sf, c, ms) := s.cfgValues
  let s := (s.setFld Reg.RING_STATUS Fld.RING_STATUS_SF_OP sf).setFld Reg.RING_STATUS Fld.RING_STATUS_CODE_OP c
  let s := { s with ring := { s.ring with opMs := ms } }
  let s := s.setRole (if s.bypassed then 3 else 0)
  let s := s.when (!s.bypassed) fun s => s.armNoCycle
  ((((s.hopFresh .tw).hopFresh .te).huntArm).breakCheck .tw).breakCheck .te

end Sys2Proof.Machine
end

