-- ==== Sys2Proof/Machine/Domains.lean ====
section
/-! DEFINITION. Each power domain off and on: what it loses, what it starts from (spec/01, R18; spec/02, R38; spec/12, R281,
R282, R289, R291). -/

namespace Sys2Proof.Machine

/-! ### The MD island's copies (R291) -/

/-- Copies of the excitation of group 0, taken while EXCITE still holds it (log entry 13). -/
def State.copyExc (s : State) : State :=
  if !s.on .excite then s
  else { s with tether := { s.tether with excMode := s.fld (Reg.EXC_CTL 0) Fld.EXC_CTL_MODE,
                                          excLevel := s.fld (Reg.EXC_CTL 0) Fld.EXC_CTL_LEVEL } }

/-- The copies of R291, taken while MEAS is on. DESIGN CHOICE, log entry 70: with S4's trim bank go the instant it entered force and
CAL_MAXAGE, from which the island forms CALSTALE (R71, R292). -/
def State.copyTether (s : State) : State :=
  if !s.on .meas then s
  else
    let s := s.copyExc
    { s with tether := { s.tether with gain := s.chanGain s.tetherCh, trim := s.trimInForce 4, period := s.reg Reg.MAINS_PERIOD,
                                       trimSince := (s.slice 4).trimSince, maxAge := s.fld Reg.CAL_MAXAGE Fld.CAL_MAXAGE_SECONDS } }

/-! ### Off -/

/-- What CORE loses beside its registers (R38, R204): the spool SRAM, latches, sessions, lanes, the guard's references. A late write
that another die holds stays and goes in force at its boundary (R15). DESIGN CHOICE, log entry 87: the pair latches are 0 when CORE is on again (R37). DESIGN CHOICE, log entry 83: of a restore that waits for its frame boundary the port records and the end are lost with CORE,
and the slice records, which MD holds, still go in force (R122). -/
def State.coreLost (s : State) : State :=
  let s := (s.laneClear).odLost
  { s with sram := [], spoolSet := Vector.replicate 4 (0, 4), spoolRst := Vector.replicate 4 false, seqLoop := 0,
           latches := [], guardKey := none, commitReq := false, commitRun := false, refCrc := Vector.replicate 7 0, cal := {} }

/-- Ports of loop domain `d` (R126); P0 stays if its island holds it (R291), its modem silent until Tether mode (R168, R169). DESIGN
CHOICE, log entry 83: the block held so keeps a staged trim too (R117). -/
def State.loopLost (s : State) (d : Domain) : State :=
  let s := s.when (d == .loopA && s.p0Held) fun s => ((s.modemStop 0).modemDeaf 0).toneClose 0
  let s := iterate 16 (fun n s => s.when (portDomain n == d && !(n == 0 && s.p0Held)) fun s => s.portOff n) s
  iterate 4 (fun i s => s.when (ldDomain i == d) fun s => (s.disarm (.bgCheck i)).setKeeper i {}) s

/-- A domain turns off; without CORE no modem outside Tether mode transmits (R168). -/
def State.domainOff (s : State) (d : Domain) : State :=
  if !s.on d then s
  else match d with
    | .core => ((iterate 16 (fun n s => s.when (s.on (portDomain n)) fun s => s.modemCut n) s).corePadLatch).coreLost.domainDown .core
    | .meas => s.copyTether.measClear.domainDown .meas
    | .excite => { (s.copyExc).refStop with excMode := Vector.replicate 4 0 }.domainDown .excite
    | .trunk => s.trunkShut
    | .loopA => ((s.loopLost .loopA).domainDown .loopA).armTether
    | .loopB => (s.loopLost .loopB).domainDown .loopB
    | .aon => s

/-- The entry order of R282. -/
def offOrder : List Domain := [.trunk, .loopB, .loopA, .excite, .meas, .core]

/-- The switched domains outside a set turn off, in the entry order. -/
def State.turnOff (s : State) (set : Nat) : State :=
  offOrder.foldl (fun s d => if set.testBit d.bit then s else s.domainOff d) s

/-! ### On -/

/-- A LOOP domain powers up: the bit grid starts unless another loop die or the LD0 island keeps it (R133). -/
def State.gridStart (s : State) : State := s.when (!s.on .loopA && !s.on .loopB && !s.islandOn) fun s => { s with gridAt := s.ck }

/-- A domain turns on: its registers at reset values, its function afresh. -/
def State.domainOn (s : State) (d : Domain) : State :=
  if s.on d then s
  else match d with
    | .core => { s.domainUp .core with sramEpoch := s.sramEpoch + 1, wdtFrom := s.ck, tick := 0 }
    | .meas => (s.domainUp .meas).measUp.refStart
    | .excite => ({ s.domainUp .excite with excMode := Vector.replicate 4 0 }).refStart
    | .trunk => (s.domainUp .trunk).trunkUp
    | .loopA => iterate 8 (fun n s => if n == 0 && s.p0Held then s.setPort 0 { s.port 0 with dark := false } else s.portFresh n)
        (((s.gridStart.domainUp .loopA).setKeeper 0 {}).setKeeper 1 {})
    | .loopB => iterate 8 (fun i s => s.portFresh (8 + i)) (((s.gridStart.domainUp .loopB).setKeeper 2 {}).setKeeper 3 {})
    | .aon => s

/-- The wake order of R289. -/
def onOrder : List Domain := [.core, .meas, .excite, .loopA, .loopB, .trunk]

/-- The domains of a set that are off, in the wake order. -/
def State.toTurnOn (s : State) (set : Nat) : List Domain := onOrder.filter fun d => set.testBit d.bit && !s.on d

/-- They turn on. -/
def State.turnOn (s : State) (set : Nat) : State := (s.toTurnOn set).foldl (fun s d => s.domainOn d) s

/-- The switched domains that are on, as a set. -/
def State.onSet (s : State) : Nat := s.fld Reg.PWR_STATUS Fld.PWR_STATUS_ON % 64

/-- The regulator pages no longer needed turn off, the highest first (R282, R286). -/
def State.pagesOff (s : State) : State :=
  [2, 1, 0].foldl (fun s p =>
    let needed := if p = 0 then s.onSet != 0 else if p = 1 then s.on .meas || s.on .excite else s.on .trunk
    if needed || !s.pageManaged p then s else s.pageOff p) s

/-! ### The clock (R19, R276) -/

/-- HIB_DIV as it acts: the exponent k of the step 8·2^k. -/
def State.hibStep (s : State) : Nat := min 4 (s.fld Reg.PWR_WAKE_CFG Fld.PWR_WAKE_CFG_HIB_DIV)

/-- CK becomes the source, or the limp oscillator, divided by 8·2^k; a PLL that stops has no reference to change back (R278). -/
def State.divide (s : State) (k : Nat) (limp : Bool) : State :=
  let s := { s with pwr := { s.pwr with divisor := 8 * 2 ^ k, xtalBack := false } }
  let s := (s.setFld Reg.CLK_STATUS Fld.CLK_STATUS_DIV k).lower Reg.CLK_STATUS Fld.CLK_STATUS_PLL_LOCK
  s.setFld Reg.CLK_STATUS Fld.CLK_STATUS_SRC (if limp then 3 else 1)

/-- The PLL is locked to the source, or to the limp oscillator. -/
def State.pllOn (s : State) (limp : Bool) : State :=
  let s := { s with pwr := { s.pwr with divisor := 0 } }
  let s := (s.setFld Reg.CLK_STATUS Fld.CLK_STATUS_DIV 7).raise Reg.CLK_STATUS Fld.CLK_STATUS_PLL_LOCK
  s.setFld Reg.CLK_STATUS Fld.CLK_STATUS_SRC (if limp then 2 else 0)

/-- Both ports' readiness follows the clock (R23). -/
def State.linksFollow (s : State) : State := s.when s.tdRuns fun s => (s.linkCheck .tw).linkCheck .te

/-- With no switched domain on, the PLL stops (R19, R282). -/
def State.clockDown (s : State) : State :=
  if s.onSet != 0 then s
  else
    let stop := s.flag Reg.PWR_WAKE_CFG Fld.PWR_WAKE_CFG_HIB_XTAL_OFF
    let s := { s with pwr := { s.pwr with xtalOff := stop } }
    let s := s.divide s.hibStep (stop || s.limp)
    s.when stop fun s => s.lower Reg.CLK_STATUS Fld.CLK_STATUS_XTAL_OK

/-! ### The straps (R275, R285) -/

/-- What the PLL multiplies its reference by to give 196.608 MHz: 16 for a 12.288 MHz source, 8 otherwise (R275). -/
def State.pllFactor (s : State) : Nat := if !s.limp && s.fld Reg.CLK_STATUS Fld.CLK_STATUS_XSEL == 2 then 16 else 8

/-- The hardware divisor of the step /D (R275). -/
def State.hwDivisor (s : State) (d : Nat) : Nat := if !s.limp && s.fld Reg.CLK_STATUS Fld.CLK_STATUS_XSEL == 2 then d / 2 else d

/-- SCL's divisor: of CK while the PLL is locked to the source, 492 for 400 kHz where RATE asks for it, else 1968 for 100 kHz; otherwise
of the source or the limp oscillator, which gives 99.90 kHz (R285). DESIGN CHOICE, log entry 10: the rule gives no divisor of CK for 100
kHz. -/
def State.sclDivisor (s : State) : Nat :=
  if s.flag Reg.CLK_STATUS Fld.CLK_STATUS_PLL_LOCK && !s.limp then
    (if s.flag Reg.PWR_REG_CFG Fld.PWR_REG_CFG_RATE then 492 else 1968)
  else s.hwDivisor 246

/-! ### Test unlock (R315) -/

/-- Whether test unlock is in force. -/
def State.unlocked (s : State) : Bool := s.reg Reg.TEST_UNLOCK == 1

/-- Test unlock starts or ends, with its log entry. -/
def State.setUnlocked (s : State) (b : Bool) : State :=
  if s.unlocked = b then s
  else (s.setReg Reg.TEST_UNLOCK (BitVec.ofNat 32 (b2n b))).log .notice 0x0090 0x00 0 (BitVec.ofNat 32 (b2n b)) 0 0

/-! ### Global resets (R301, R302, R309) -/

/-- RESET_CAUSE where the causes of the set `all` are present, bit 0 POR, 1 RESETn, 2 watchdog, 3 software: ALL shows each, CAUSE the
first of them (R301). -/
def causeWord (all : Nat) : Word :=
  Fld.RESET_CAUSE_ALL.put all ||| Fld.RESET_CAUSE_CAUSE.put (((List.range 4).find? fun i => all.testBit i).getD 3 + 1)

/-- The causes present in a global reset with cause `c` (1 POR, 2 RESETn, 3 watchdog, 4 software): `c`, those of a global reset in this
very cycle, and a RESETn that is held low (R301). -/
def State.resetCauses (s : State) (c : Nat) : Nat :=
  let now := if s.pwr.resetAt = some s.ck then s.fld Reg.RESET_CAUSE Fld.RESET_CAUSE_ALL else 0
  (2 ^ (c - 1) ||| now) ||| (if s.pwr.resetLow = true then 2 else 0)

/-- Registers a global reset other than POR leaves: the log's pointers and LOG_LOST. -/
def resetKeeps : List Nat := [Reg.LOG_WP, Reg.LOG_RP, Reg.LOG_LOST]

/-- The part with its switched domains off and every register at its reset value; `c` is the cause (R302), `xsel` the straps (R275). -/
def State.resetBase (s : State) (c xsel : Nat) : State :=
  let por := c == 1
  let keep := if por then [] else s.regs.filter fun p => resetKeeps.contains p.1
  let s' : State :=
    { pending := s.pending, fuses := s.fuses, ck := s.ck, sramEpoch := s.sramEpoch + 1, freeN := s.freeN, testEn := s.testEn,
      hostData := s.hostData, hostStat := s.hostStat, regs := keep, od := { keys := if por then Vector.replicate 4 [] else s.od.keys,
                                                                            drawn := s.od.drawn },
      timeAt := s.ck / 16, logMem := if por then [] else s.logMem, logSeq := if por then 0 else s.logSeq,
      pwr := { pageOn := Vector.replicate 3 false, pageInit := Vector.replicate 3 false, voutMode := s.pwr.voutMode,
               resetLow := s.pwr.resetLow, resetAt := some s.ck, holdupAt := some s.ck, latched := oneBit 6, vio := s.pwr.vio } }
  let s' := (s'.setReg Reg.RESET_CAUSE (causeWord (s.resetCauses c))).setFld Reg.PWR_STATUS Fld.PWR_STATUS_ON 0x40
  (s'.setFld Reg.CLK_STATUS Fld.CLK_STATUS_XSEL xsel).divide s'.hibStep false

/-- TEST_EN as a global reset finds it: high if it has not fallen, else a level the board gives, free (R315; log entry 8). -/
def State.testLevel (s : State) : State :=
  let (x, s) := s.free
  { s with testEn := s.testEn || x.getLsbD 0 }

/-- A global reset up to the start of its wake (R302, R309); `xsel` are the straps in force after it. -/
def State.resetTo (s : State) (c xsel : Nat) : State :=
  let s := ((s.testLevel.setUnlocked false).resetBase c xsel).logVerify
  s.log .notice 0x0001 0x00 0 (s.reg Reg.RESET_CAUSE) 0 0

/-- A global reset that keeps the straps sampled at power-on (R275). -/
def State.globalReset (s : State) (c : Nat) : State := s.resetTo c (s.fld Reg.CLK_STATUS Fld.CLK_STATUS_XSEL)

end Sys2Proof.Machine
end

