-- ==== Sys2Proof/Machine/PowerSeq.lean ====
section
/-! DEFINITION. The power manager's sequences (spec/12, R281, R282, R284 to R290): entry to STANDBY and HIBERNATE, PWR_RUN_SET,
the wake with its failures, the regulator pages, pads, wake sources. -/

namespace Sys2Proof.Machine

/-! ### Requests refused (R18, R281, R282) -/

/-- REQ_REFUSED. -/
def State.reqRefused (s : State) : State := s.raise Reg.PWR_EVENT Fld.PWR_EVENT_REQ_REFUSED

/-- A set that names EXCITE without MEAS (R18). -/
def breaksR18 (set : Nat) : Bool := set.testBit 2 && !set.testBit 1

/-! ### A change of VCORE (R287) -/

/-- A regulator fault is reported: event and log entry of a page. -/
def State.regFault (s : State) (p : Nat) (status : Word) : State :=
  (s.raise Reg.PWR_EVENT Fld.PWR_EVENT_REG_FAULT).log .error 0x0072 0x60 (p + 1) (BitVec.ofNat 32 p) status 0

/-- A change of VCORE has failed: the value in force is sent once more. A log entry for which no STATUS_WORD has been read carries a free
one (log entry 8). -/
def State.vcoreBack (s : State) (st : Option Word) : State :=
  let s := s.onBus (s.pwr.bus ++ [s.voutWrite s.pwr.vcoreMv])
  match st with
  | some w => s.regFault 0 w
  | none => let (w, s) := s.free; s.regFault 0 (w &&& 0xFFFF)

/-- Whether the acknowledgement comes from the PGOOD pin, not from STATUS_WORD: PWR_REG_CFG.ACK_SRC (R286). -/
def State.ackPgood (s : State) : Bool := s.flag Reg.PWR_REG_CFG Fld.PWR_REG_CFG_ACK_SRC

/-- The fault bits of a STATUS_WORD that are set: VOUT_OV, IOUT_OC, VIN_UV, TEMPERATURE (R286). -/
def faultBits (w : Word) : Word := w &&& 0x3C

/-- Whether a STATUS_WORD acknowledges: POWER_GOOD#, VOUT and OFF all 0, and no fault (R286). -/
def statusGood (w : Word) : Bool := (w &&& 0x8840) == 0 && faultBits w == 0

/-- What the looks at a change of VCORE show, with the last STATUS_WORD read. -/
inductive VcoreEnd where
  /-- Acknowledged, READ_VOUT within 15 mV of the request: its word. -/
  | good (vout : Nat)
  /-- No look has ended it. -/
  | more (status : Option Word)
  /-- The deadline, or a fault that STATUS_WORD shows. -/
  | bad (status : Option Word)
  /-- A PMBus failure. -/
  | bus (status : Option Word)
  deriving DecidableEq, Repr

/-- Whether a READ_VOUT lies within 15 mV of the request in force (R287). -/
def State.voutNear (s : State) (w : Nat) : Bool :=
  let (n, d) := voutRead (s.voutModeOf 0) w
  decide ((n - (s.vcoreReq : Int) * d).natAbs ≤ 15 * d)

/-- The wait for the acknowledgement of a change of VCORE, look by look (R286, R287). -/
def State.vcoreWait (s : State) (last : Option Word) : List VcorePoll → VcoreEnd
  | [] => .more last
  | x :: xs =>
    let look (last : Option Word) (ack : Bool) : VcoreEnd :=
      if !ack then s.vcoreWait last xs
      else match s.pmbusData 0x8B 2 x.vout with
        | none => .bus last
        | some v => if s.voutNear v then .good v else s.vcoreWait last xs
    if s.ackPgood then look last x.pgood
    else match s.pmbusData 0x79 2 x.status with
      | none => .bus last
      | some n =>
        let st := BitVec.ofNat 32 n
        if faultBits st != 0 then .bad (some st) else look (some st) (statusGood st)

/-- No change of VCORE is in progress any more. -/
def State.vcoreOver (s : State) : State := { s with pwr := { s.pwr with vcoreNow := none } }.disarm .vcoreAck

/-- A change of VCORE in progress fails (R287). -/
def State.vcoreFail (s : State) : State :=
  match s.pwr.vcoreNow with
  | none => s
  | some (st, _) => s.vcoreOver.vcoreBack st

/-- What looks at a change of VCORE in progress bring about; each read of STATUS_WORD is over with its look (R285, R287). -/
def State.vcoreSettle (s : State) (pgood : Bool) : VcoreEnd → State
  | .good w =>
    let (n, d) := voutRead (s.voutModeOf 0) w
    let (mv, s) := s.divFree n d
    { s with pwr := { s.pwr with vcoreMv := s.vcoreReq } }.vcoreOver.setFld Reg.PWR_VCORE Fld.PWR_VCORE_READ_MV (min 0xFFFF mv.toNat)
  | .more st => { s with pwr := { s.pwr with vcoreNow := some (st, pgood), busAt := s.pwr.bus.length, busRetry := false } }
  | .bad st => s.vcoreOver.vcoreBack st
  | .bus st => (s.raise Reg.PWR_EVENT Fld.PWR_EVENT_PMBUS_ERR).vcoreOver.vcoreBack st

/-! ### Entry (R282, R283) -/

/-- The regular and injected sequences stop, for STANDBY, or the conversions of STANDBY for the wake (R283). -/
def State.standbyStop (s : State) : State :=
  s.when (s.on .meas) State.seqClear

/-- BUSY and the sequence end. -/
def State.seqOver (s : State) : State :=
  ({ s with pwr := { s.pwr with wake := none, busRetry := false } }.lower Reg.PWR_STATUS Fld.PWR_STATUS_BUSY).disarm .pageAck |>.disarm
    .pllLock |>.disarm .wakeRetry

/-- A PWR_RUN_SET sequence gives way to an entry, and any sequence to a power failure: the page it is turning on counts as on, for the entry to
turn off (R281, R282, R290; log entry 71). A change of VCORE in progress ends there without a verdict (the model's choice: log entry 58). -/
def State.seqDrop (s : State) : State :=
  let s := s.vcoreOver
  match s.pwr.wake with
  | none => s
  | some w =>
    let on := match w.phase, w.pages with
      | .page, p :: _ => vset s.pwr.pageOn p true
      | _, _ => s.pwr.pageOn
    { s with pwr := { s.pwr with pageOn := on } }.seqOver

/-- A PWR_RUN_SET write kept for the end of a sequence that leaves the part without CORE, or in a power failure: the domains it does not name
turn off with their pages, and the set is stored, for the next wake to turn on the others (R281; log entry 71). -/
def State.keptStore (s : State) : State :=
  match s.pwr.keptSet with
  | none => s
  | some v =>
    let s := ({ s with pwr := { s.pwr with keptSet := none } }.gRow Reg.PWR_RUN_SET fun s => s.setReg Reg.PWR_RUN_SET v).turnOff v.toNat
    let s := s.pagesOff
    if s.onSet = 0 ∧ s.pllRuns = true then s.divide s.hibStep s.limp else s

/-- The entry sequence toward a domain set: park strobes, domains off, pages off, the clock, the state (R282). -/
def State.entry (s : State) (keep : Nat) : State :=
  let s := s.seqDrop.keptStore
  let tether := s.flag (Reg.LANE_STATUS 0) Fld.LANE_STATUS_TETHER_OK
  let s := s.setPwrState 5
  let s := iterate 4 (fun d s => s.when (keep.testBit (ldDomain d).bit && s.on (ldDomain d)) fun s => s.parkStrobe d) s
  let s := s.turnOff keep
  let s := s.pagesOff.clockDown
  let s := s.setPwrState (if s.onSet = 0 then 3 else 2)
  let s := { s with pwr := { s.pwr with entryAt := some s.ck } }
  s.when (s.on .meas) fun s => s.standbyStop.when tether State.keeperStart

/-- Whether a request for STANDBY (`standby`) or HIBERNATE is refused (R282). -/
def State.entryRefused (s : State) (standby : Bool) : Bool :=
  s.pwr.pfwActive || (match s.pwr.wake with | some w => !w.runSet | none => false) ||
    (standby && breaksR18 (s.fld Reg.PWR_STANDBY_SET Fld.PWR_STANDBY_SET_DOMAINS))

/-- A request is refused: event and log entry with the request as its data (R282, R310). -/
def State.entryRefuse (s : State) (req : Nat) : State := s.reqRefused.log .notice 0x0071 0x60 0 (BitVec.ofNat 32 req) 0 0

/-- A request for STANDBY or HIBERNATE, from PWR_CTL or STATE_REQ. -/
def State.entryRequest (s : State) (standby : Bool) : State :=
  if s.entryRefused standby then s.entryRefuse (if standby then 2 else 3)
  else s.entry (if standby then s.fld Reg.PWR_STANDBY_SET Fld.PWR_STANDBY_SET_DOMAINS &&& 0x36 else 0)

/-- A write of PWR_CTL that sets STANDBY, HIBERNATE or both. -/
def State.entryWrite (s : State) (standby hibernate : Bool) : State :=
  if standby && hibernate then s.entryRefuse 6
  else if standby then s.entryRequest true
  else if hibernate then s.entryRequest false
  else s

/-- STANDBY. -/
def execStandby (s : State) : Host.Outcome State Fault Refusal := (s.when (s.on .core) fun s => s.entryRequest true).done

/-- HIBERNATE. -/
def execHibernate (s : State) : Host.Outcome State Fault Refusal := (s.when (s.on .core) fun s => s.entryRequest false).done

/-! ### The end of a sequence -/

/-- A change of the domain set in RUN (R281): domains off at once with their pages; pages on, if any are needed, as a sequence;
then domains on. -/
def State.runSetDo (s : State) (set : Nat) : State :=
  let s := s.setReg Reg.PWR_RUN_SET (BitVec.ofNat 32 set)
  let s := (s.turnOff set).pagesOff
  if (s.toTurnOn set).isEmpty then s
  else
    let ps := s.pagesFor set
    if ps.isEmpty then s.turnOn set
    else (s.raise Reg.PWR_STATUS Fld.PWR_STATUS_BUSY).wakePages { runSet := true, target := set, from_ := s.pwrState } ps

/-- A kept PWR_RUN_SET write is carried out as the sequence ends; it restarts a commit scan that runs (R48). DESIGN CHOICE, log entry 80: the
guard lock was judged when the write was accepted, and a LOCK set since does not stop it (R51). -/
def State.runSetKept (s : State) : State :=
  if !s.on .core || s.pwr.pfwActive then s.keptStore
  else match s.pwr.keptSet with
    | none => s
    | some v =>
      let s := { s with pwr := { s.pwr with keptSet := none } }
      if v.toNat = s.runSet then s else s.gRow Reg.PWR_RUN_SET fun s => s.runSetDo v.toNat

/-- The pages are acknowledged and the PLL runs: the target domains turn on. DESIGN CHOICE, log entry 82: as CORE turns on, what MD converts for
the keeper core in STANDBY ends, and a held half is discarded and counted (R67, R283). A PWR_RUN_SET sequence is then over (R281, R289). -/
def State.wakeDomains (s : State) : State :=
  match s.pwr.wake with
  | none => s
  | some w =>
    if w.phase != .domains then s
    else
      let doms := s.toTurnOn w.target
      let s := s.when (doms.contains .core && s.keeperCore.active && !s.inTether) State.standbyStop
      let s := s.turnOn w.target
      let w' := { w with onDoms := doms.map Domain.bit }
      if w.runSet then s.seqOver.runSetKept else { s with pwr := { s.pwr with wake := some w' } }

/-! ### Failures (R290) -/

/-- The attempt's domains and pages turn off again, in reverse order; the PLL stops if no switched domain is on. -/
def State.wakeUndo (s : State) (w : Wake) : State :=
  let s := offOrder.foldl (fun s d => if w.onDoms.contains d.bit then s.domainOff d else s) s
  let started := match w.phase, w.pages with
    | .page, p :: _ => if vget s.pwr.pageInit p false then [p] else []
    | _, _ => []
  let s := (started ++ w.onPages.reverse).foldl (fun s p =>
    ({ s with pwr := { s.pwr with pageOn := vset s.pwr.pageOn p true } }).pageOff p) s
  if s.onSet != 0 then s
  else if s.inTether then s.divide (s.fld Reg.TETHER_STATUS Fld.TETHER_STATUS_STEP) s.limp
  else s.divide s.hibStep s.limp

/-- Ports a keeper holds take their fail-safe level, latched as on a keeper timeout (R290). -/
def State.wakeFailPorts (s : State) : State :=
  iterate 16 (fun n s =>
    s.when (s.portRuns n && isOut (s.roleActive n) && s.flag (Reg.PORT_STATUS n) Fld.PORT_STATUS_KEEPER) fun s =>
      s.latchFs n false (fun p => { p with keeperLat := true })) s

/-- WAKE_FAIL (R290). -/
def State.wakeFail (s : State) : State :=
  let s := (s.seqOver).setPwrState 7
  let s := { s with pwr := { s.pwr with faultLow := true } }.wakeFailPorts
  let s := (s.log .fatal 0x0073 0x60 0 (s.reg Reg.PWR_FAIL) 0 0).raise Reg.PWR_EVENT Fld.PWR_EVENT_WAKE_FAIL
  (s.when s.inTether fun s => s.arm .tetherRetry (secCk 10)).runSetKept

/-- An attempt of the sequence in progress fails (R290); a PWR_RUN_SET sequence that has failed for good leaves its domains off (log
entry 14). -/
def State.attemptFail (s : State) (cause page : Nat) : State :=
  match s.pwr.wake with
  | none => s
  | some w =>
    let s := ((s.disarm .pageAck).disarm .pllLock).wakeUndo w
    let s := s.setReg Reg.PWR_FAIL (Fld.PWR_FAIL_STATUS_WORD.put w.status.toNat ||| Fld.PWR_FAIL_ATTEMPTS.put (min 15 w.attempts) |||
      Fld.PWR_FAIL_PAGE.put page ||| Fld.PWR_FAIL_CAUSE.put cause)
    let s := s.count Reg.PWR_RETRY_COUNT Reg.PWR_EVENT Fld.PWR_EVENT_CTR_SAT 1
    if cause != 6 && decide (w.attempts ≤ s.fld Reg.PWR_WAKE_CFG Fld.PWR_WAKE_CFG_WAKE_RETRIES) then
      { s with pwr := { s.pwr with wake := some { w with phase := .retry, pages := [], onPages := [], onDoms := [] },
                                   busRetry := false } }.arm .wakeRetry (msCk 20)
    else if w.runSet then s.seqOver.runSetKept
    else s.wakeFail

/-- The page whose acknowledgement the sequence awaits. -/
def State.pageAwaited (s : State) : Option (Wake × Nat) :=
  match s.pwr.wake with
  | some w => if w.phase = .page then w.pages.head?.map fun p => (w, p) else none
  | none => none

/-- The attempt fails at the page awaited (R286, R290). -/
def State.pageFail (s : State) (cause : Nat) : State :=
  match s.pageAwaited with
  | some (_, p) => s.attemptFail cause p
  | none => s

/-- The page just begun has answered a VOUT_MODE that is not linear: the attempt fails at once (R286, R290). -/
def State.modeCheck (s : State) : State :=
  match s.pageAwaited with
  | some (_, p) => if vget s.pwr.pageInit p false then s else s.attemptFail 6 p
  | none => s

/-- A sequence goes on from where it stands: its domains turn on once their turn has come, and a page begun is checked for its VOUT_MODE; a
kept write that then begins a sequence of its own is checked in its turn. -/
def State.wakeGo (s : State) : State := s.wakeDomains.modeCheck.modeCheck

/-- A write of PWR_RUN_SET: refused, kept for the end of a running sequence, or carried out (R281). -/
def State.runSetWrite (s : State) (v : Word) : State :=
  let set := Fld.PWR_RUN_SET_DOMAINS.get v ||| 1
  if breaksR18 set then s.reqRefused
  else if s.pwr.wake.isSome || s.pwrState == 6 then
    { s with pwr := { s.pwr with keptSet := some (BitVec.ofNat 32 set) } }
  else if set = s.runSet then s
  else (s.runSetDo set).modeCheck

/-- PWR_RUN_SET_WRITE; the guard lock refuses a change (R51). -/
def execPwrRunSetWrite (v : Word) (s : State) : Host.Outcome State Fault Refusal :=
  (s.hostRow Reg.PWR_RUN_SET ((Fld.PWR_RUN_SET_DOMAINS.get v ||| 1) != s.runSet) fun s =>
    (s.overLate Reg.PWR_RUN_SET (BitVec.allOnes 32)).runSetWrite v).done

/-- A PMBus failure, of the page awaited or else of a change of VCORE in progress (R285, R287, R290). -/
def State.pmbusFail (s : State) : State :=
  let s := { s with pwr := { s.pwr with busRetry := false } }.raise Reg.PWR_EVENT Fld.PWR_EVENT_PMBUS_ERR
  if s.pageAwaited.isSome then s.pageFail 3 else s.vcoreFail

/-! ### Pages (R286, R289) -/

/-- The page awaited is acknowledged; the next one is turned on, or the sequence goes on past the pages. VCORE is then at what page 0 was
turned on with (R287; log entry 78). -/
def State.pageAck (s : State) : State :=
  match s.pageAwaited with
  | none => s
  | some (w, p) =>
    let s := s.disarm .pageAck
    let s := { s with pwr := { s.pwr with pageOn := vset s.pwr.pageOn p true, busRetry := false } }
    let s := s.when (p == 0) fun s => s.setFld Reg.PWR_VCORE Fld.PWR_VCORE_READ_MV s.pwr.vcoreMv
    (s.wakePages { w with onPages := w.onPages ++ [p] } w.pages.tail).wakeGo

/-- PGOOD has been high for 100 µs: the page awaited is acknowledged, or a change of VCORE in progress but for its READ_VOUT. -/
def State.pgoodHigh (s : State) : State :=
  if s.pageAwaited.isSome then s.pageAck
  else { s with pwr := { s.pwr with vcoreNow := s.pwr.vcoreNow.map fun x => (x.1, true) } }

/-- PAGE_ACK. An acknowledgement by STATUS_WORD is what the read that shows it does (log entry 10). -/
def execPageAck (s : State) : Host.Outcome State Fault Refusal := (s.when s.ackPgood State.pgoodHigh).done

/-- Transaction `j` of the sequence on the bus has failed twice, and the sequence ends with it: a PMBus failure. A first turn-on that has not
read VOUT_MODE comes again at the next attempt (R285, R286). -/
def State.turnFail (s : State) (j : Nat) : State :=
  let first := decide (6 ≤ s.pwr.bus.length) && decide (j < 3)
  let s := { s with pwr := { s.pwr with bus := s.pwr.bus.take (j + 1) } }
  (match s.pageAwaited with
    | some (_, p) => s.when first fun s => { s with pwr := { s.pwr with pageInit := vset s.pwr.pageInit p false } }
    | none => s).pmbusFail

/-- The first transaction on the bus, of those not over, that two tries have failed, one of them perhaps counted before (R285). -/
def State.busSecond (s : State) (fails : List Nat) : Option Nat :=
  (List.range s.pwr.bus.length).find? fun j => decide (s.pwr.busAt ≤ j) &&
    decide (2 ≤ nth fails j 0 + b2n (s.pwr.busRetry && j == s.pwr.busAt))

/-- The tries of a read of STATUS_WORD: one, where it is the repeat of one that the target has ended by holding SCL low (R285). -/
def State.pollRead (s : State) (r : PmRead) : PmRead :=
  if s.pwr.busRetry && s.pwr.busAt == s.pwr.bus.length then r.take 1 else r

/-- A look at a change of VCORE in progress (R287). -/
def State.vcoreLook (s : State) (r : PagePoll) : State :=
  match s.pwr.vcoreNow with
  | none => s
  | some (st, pgood) => s.vcoreSettle pgood (s.vcoreWait st [⟨s.pollRead r.status, pgood, r.vout⟩])

/-- A look at a page whose acknowledgement is awaited: whether its turn-on has failed on the bus, and, where STATUS_WORD acknowledges, one read of
it, with which every transaction before is over (R285, R286; log entry 10); or at a change of VCORE, which looks again once no page is
awaited. -/
def State.statusPoll (s : State) (r : PagePoll) : State :=
  match s.busSecond r.fails with
  | some j => s.turnFail j
  | none =>
    match s.pageAwaited with
    | none => s.vcoreLook r
    | some (x, _) =>
      if s.ackPgood then s
      else match s.pmbusData 0x79 2 (s.pollRead r.status) with
      | none => s.pmbusFail
      | some n =>
        let v := BitVec.ofNat 32 n
        let s := { s with pwr := { s.pwr with wake := some { x with status := v }, busAt := s.pwr.bus.length, busRetry := false } }
        if faultBits v != 0 then s.pageFail 2 else if statusGood v then s.pageAck else s

/-- STATUS_WORD_POLL. -/
def execStatusWordPoll (r : PagePoll) (s : State) : Host.Outcome State Fault Refusal := (s.statusPoll r).modeCheck.done

/-- REG_TIMEOUT: of the page awaited, or else of a change of VCORE in progress (R286, R287). -/
def execRegTimeout (s : State) : Host.Outcome State Fault Refusal :=
  (if (s.dueOf .pageAck).isSome then s.fall .pageAck fun s => (s.pageFail 1).modeCheck else s.fall .vcoreAck State.vcoreFail).done

/-- The last transaction that PMBus may be at: of the sequence on it, or the read that follows it while an acknowledgement is awaited. -/
def State.busEnd (s : State) : Nat :=
  if (s.pageAwaited.isSome && !s.ackPgood) || s.pwr.vcoreNow.isSome then s.pwr.bus.length else s.pwr.bus.length - 1

/-- The target holds SCL low: the transaction is repeated once, then is a PMBus failure (R285). Each transaction begins with no failure of its
own; the row does not name it, and which of those not over it is, is a free value (log entry 10). -/
def State.smbusTimeout (s : State) : State :=
  let (x, s) := s.free
  let j := s.pwr.busAt + x.toNat % max 1 (s.busEnd + 1 - s.pwr.busAt)
  if s.pwr.busRetry && j == s.pwr.busAt then s.turnFail j else { s with pwr := { s.pwr with busAt := j, busRetry := true } }

/-- SMBUS_TIMEOUT. -/
def execSmbusTimeout (s : State) : Host.Outcome State Fault Refusal := s.smbusTimeout.modeCheck.done

/-! ### Source, PLL, domains (R289) -/

/-- The source passes the monitor, or the part goes on with the limp clock. A PLL that runs on the limp oscillator takes the source as its
reference and locks to it, or runs on as it is (R277, R278, R289). -/
def State.xtalReady (s : State) (ok : Bool) : State :=
  match s.pwr.wake with
  | none => s
  | some w =>
    if w.phase != .xtal then s
    else
      let goTo (p : WakePhase) (s : State) : State := { s with pwr := { s.pwr with wake := some { w with phase := p } } }
      if ok then
        let s := (goTo .pll s).arm .pllLock (usCk 500)
        ((s.raise Reg.CLK_STATUS Fld.CLK_STATUS_XTAL_OK).setFld Reg.CLK_STATUS Fld.CLK_STATUS_SRC (if s.pllRuns then 0 else 1)).linksFollow
      else
        let s := if s.pllRuns then goTo .domains s else (goTo .pll s).arm .pllLock (usCk 500)
        let s := (s.lower Reg.CLK_STATUS Fld.CLK_STATUS_XTAL_OK).setFld Reg.CLK_STATUS Fld.CLK_STATUS_SRC (if s.pllRuns then 2 else 3)
        ((s.raise Reg.PWR_EVENT Fld.PWR_EVENT_LIMP).log .error 0x0070 0x60 0 0 0 0).wakeGo

/-- XTAL_READY. -/
def execXtalReady (ok : Bool) (s : State) : Host.Outcome State Fault Refusal := (s.xtalReady ok).done

/-- The PLL locks and the target domains turn on. -/
def State.pllLock (s : State) : State :=
  match s.pwr.wake with
  | none => s
  | some w =>
    if w.phase != .pll then s
    else
      let s := (s.disarm .pllLock).pllOn s.limp
      ({ s with pwr := { s.pwr with wake := some { w with phase := .domains } } }).wakeGo

/-- PLL_LOCK. -/
def execPllLock (s : State) : Host.Outcome State Fault Refusal := s.pllLock.done

/-- PLL_LOCK_TIMEOUT. -/
def execPllLockTimeout (s : State) : Host.Outcome State Fault Refusal := (s.fall .pllLock fun s => (s.attemptFail 4 0).modeCheck).done

/-- DOMAIN_ON_TIMEOUT: a domain the attempt turns on does not report on. -/
def execDomainOnTimeout (d : Domain) (s : State) : Host.Outcome State Fault Refusal :=
  (match s.pwr.wake with
   | some w => if w.phase = WakePhase.domains ∧ w.onDoms.contains d.bit = true then (s.attemptFail 5 0).modeCheck else s
   | none => s).done

/-- The registers of P0's modem. -/
def p0ModemReg (a : Nat) : Bool := decide (0x200400 ≤ a) && decide (a < 0x200800)

/-- Tether mode ends (R297): P0 holds the keeper core's last target until a release write, none of the keeper core's being left; its modem
starts afresh, its registers at their reset values (R169). -/
def State.tetherExit (s : State) : State :=
  let s := (s.keeperStop).lower Reg.TETHER_STATUS Fld.TETHER_STATUS_ACTIVE
  let s := (s.lower Reg.BD_STATUS Fld.BD_STATUS_SHUNT).raise Reg.BD_EVENT Fld.BD_EVENT_TETHER_EXIT
  let s := s.modemFresh 0
  let s := { s with regs := s.regs.filter fun p => !p0ModemReg p.1 }
  let s := ((s.setPort 0 { s.port 0 with released := false }).holdTarget 0).raise (Reg.PORT_STATUS 0) Fld.PORT_STATUS_KEEPER
  let t := { s.tether with nextStep := none, okMs := 0, conv := none, ended := none, clamped := none, holding := false, holdLeft := 0 }
  ({ s with tether := t }.disarm .tetherHold).raise Reg.PWR_EVENT Fld.PWR_EVENT_TETHER_EXIT

/-- The wake toward CORE that follows (R288, R302), once RESETn is high (R303). -/
def State.resetWake (s : State) : State :=
  if s.pwr.resetLow then { s with pwr := { s.pwr with resetWait := true } } else (s.wakeBegin s.runSet).wakeGo

/-- The last target domain is on: RUN or IDLE, and the watchdog counts from 0 (R289, R297, R198, R305). With a RESETn latched in Tether
mode the wake that ends it is a global reset instead (R303). -/
def State.wakeDone (s₀ : State) : State :=
  let s := s₀.wakeGo
  match s.pwr.wake with
  | none => s
  | some w =>
    if w.phase != WakePhase.domains || w.runSet then s
    else if s.inTether && s.pwr.resetHeld then (s.globalReset 2).resetWake
    else
      let s := if s.inTether then s.tetherExit else s.keeperStop
      let s := (s.seqOver.setPwrState s.runCode).raise Reg.PWR_EVENT Fld.PWR_EVENT_WAKE_DONE
      { s with wdtFrom := s.ck }.runSetKept.modeCheck

/-- WAKE_DONE. -/
def execWakeDone (s : State) : Host.Outcome State Fault Refusal := s.wakeDone.done

/-- The next attempt starts from the pages (R290). -/
def State.wakeAgain (s : State) : State :=
  match s.pwr.wake with
  | some w => if w.phase = .retry then (s.wakePages { w with attempts := w.attempts + 1, status := 0 } (s.pagesFor w.target)).wakeGo
      else s
  | none => s

/-- WAKE_RETRY. -/
def execWakeRetry (s : State) : Host.Outcome State Fault Refusal := (s.fall .wakeRetry State.wakeAgain).done

/-! ### Wake sources (R288) -/

/-- A wake source qualifies, and the wake it begins goes on as far as it can. -/
def State.wakeNow (s : State) (b : Nat) (states : List Nat) : State := (s.wakeSource b states).wakeGo

/-- WAKE_PIN: an edge held for 50 µs. -/
def execWakePin (rising : Bool) (s : State) : Host.Outcome State Fault Refusal :=
  (s.when (rising != s.flag Reg.PWR_WAKE_EN Fld.PWR_WAKE_EN_WAKE_POL) fun s => s.wakeNow 0 [2, 3, 7]).done

/-- The alarm fires at the first TIME at or past PWR_ALARM. -/
def State.alarmFires (s : State) : State :=
  if !s.pwr.alarmSet then s
  else
    let t := (pair64 (s.reg Reg.PWR_ALARM_HI) (s.reg Reg.PWR_ALARM_LO)).toNat
    let s := s.when (s.time.toNat < t) fun s => s.passTo (s.ckAtTick (t - s.time.toNat))
    let s := { s with pwr := { s.pwr with alarmSet := false } }.raise Reg.PWR_EVENT Fld.PWR_EVENT_ALARM
    s.wakeNow 1 [2, 3, 7]

/-- ALARM. -/
def execAlarm (s : State) : Host.Outcome State Fault Refusal := s.alarmFires.done

/-- A write of PWR_ALARM_HI arms the alarm once. -/
def State.alarmArm (s : State) (v : Word) : State :=
  { s.setReg Reg.PWR_ALARM_HI v with pwr := { s.pwr with alarmSet := true } }

/-- PWR_ALARM_ARM. -/
def execPwrAlarmArm (v : Word) (s : State) : Host.Outcome State Fault Refusal :=
  (s.hostRow Reg.PWR_ALARM_HI false fun s => (s.overLate Reg.PWR_ALARM_HI (BitVec.allOnes 32)).alarmArm v).done

/-- TRUNK_ACTIVITY: seen on the closed bypass for 100 µs. -/
def execTrunkActivity (s : State) : Host.Outcome State Fault Refusal :=
  (s.when (s.flag Reg.BD_STATUS Fld.BD_STATUS_BYPASS_CLOSED) fun s =>
    ((s.raise Reg.BD_STATUS Fld.BD_STATUS_TRUNK_ACT).raise Reg.BD_EVENT Fld.BD_EVENT_TRUNK_ACT).wakeNow 2 [2, 3, 7]).done

/-- HCSN_WAKE: HCSn falls; the transaction it opens is not executed, and no row carries it (log entry 78). -/
def execHcsnWake (s : State) : Host.Outcome State Fault Refusal := (s.when s.pwr.vio fun s => s.wakeNow 3 [2, 3, 7]).done

/-- TETHER_WAKE_RETRY: every 10 s while VSYS stays present (R290); a global reset where a RESETn is latched (R303). -/
def execTetherWakeRetry (s : State) : Host.Outcome State Fault Refusal :=
  (s.fall .tetherRetry fun s =>
    if s.pwrState = 7 ∧ s.inTether = true ∧ s.flag Reg.BD_STATUS Fld.BD_STATUS_VSYS_OK = true then
      if s.pwr.resetHeld then (s.globalReset 2).resetWake
      else ({ s with pwr := { s.pwr with latched := s.pwr.latched ||| oneBit 5 } }.wakeBegin s.runSet).wakeGo
    else s).done

/-! ### FAULTn, pads (R284, R290) -/

/-- PWR_CTL.FAULT_CLR. -/
def State.faultClr (s : State) : State := { s with pwr := { s.pwr with faultLow := false } }

/-- FAULT_CLR. -/
def execFaultClr (s : State) : Host.Outcome State Fault Refusal := (s.hostRow Reg.PWR_CTL false State.faultClr).done

/-- PAD_RELEASE: the named domains that are on release their pads. -/
def State.padRelease (s : State) (v : Word) : State :=
  onOrder.foldl (fun s d => s.when ((Fld.PAD_RELEASE_DOMAIN.bit d.bit).on v && s.on d) fun s =>
    s.lower Reg.PAD_STATUS (Fld.PAD_STATUS_DOMAIN.bit d.bit)) s

/-- PAD_RELEASE. -/
def execPadRelease (v : Word) (s : State) : Host.Outcome State Fault Refusal := (s.hostRow Reg.PAD_RELEASE false fun s => s.padRelease v).done

/-! ### VCORE written, and the rails (R287) -/

/-- A write of PWR_VCORE.REQ_MV, with what the part sees of the regulator (R285, R287). One written while a change is in progress begins a
change of its own in its place (the model's choice: log entry 58). -/
def State.vcoreChange (s : State) (req : BitVec 16) (x : VcoreSeen) : State :=
  let s := s.setFld Reg.PWR_VCORE Fld.PWR_VCORE_REQ_MV req.toNat
  if !s.pageManaged 0 || !(s.pwrState == 0 || s.pwrState == 1) then s
  else
    let s := s.vcoreOver.onBus [s.pageSelect 0, s.voutWrite s.vcoreReq]
    match if x.sent then s.vcoreWait none x.polls else .bus none with
    | .more st => if x.ended then s.vcoreSettle false (.bad st) else (s.arm .vcoreAck s.ackTmo).vcoreSettle false (.more st)
    | e => s.vcoreSettle false e

/-- VCORE_CHANGE; the guard lock refuses a change (R51). -/
def execVcoreChange (req : BitVec 16) (x : VcoreSeen) (s : State) : Host.Outcome State Fault Refusal :=
  (s.hostRow Reg.PWR_VCORE (s.fld Reg.PWR_VCORE Fld.PWR_VCORE_REQ_MV != req.toNat) fun s =>
    (s.overLate Reg.PWR_VCORE Fld.PWR_VCORE_REQ_MV.mask).vcoreChange req x).done

/-- PWR_RAIL of a page: READ_VOUT and READ_IOUT, each cut to whole units either way by a free bit (log entry 8), within its field. -/
def State.railShow (s : State) (p vout iout : Nat) : State :=
  let v := voutRead (s.voutModeOf p) vout
  let i := ioutRead iout
  let (mv, s) := s.divFree v.1 v.2
  let (ma, s) := s.divFree i.1 i.2
  s.setReg (Reg.PWR_RAIL p) (Fld.PWR_RAIL_VOUT_MV.put (min 0xFFFF mv.toNat) ||| Fld.PWR_RAIL_IOUT_MA.put (min 0xFFFF ma.toNat))

/-- The STATUS_WORD of the once-per-second reading: fault bits that have appeared are reported, once per appearance (R287). -/
def State.railStatus (s : State) (p : Nat) (st : Word) : State :=
  let new := faultBits st &&& ~~~vget s.pwr.faultSeen p 0
  let s := { s with pwr := { s.pwr with faultSeen := vset s.pwr.faultSeen p (faultBits st) } }
  if new != 0 then s.regFault p st else s

/-- The once-per-second reading of a page, transactions of their own (R285, R287). -/
def State.railPoll (s : State) (p : Nat) (vout iout status : PmRead) : State :=
  if !s.pageManaged p || !vget s.pwr.pageOn p false then s
  else
  let s := { s with pwr := { s.pwr with busRetry := false } }
  match s.pmbusData 0x8B 2 vout, s.pmbusData 0x8C 2 iout, s.pmbusData 0x79 2 status with
    | some v, some i, some st => (s.railShow p v i).railStatus p (BitVec.ofNat 32 st)
    | _, _, _ => s.raise Reg.PWR_EVENT Fld.PWR_EVENT_PMBUS_ERR

/-- RAIL_POLL. -/
def execRailPoll (p : Fin 3) (x : RailRead) (s : State) : Host.Outcome State Fault Refusal :=
  (s.railPoll p x.vout x.iout x.status).done

end Sys2Proof.Machine
end

