-- ==== Sys2Proof/Machine/Supply.lean ====
section
/-! DEFINITION. The clock's source, the power failure, Tether mode and its governor (spec/12, R277, R278, R291 to R297; spec/13, R311,
R312). -/

namespace Sys2Proof.Machine

/-! ### The source (R23, R277, R278) -/

/-- The monitor declares the source lost; what the trunk logs of it comes first, by SOURCE (R308). -/
def State.crystalLoss (s : State) : State :=
  if s.limp then s
  else
    let s := s.setFld Reg.CLK_STATUS Fld.CLK_STATUS_SRC (if s.pllRuns then 2 else 3)
    let s := (s.lower Reg.CLK_STATUS Fld.CLK_STATUS_XTAL_OK).raise Reg.PWR_EVENT Fld.PWR_EVENT_LIMP
    let s := ({ s.dirtyAll with pwr := { s.pwr with xtalBack := false } }).tetherDirty.linksFollow
    s.log .error 0x0070 0x60 0 0 0 0

/-- CRYSTAL_LOSS. -/
def execCrystalLoss (s : State) : Host.Outcome State Fault Refusal := s.crystalLoss.done

/-- CLK_CTL.XTAL_RETRY: the source is checked for 10 ms. -/
def State.xtalRetry (s : State) : State := s.arm .xtalCheck (msCk 10)

/-- XTAL_RETRY. -/
def execXtalRetry (s : State) : Host.Outcome State Fault Refusal := (s.hostRow Reg.CLK_CTL false State.xtalRetry).done

/-- XTAL_CHECK_END: on a pass the PLL changes its reference back at the next loop tick. -/
def execXtalCheckEnd (ok : Bool) (s : State) : Host.Outcome State Fault Refusal :=
  (s.fall .xtalCheck fun s => s.when (ok && s.limp && s.pllRuns) fun s => { s with pwr := { s.pwr with xtalBack := true } }).done

/-- The loop tick at which the PLL returns to the source, if it still runs on the limp oscillator. -/
def State.xtalReturn (s : State) : State :=
  let back := s.pwr.xtalBack && s.limp && s.pllRuns
  let s := { s with pwr := { s.pwr with xtalBack := false } }
  if !back then s
  else
    let s := (s.setFld Reg.CLK_STATUS Fld.CLK_STATUS_SRC 0).raise Reg.CLK_STATUS Fld.CLK_STATUS_XTAL_OK
    (s.raise Reg.PWR_EVENT Fld.PWR_EVENT_XTAL_BACK).linksFollow

/-! ### Frames of the MD island (R292) -/

/-- SHED. -/
def State.shedLevel (s : State) : Nat := s.fld Reg.TETHER_STATUS Fld.TETHER_STATUS_SHED

/-- NPLC of the island's frames: 10 while the governor sheds LONG_INT (R292, R296). -/
def State.tetherNplc (s : State) : Nat :=
  if 2 ≤ s.shedLevel then 10 else clampNat 1 10 (s.fld Reg.TETHER_CFG Fld.TETHER_CFG_NPLC)

/-- The length of an island frame that begins now, in cycles of the 196.608 MHz clock, a whole number of divided cycles: by the arithmetic of
R58 from the tracker, which counts divided cycles, else from the copied period (R292). DESIGN CHOICE, log entry 70: n times the copied
period, 24.8 fixed point, is cut to whole divided cycles. -/
def State.tetherLen (s : State) : Nat :=
  let n := s.tetherNplc
  let c := s.cycleLen
  let m := s.tether.mains
  (if m.m = 0 then n * s.tether.period.toNat / 256 / c else (n * (m.s / c) + m.m / 2) / m.m) * c

/-- The current in µA that group 0's island source drives from EXC0P to EXC0N in Tether mode, never reversed: 50 if the copied mode was
CURRENT, and none while the governor is FROZEN, when only the stage, the readback and the supervisor run (R291, R292, R296). -/
def State.tetherExcUa (s : State) : Nat := if s.inTether && s.tether.excMode == 1 && s.shedLevel != 3 then 50 else 0

/-- A frame of the island begins at `start`: its length is fixed, and S4 integrates; while the governor is FROZEN, CK is lost at MD, or
S4's recovery hold counts, it does not (R17, R56, R74, R292, R296). -/
def State.islandFrame (s : State) (start : Nat) : State :=
  let idle := s.shedLevel == 3 || s.ckIsLost .md || s.tether.holding && s.tether.clamped.isNone
  { s with tether := { s.tether with frameAt := start, frameLen := s.tetherLen,
                                     conv := if idle then none else some { dirty := s.limp, clamp := s.tether.clamped } } }

/-! ### Power failure (R293, R311, R312) -/

/-- P0 in its island, as LOOP_A is shed or off already: with TETHER_ARMED latched 1 it holds its target, KEEPER 1 (R293); with 0 its stage
loses its supply and the loop falls to 0 mA (R314). DESIGN CHOICE, log entry 75: its registers stay, as R291 keeps them. -/
def State.islandHold (s : State) (armed : Bool) : State :=
  if !s.p0Held then s
  else if armed then (s.holdTarget 0).raise (Reg.PORT_STATUS 0) Fld.PORT_STATUS_KEEPER
  else
    let st := Reg.PORT_STATUS 0
    let s := (((s.trimAbandon 0).modemStop 0).modemDeaf 0).setTarget 0 0
    let s := ((s.lower st Fld.PORT_STATUS_FAILSAFE).lower st Fld.PORT_STATUS_SLEWING).lower st Fld.PORT_STATUS_DRIVING
    (s.lower st Fld.PORT_STATUS_TETHER_READY).setPort 0 { s.port 0 with dark := true }

/-- MEAS, EXCITE, LOOP_A and LOOP_B are shed in the entry order, without park strobes. -/
def State.shed (s : State) (armed : Bool) : State := (s.islandHold armed).turnOff 0x09

/-- What BD shows as VSYS falls below 3.00 V, `holdup` the voltage on BALLAST in mV, at most 16.5 V (R332). -/
def State.vsysFalls (s : State) (holdup : Nat) : State :=
  let s := (s.raise Reg.BD_STATUS Fld.BD_STATUS_PFW).lower Reg.BD_STATUS Fld.BD_STATUS_VSYS_OK
  let s := { s with pwr := { s.pwr with holdupAt := some s.ck } }
  (s.setFld Reg.BD_STATUS Fld.BD_STATUS_HOLDUP (holdup / 10)).raise Reg.BD_EVENT Fld.BD_EVENT_PFW

/-- The power-fail warning (R312); a wake or a PWR_RUN_SET sequence stops after the step in progress, so a page that it is turning on counts as on
(R290; log entry 71). In Tether mode it stops a wake (R297). Where the shedding leaves no switched domain on, the PLL stops (R19). -/
def State.pfw (s : State) (holdup : Nat) : State :=
  if s.pwr.off || s.flag Reg.BD_STATUS Fld.BD_STATUS_PFW then s
  else if s.inTether then
    let armed := s.flag Reg.BD_STATUS Fld.BD_STATUS_TETHER_ARMED
    let s := ((s.vsysFalls holdup).disarm .tetherRetry).log .error 0x0080 0x62 0 (BitVec.ofNat 32 holdup) (BitVec.ofNat 32 (b2n armed)) 0
    let s := (s.seqDrop.seqOver.keptStore.turnOff 0).setPwrState 4
    s.divide (s.fld Reg.TETHER_STATUS Fld.TETHER_STATUS_STEP) s.limp
  else
    let armed := s.flag Reg.BD_STATUS Fld.BD_STATUS_TETHER_ARMED
    let s := s.vsysFalls holdup
    let s := s.log .error 0x0080 0x62 0 (BitVec.ofNat 32 holdup) (BitVec.ofNat 32 (b2n armed)) 0
    let s := s.seqDrop.seqOver
    let s := { s with pwr := { s.pwr with pfwActive := true, stateReq := none } }
    (((s.shed armed).keptStore).clockDown.lastGasp).gaspCheck

/-- PFW, with the voltage on BALLAST in mV; no higher one than 16.5 V is charged (R332; log entry 79). -/
def execPfw (holdup : Nat) (s : State) : Host.Outcome State Fault Refusal := (s.pfw (min 16500 holdup)).done

/-- Power is lost, or POR is asserted: everything in AON goes, and what the island held (R296, R302, R303). -/
def State.powerLost (s : State) : State :=
  { pending := s.pending, fuses := s.fuses, sramEpoch := s.sramEpoch + 1, ck := s.ck, testEn := s.testEn, freeN := s.freeN,
    od := { drawn := s.od.drawn }, hostData := s.hostData, hostStat := s.hostStat,
    timeAt := s.ck / 16, regs := [(Reg.CLK_STATUS, s.reg Reg.CLK_STATUS &&& Fld.CLK_STATUS_XSEL.mask), (Reg.PWR_STATUS, 0)].foldl
      (fun m p => insertKey m p.1 p.2) [],
    pwr := { off := true, pageOn := Vector.replicate 3 false, pageInit := Vector.replicate 3 false, voutMode := s.pwr.voutMode, divisor := 1024,
             resetLow := s.pwr.resetLow, vio := s.pwr.vio } }

/-- VSYS_LOW: below 2.70 V with TETHER_ARMED latched 0, CORE turns off, TRUNK with it (R18, R312), and POR is asserted: the part is off until
VSYS returns, and AON has lost what it held (R303; log entry 15). -/
def execVsysLow (s : State) : Host.Outcome State Fault Refusal :=
  (s.when (s.pwr.pfwActive && !s.flag Reg.BD_STATUS Fld.BD_STATUS_TETHER_ARMED) State.powerLost).done

/-- The switch-over to Tether mode (R293, R198). S4 starts 24 cycles of the divided clock later (R12). -/
def State.switchover (s : State) : State :=
  let ok := s.on .core && s.flag (Reg.LANE_STATUS 0) Fld.LANE_STATUS_TETHER_OK || s.keeperCore.active
  let ok := ok && (match s.keeperCore.store with | some st => storeOk st s.tetherCh | none => false)
  let s := (s.turnOff 0).divide 0 (s.limp && !s.pwr.xtalOff)
  let s := s.when s.pwr.xtalOff fun s => s.raise Reg.CLK_STATUS Fld.CLK_STATUS_XTAL_OK
  let s := { s with pwr := { s.pwr with pfwActive := false, pageOn := Vector.replicate 3 false, xtalOff := false },
                    tether := { s.tether with okMs := 0, nextStep := none, clamped := none, ended := none, holding := false, holdLeft := 0 } }
  let s := { s with tether := { s.tether with mains := { second := s.secondNo } } }
  let s := (s.raise Reg.BD_STATUS Fld.BD_STATUS_SHUNT).raise Reg.BD_EVENT Fld.BD_EVENT_TETHER_ENTRY
  let s := (s.setPwrState 4).count Reg.TETHER_ENTRY_COUNT Reg.PWR_EVENT Fld.PWR_EVENT_CTR_SAT 1
  let s := s.setReg Reg.TETHER_STATUS (Fld.TETHER_STATUS_ACTIVE.put 1 ||| Fld.TETHER_STATUS_CHAIN_OK.put (b2n ok))
  let s := (s.toneClose 0).islandFrame (s.ck + 24 * s.cycleLen)
  let s := s.when (s.roleActive 0 != 0 && !s.switchesOpen 0) fun s => s.setTarget 0 (max survivalCounts (s.target 0))
  if ok then s.keeperStart else (s.keeperStop).latchFs 0 false (fun p => { p with keeperLat := true })

/-- TETHER_SWITCHOVER: acts while a power failure with TETHER_ARMED latched 1 is being handled. -/
def execTetherSwitchover (s : State) : Host.Outcome State Fault Refusal :=
  (s.when (s.pwr.pfwActive && s.flag Reg.BD_STATUS Fld.BD_STATUS_TETHER_ARMED) State.switchover).done

/-- VSYS has been at or above 3.10 V for 10 ms: it ends Tether mode, or a power failure, through a wake (R293, R297; log entry 15). -/
def State.vsysReturn (s : State) : State :=
  if s.pwr.off || s.flag Reg.BD_STATUS Fld.BD_STATUS_VSYS_OK then s
  else
    let failing := s.pwr.pfwActive
    let s := (s.lower Reg.BD_STATUS Fld.BD_STATUS_PFW).raise Reg.BD_STATUS Fld.BD_STATUS_VSYS_OK
    let s := s.setPort 0 { s.port 0 with dark := false }
    let s := { s with pwr := { s.pwr with pfwActive := false } }.armTether.raise Reg.BD_EVENT Fld.BD_EVENT_VSYS_RETURN
    if (failing || s.inTether) && s.pwr.wake.isNone then
      ({ s with pwr := { s.pwr with latched := s.pwr.latched ||| oneBit 5 } }.wakeBegin s.runSet).wakeGo
    else s

/-! ### Tether mode (R292 to R296) -/

/-- Whether the copied trims have been in force for longer than the copied CAL_MAXAGE (R110; log entry 70). -/
def State.tetherStale (s : State) : Bool :=
  s.tether.maxAge != 0 && decide (secCk s.tether.maxAge < s.ck - s.tether.trimSince)

/-- The result of the island's ended integration goes to the keeper core, with flags as in R71: DIRTY also while the tracker has no update
(R198, R292). DESIGN CHOICE, log entry 73: REF_READY, 0 with EXCITE off, does not set DIRTY in Tether mode. -/
def State.tetherResult (s : State) (code : Int) : State :=
  match s.tether.ended with
  | none => s
  | some c =>
    let raw := match c.clamp with | some neg => clampCode neg | none => linearCode code
    let f : Flags := { ovr := codeOvr raw || c.clamp.isSome, clamp := c.clamp, dirty := c.dirty || s.tether.mains.m == 0, calstale := s.tetherStale }
    let s := { s with tether := { s.tether with ended := none } }
    s.keeperRun (convVolts { ch := s.tetherCh, gain := s.tether.gain } raw f) false

/-- TETHER_RESULT. -/
def execTetherResult (code : Int) (s : State) : Host.Outcome State Fault Refusal := (s.tetherResult code).done

/-- The clock moves to step `k`; the modem runs at /32 or faster (R169, R295). -/
def State.setStep (s : State) (k : Nat) : State :=
  let old := s.cycleLen
  let s := { s.divide k s.limp with tether := { s.tether with nextStep := none, holdLeft := s.tether.holdLeft / old * s.cycleLen } }
  let s := match s.dueOf .tetherHold with
    | some d => s.arm .tetherHold ((d - s.ck) / old * s.cycleLen)
    | none => s
  (s.setFld Reg.TETHER_STATUS Fld.TETHER_STATUS_STEP k).modemSuspend 0 (decide (3 ≤ k))

/-- A step that waits takes effect; none does while the PLL runs (R276, R295). -/
def State.takeStep (s : State) : State :=
  match s.tether.nextStep with
  | some k => if s.pllRuns then s else s.setStep k
  | none => s

/-- A frame boundary of the island: its integration ends, a step that waits takes effect, and the next frame begins (R292, R295). -/
def State.tetherBoundary (s : State) : State :=
  let s := s.passTo (s.tether.frameAt + s.tether.frameLen)
  let s := { s with tether := { s.tether with ended := s.tether.conv } }.takeStep
  s.islandFrame s.ck

/-- The governor has chosen a step: it waits for the next frame boundary, or acts at once below 3.10 V on the AON rail, and then the
conversion in progress is discarded (R295). While the PLL runs in a wake, no step is chosen (R276). -/
def State.chooseStep (s : State) (k : Nat) : State :=
  if s.pllRuns then s else { s with tether := { s.tether with nextStep := some k } }

/-- Below 3.10 V on the AON rail a step that waits acts at once; the conversion in progress is discarded, and a frame begins (R295). -/
def State.railStep (s : State) : State :=
  if s.tether.nextStep.isSome && !s.pllRuns then (let s := s.takeStep; s.islandFrame s.ck) else s

/-- The target that P0 holds while the governor is FROZEN (R296). -/
def State.frozenHold (s : State) : State :=
  let p := s.port 0
  if p.parked then s else (s.holdTarget 0).setPort 0 { (s.holdTarget 0).port 0 with parked := false }

/-- The shed level changes; at FROZEN S4 stops converting, and leaving it begins a frame (R296). -/
def State.setShed (s : State) (l : Nat) : State :=
  let was := s.shedLevel
  let s := s.setFld Reg.TETHER_STATUS Fld.TETHER_STATUS_SHED l
  if l = 3 then { s with tether := { s.tether with conv := none, ended := none } }.frozenHold
  else s.when (was == 3) fun s => s.islandFrame s.ck

/-- What the governor chooses at the end of a millisecond (R295, R296); `surplus` in 10 µA. -/
def State.governor (s : State) (surplus : Int) : State :=
  if !s.inTether then s
  else
    let s := s.setFld Reg.TETHER_STATUS Fld.TETHER_STATUS_SURPLUS (BitVec.ofInt 16 (clampInt (-32768) 32767 surplus)).toNat
    let step := s.fld Reg.TETHER_STATUS Fld.TETHER_STATUS_STEP
    let aim := s.tether.nextStep.getD step
    let ok (n : Nat) : State := { s with tether := { s.tether with okMs := n } }
    if surplus < 10 then
      if aim < 4 then (ok 0).chooseStep (aim + 1)
      else if step = 4 ∧ s.shedLevel < 3 then (ok 0).setShed (s.shedLevel + 1)
      else ok 0
    else if surplus < 50 then ok 0
    else if s.tether.okMs + 1 < 1000 then ok (s.tether.okMs + 1)
    else if s.shedLevel ≠ 0 then (ok 0).setShed (s.shedLevel - 1)
    else if aim ≠ 0 then (ok 0).chooseStep (aim - 1)
    else ok 0

/-- GOVERNOR_TICK. -/
def execGovernorTick (surplus : Int) (railLow : Bool) (s : State) : Host.Outcome State Fault Refusal := 
  ((s.governor surplus).when (railLow && s.inTether) State.railStep).done

/-- AON_RAIL_LOSS: below 2.70 V for 100 µs. -/
def execAonRailLoss (s : State) : Host.Outcome State Fault Refusal := s.powerLost.done

end Sys2Proof.Machine
end

