-- ==== Sys2Proof/Machine/Resets.lean ====
section
/-! DEFINITION. Per-function resets, global resets, the watchdog and test unlock (spec/13, R298 to R305, R315). -/

namespace Sys2Proof.Machine

/-! ### Per-function resets (R298 to R300) -/

/-- The function's bit reads 1 until its reset ends. -/
def State.rstBusy (s : State) (f : Func) (b : Bool) : State := s.when (s.on .core) fun s => s.setFlag (funcBusy f).1 (funcBusy f).2 b

/-- The domain whose being off voids the reset bit (R300), and the die a reset word must reach. -/
def funcRuns (s : State) : Func → Bool
  | .port n | .modem n => s.portWritable n
  | .lane _ | .spool _ | .od | .pmbus => s.on .core
  | .slice _ | .seq => s.on .meas && !s.linkIsDown .md
  | .tw | .te | .dec | .ring => s.on .trunk && !s.linkIsDown .td

/-- An entry in work on slice `i` is abandoned: a regular one is requeued, an injected one delivers nothing; each counts once
(R86, R299). -/
def State.sliceDrop (s : State) (i : Nat) : State :=
  let x := s.slice i
  let s := s.setSlice i { x with conv := none, ended := none, resv := none, half := none }
  let back (e ch : Nat) (s : State) : State :=
    if s.seqRunning then s.requeue e ch else s.count Reg.REQUEUE_COUNT Reg.SEQ_EVENT Fld.SEQ_EVENT_CTR_SAT 1
  let s := s.when x.half.isSome State.unpaired
  let one (c : Conv) (s : State) : State :=
    if c.inj then
      ({ s with inj := { s.inj with left := s.inj.left - 1 } }).count Reg.REQUEUE_COUNT Reg.SEQ_EVENT Fld.SEQ_EVENT_CTR_SAT 1
    else back c.entry c.ch s
  let s := match x.ended with
    | some c => if c.half = 1 ∨ c.half = 3 then s.unpaired else one c s
    | none => s
  let s := match x.ended with
    | some c => if c.closes && !s.closing c.ch then s.discardAccs fun a => a == c.ch else s
    | none => s
  let s := match x.conv with | some c => one c s | none => s
  match x.conv, x.resv with
  | none, some (e, ch) => back e ch s
  | _, _ => s

/-- The reset of slice `i` begins (R112, R299). An entry it was given and had not begun goes back to the sequence's others, which
keep their order (R86), one of which takes it at once if it is idle. DESIGN CHOICE, log entry 83: a SLICE_TRIM write that waits for its boundary
is dropped with the staged values, and a restore record that waits for it is not (R112). -/
def State.sliceReset (s : State) (i : Nat) : State :=
  let s := (s.sliceDrop i).disarm (.recovery i)
  let x := s.slice i
  let s := match x.injNext with
    | some e =>
      let p := s.inj.pool
      { s with inj := { s.inj with pool := p.filter (fun f => decide (f < e)) ++ e :: p.filter (fun f => decide (e < f)) } }
    | none => s
  let s := s.setSlice i { s.slice i with inReset := true, injNext := none, injDue := false, injIdle := false,
                                         holding := x.conducting, holdLeft := if x.conducting then holdLen else 0, trimReq := none }
  let s := s.unstage i
  (s.when (s.offline == i) State.abandonRun).injHand.injCheckDone

/-- The sequencer's reset begins (R92, R299). DESIGN CHOICE, log entry 83: staged values of a run that had ended stay, and if the new run is
rejected the slice rejoins with them (R112). -/
def State.seqReset (s : State) : State :=
  let s := s.seqClear
  let s := { s with seq := { s.seq with inReset := true } }
  (s.lower Reg.SEQ_STATUS Fld.SEQ_STATUS_REF_NOT_READY).abandonRun

/-- The reset of spool engine `k` begins: its pointers become 0 and its status clears (R94, R298, R299). -/
def State.spoolReset (s : State) (k : Nat) : State :=
  (({ s with spoolRst := vset s.spoolRst k true }.setReg (Reg.SPOOL_WP k) 0).setReg (Reg.SPOOL_RP k) 0).setReg (Reg.SPOOL_STATUS k) 0

/-- The PMBus master's reset: a wake or a PWR_RUN_SET sequence in progress counts a PMBus failure, which ends its attempt (R290, R299);
between two attempts there is none to end. So does a change of VCORE in progress, whose value in force is sent again once the reset is
over (R287). -/
def State.pmbusReset (s : State) : State :=
  let s := s.onBus []
  let s := s.when (s.pwr.wake.isSome || s.pwr.vcoreNow.isSome) fun s => s.raise Reg.PWR_EVENT Fld.PWR_EVENT_PMBUS_ERR
  let s := match s.pwr.wake with
    | none => s
    | some w => if w.phase = WakePhase.retry then s else (s.attemptFail 3 (w.pages.head?.getD 0)).modeCheck
  s.vcoreFail

/-- A write of 1 to a function's reset bit; none where its domain is off (R300). -/
def State.funcReset (s : State) (f : Func) : State :=
  if !funcRuns s f then s
  else
    let t := Timer.funcReset f
    let b := s.rstBusy f true
    match f with
    | .port n => b.portReset n
    | .modem n => (b.modemReset n).arm t s.toBit
    | .lane n => s.laneReset n
    | .slice i => b.sliceReset i
    | .seq => b.seqReset
    | .spool k => (b.spoolReset k).arm t 24
    | .tw => ((b.trxReset .tw).arm t (usCk 200)).gaspCheck
    | .te => ((b.trxReset .te).arm t (usCk 200)).gaspCheck
    | .dec => b.decReset.arm t (usCk 100)
    | .ring => (b.ringReset.arm t (msCk 1)).gaspCheck
    | .od => b.odReset.arm t (msCk 1)
    | .pmbus => b.pmbusReset.arm t (usCk 100)

/-- What ends with a timed reset. -/
def State.funcEnd (s : State) (f : Func) : State :=
  let s := s.rstBusy f false
  match f with
  | .modem n => s.modemResetEnd n
  | .spool k => { s with spoolRst := vset s.spoolRst k false }
  | .tw => s.setTrunk .tw { s.trunk .tw with inReset := false }
  | .te => s.setTrunk .te { s.trunk .te with inReset := false }
  | .ring => { s with ring := { s.ring with inReset := false } }
  | .od => { s with od := { s.od with inReset := false } }
  | _ => s

/-- PORT. -/
def execRstPort (n : PortId) (s : State) : Host.Outcome State Fault Refusal :=
  (s.hostRow Reg.RST_FUNC0 false fun s => s.funcReset (.port n)).done

/-- MODEM. -/
def execRstModem (n : PortId) (s : State) : Host.Outcome State Fault Refusal :=
  (s.hostRow Reg.RST_FUNC0 false fun s => s.funcReset (.modem n)).done

/-- LANE. -/
def execRstLane (n : LaneId) (s : State) : Host.Outcome State Fault Refusal :=
  (s.hostRow Reg.RST_FUNC1 false fun s => s.funcReset (.lane n)).done

/-- SLICE. -/
def execRstSlice (i : SliceId) (s : State) : Host.Outcome State Fault Refusal :=
  (s.hostRow Reg.RST_FUNC1 false fun s => s.funcReset (.slice i)).done

/-- SEQ. -/
def execRstSeq (s : State) : Host.Outcome State Fault Refusal :=
  (s.hostRow Reg.RST_FUNC1 false fun s => s.funcReset .seq).done

/-- SPOOL. -/
def execRstSpool (k : SpoolId) (s : State) : Host.Outcome State Fault Refusal :=
  (s.hostRow Reg.RST_FUNC1 false fun s => s.funcReset (.spool k)).done

/-- TW. -/
def execRstTw (s : State) : Host.Outcome State Fault Refusal :=
  (s.hostRow Reg.RST_FUNC1 false fun s => s.funcReset .tw).done

/-- TE. -/
def execRstTe (s : State) : Host.Outcome State Fault Refusal :=
  (s.hostRow Reg.RST_FUNC1 false fun s => s.funcReset .te).done

/-- DEC. -/
def execRstDec (s : State) : Host.Outcome State Fault Refusal :=
  (s.hostRow Reg.RST_FUNC1 false fun s => s.funcReset .dec).done

/-- RING. -/
def execRstRing (s : State) : Host.Outcome State Fault Refusal :=
  (s.hostRow Reg.RST_FUNC1 false fun s => s.funcReset .ring).done

/-- OD. -/
def execRstOd (s : State) : Host.Outcome State Fault Refusal :=
  (s.hostRow Reg.RST_FUNC1 false fun s => s.funcReset .od).done

/-- PMBUS. -/
def execRstPmbus (s : State) : Host.Outcome State Fault Refusal :=
  (s.hostRow Reg.RST_FUNC1 false fun s => s.funcReset .pmbus).done

/-- FUNC_RESET_END: a reset that lasts to a tick or a frame boundary ends there, any other at its deadline (R299). -/
def execFuncResetEnd (f : Func) (s : State) : Host.Outcome State Fault Refusal :=
  (match f with
   | .port n => s.portResetEnd n
   | .slice i => s.sliceResetEnd i
   | .seq => s.seqResetEnd
   | _ => s.fall (.funcReset f) fun s => s.funcEnd f).done

/-! ### Test unlock (R315) -/

/-- A write of TEST_UNLOCK: the pair of keys within 1 ms with TEST_EN high, or 0. -/
def State.testUnlock (s : State) (v : Word) : State :=
  let first := s.testKey
  let s := { s with testKey := if v = 0x3C3C then some (s.hostNo, s.ck) else none }
  if v = 0 then s.setUnlocked false
  else if v = 0xC3C3 then
    match first with
    | some (n, t) => s.when (s.testEn && n + 1 == s.hostNo && decide (s.ck ≤ t + msCk 1)) fun s => s.setUnlocked true
    | none => s
  else s

/-- TEST_UNLOCK: a host write of it, in a transaction of its own. -/
def execTestUnlock (v : Word) (s : State) : Host.Outcome State Fault Refusal :=
  (s.hostRow Reg.TEST_UNLOCK false fun s => s.testUnlock v).done

/-- TEST_EN_FALL. -/
def execTestEnFall (s : State) : Host.Outcome State Fault Refusal := ({ s with testEn := false }.setUnlocked false).done

/-! ### Global resets (R301 to R304, R309) -/

/-- A power-on reset samples the straps XSEL1:XSEL0, whose levels the board fixes: a free value (R275; log entry 8). -/
def State.powerOn (s : State) : State :=
  let (w, s) := s.free
  (s.resetTo 1 (w.toNat % 4)).resetWake

/-- POR; in Tether mode AON does not run from VSYS and no power-on reset is asserted (R293, R303). -/
def execPor (s : State) : Host.Outcome State Fault Refusal := (if s.inTether then s else s.powerOn).done

/-- The pin RESETn is low; in Tether mode that is latched (R303). -/
def State.resetnLow (s : State) : State := { s with pwr := { s.pwr with resetLow := true, resetHeld := s.pwr.resetHeld || s.inTether } }

/-- RESETN: held low for 1 µs; latched in Tether mode, and without effect while the part has no power (R303). -/
def execResetn (s : State) : Host.Outcome State Fault Refusal :=
  (if s.pwr.off || s.inTether then s.resetnLow else (s.resetnLow.globalReset 2).resetWake).done

/-- RESETN_RELEASE: high for 1 µs; the wake of a global reset that waited for it starts (R303). -/
def execResetnRelease (s : State) : Host.Outcome State Fault Refusal :=
  (let s' := { s with pwr := { s.pwr with resetLow := false, resetWait := false } }
   if s.pwr.resetWait then s'.resetWake else s').done

/-- A write of RST_SYS with the KEY and FULL (R304). -/
def fullKey (v : Word) : Bool := Fld.RST_SYS_KEY.get v == 0x5E7A && Fld.RST_SYS_FULL.on v

/-- FULL: the write's reset acts at the rise of HCSn. -/
def execFullReset (v : Word) (s : State) : Host.Outcome State Fault Refusal :=
  (if s.hostLive && !s.inTether && fullKey v then (s.globalReset 4).resetWake else s.hostRow Reg.RST_SYS false fun s => s).done

/-- VSYS returns: where the part is off, POR releases (R303); in Tether mode with a RESETn latched the wake is a global reset. -/
def State.vsysBack (s : State) : State :=
  if s.pwr.off then s.powerOn
  else if s.inTether && s.pwr.resetHeld && !s.flag Reg.BD_STATUS Fld.BD_STATUS_VSYS_OK then (s.globalReset 2).resetWake
  else s.vsysReturn

/-- VSYS_RETURN. -/
def execVsysReturn (s : State) : Host.Outcome State Fault Refusal := s.vsysBack.done

/-! ### Watchdog (R305) -/

/-- The watchdog counts: EN set and CORE on. -/
def State.wdtRuns (s : State) : Bool := s.on .core && s.flag Reg.WDT_CTL Fld.WDT_CTL_EN

/-- WDT_CTL.TIMEOUT as it acts, in ms. -/
def State.wdtMs (s : State) : Nat := clampNat 10 60000 (s.fld Reg.WDT_CTL Fld.WDT_CTL_TIMEOUT)

/-- WDT_CTL.EN is written 1. -/
def State.wdtStart (s : State) : State :=
  if s.flag Reg.WDT_CTL Fld.WDT_CTL_EN then s else { s.raise Reg.WDT_CTL Fld.WDT_CTL_EN with wdtFrom := s.ck }

/-- WDT_ENABLE; the guard lock refuses a change (R51). -/
def execWdtEnable (s : State) : Host.Outcome State Fault Refusal := 
  (s.hostRow Reg.WDT_CTL (!s.flag Reg.WDT_CTL Fld.WDT_CTL_EN) State.wdtStart).done

/-- A write of WDT_KICK. -/
def State.wdtKick (s : State) (v : Word) : State :=
  if !s.wdtRuns then s
  else if v = 0xA5 then { s with wdtFrom := s.ck }
  else s.raise Reg.WDT_EVENT Fld.WDT_EVENT_BAD_KICK

/-- WDT_KICK. -/
def execWdtKick (v : Word) (s : State) : Host.Outcome State Fault Refusal :=
  (s.hostRow Reg.WDT_KICK false fun s => s.wdtKick v).done

/-- EARLY: the count reaches half of TIMEOUT. -/
def execWdtEarly (s : State) : Host.Outcome State Fault Refusal :=
  (s.when s.wdtRuns fun s => (s.passTo (s.wdtFrom + msCk s.wdtMs / 2)).raise Reg.WDT_EVENT Fld.WDT_EVENT_EARLY).done

/-- The watchdog expires. -/
def State.wdtExpire (s : State) : State :=
  let s := s.passTo (s.wdtFrom + msCk s.wdtMs)
  let act := s.flag Reg.WDT_CTL Fld.WDT_CTL_ACTION
  let s := s.log .fatal 0x0002 0x00 0 (BitVec.ofNat 32 s.wdtMs) (BitVec.ofNat 32 (b2n act)) 0
  if act then
    let s := (s.guardHold).guardFailsafe
    { s with wdtFrom := s.ck, pwr := { s.pwr with faultLow := true } }.raise Reg.WDT_EVENT Fld.WDT_EVENT_EXPIRED
  else (s.globalReset 3).resetWake

/-- WATCHDOG. -/
def execWatchdog (s : State) : Host.Outcome State Fault Refusal := (s.when s.wdtRuns State.wdtExpire).done

end Sys2Proof.Machine
end

