-- ==== Sys2Proof/Machine/RegRead.lean ====
section
/-! DEFINITION. What a read of a register returns (R8, R37, R39, R40): the fields that show state held elsewhere, 64-bit
pairs, and the clearing read of an RC register. -/

namespace Sys2Proof.Machine

/-- The index at which an address formula gives `a`. -/
def regIdx (f : Nat → Nat) (n a : Nat) : Option Nat := (List.range n).find? fun i => f i == a

/-! ### Views, block by block -/

/-- Whole seconds from `since` to now. -/
def State.secondsFrom (s : State) (since : Nat) : Nat := (s.ck - since) / secCk 1

/-- Registers of the CD system block whose fields show state held elsewhere (spec/01, spec/02, spec/04). -/
def State.viewSys (s : State) (a : Nat) : Word :=
  let w := s.reg a
  if a = Reg.SYS_DIE_STATUS then
    Fld.SYS_DIE_STATUS_DIE_UP.put (bitsOf (allDies.map s.dieUp)) ||| Fld.SYS_DIE_STATUS_CK_OK.put (bitsOf (allDies.map s.ckOk))
  else if a = Reg.TB_LO then lo32 s.time
  else if a = Reg.TB_HI then hi32 s.time
  else if a = Reg.TB_CTL then Fld.TB_CTL_TB_VALID.put (b2n s.tbValid)
  else if a = Reg.GUARD_STATUS then
    Fld.GUARD_STATUS_COMMIT_BUSY.set (Fld.GUARD_STATUS_LOCKED.set w (b2n s.locked)) (b2n s.commitReq)
  else
    match regIdx Reg.SPOOL_FILL 4 a, regIdx Reg.SPOOL_STATUS 4 a with
    | some k, _ => BitVec.ofNat 32 (s.spoolFill k)
    | none, some k =>
      let w := Fld.SPOOL_STATUS_FULL.set w (b2n (decide (2 ^ (s.spoolGeom k).2 ≤ s.spoolFill k)))
      let w := Fld.SPOOL_STATUS_ABOVE_WM.set w (b2n (decide (s.spoolMark k ≤ s.spoolFill k)))
      Fld.SPOOL_STATUS_ACTIVE.set w (b2n (s.spoolOn k && !vget s.spoolRst k false))
    | none, none => w

/-- Registers of the AON and power block: CORE reads 1 in PWR_RUN_SET (R281), the watchdog's count (R305). -/
def State.viewAon (s : State) (a : Nat) : Word :=
  if a = Reg.PWR_RUN_SET then s.reg a ||| 1
  else if a = Reg.WDT_STATUS then
    if s.wdtRuns then Fld.WDT_STATUS_COUNT.put ((s.ck - s.wdtFrom) / msCk 1) ||| Fld.WDT_STATUS_RUNNING.put 1 else 0
  else s.reg a

/-- The Tail log window (R306). -/
def State.viewLog (s : State) (a : Nat) : Word :=
  if a = Reg.LOG_STATUS then Fld.LOG_STATUS_FILL.set (s.reg a) s.logFill
  else if Reg.LOG_ENTRY 0 ≤ a then
    let w := (a - Reg.LOG_ENTRY 0) / 4
    nth (s.logSlot (1024 * s.fld Reg.LOG_PAGE Fld.LOG_PAGE_PAGE + w / 8)) (w % 8) 0
  else s.reg a

/-- SLICE_STATUS of a slice (spec/03). DESIGN CHOICE, log entry 90: an idle slice, which is neither offline nor converting, shows the ROW it
was connected to last: 0 after MEAS powers up, 22 where it has rejoined and not yet converted (R62). -/
def State.sliceStatus (s : State) (i : Nat) : Word :=
  let x := s.slice i
  let ch := match x.conv with | some c => c.ch | none => 0
  Fld.SLICE_STATUS_ROLE.set (Fld.SLICE_STATUS_ROW.set (Fld.SLICE_STATUS_CHANNEL.put ch) (if s.offline = i then 22 else x.row))
    (s.sliceRole i)

/-- Registers of the measurement block (spec/03 to spec/05). -/
def State.viewMeas (s : State) (a : Nat) : Word :=
  let w := s.reg a
  if a = Reg.MAINS_STATUS then Fld.MAINS_STATUS_DEGRADED.set w (b2n s.limp)
  else if a = Reg.REF_STATUS then
    if Fld.REF_STATUS_SETTLING.on w then Fld.REF_STATUS_ELAPSED.set w (min 160 ((s.ck - s.refSince) / msCk 1)) else w
  else if a = Reg.SEQ_STATUS then
    Fld.SEQ_STATUS_REQUEUED.set (Fld.SEQ_STATUS_NEXT.set (Fld.SEQ_STATUS_INJ_RUNNING.set w (b2n (s.inj.phase != .idle)))
      (if s.seq.next < s.seq.list.length then s.seq.next else 0)) s.seq.requeued.length
  else if a = Reg.REEL_STATUS then Fld.REEL_STATUS_ELAPSED.set w (min 4095 (s.secondsFrom s.reel.offlineSince))
  else
    match regIdx Reg.SLICE_STATUS 5 a, regIdx Reg.SLICE_TRIM 5 a, regIdx Reg.SLICE_CAL_STATUS 5 a with
    | some i, _, _ => s.sliceStatus i
    | none, some i, _ => s.trimInForce i
    | none, none, some i => Fld.SLICE_CAL_STATUS_STALE.set w (b2n (s.calStale i))
    | none, none, none => w

/-- Registers of loop die `d`'s common block (R145, R148). -/
def State.viewLd (s : State) (d a : Nat) : Word :=
  if a = Reg.LD_SUMMARY d then s.ldSummary d
  else if a = Reg.KEEPER_STATUS d then
    Fld.KEEPER_STATUS_PORTS.set (Fld.KEEPER_STATUS_HB_AGE.set (s.reg a) (s.keeper d).age)
      (bitsOf ((List.range 4).map fun i => s.flag (Reg.PORT_STATUS (4 * d + i)) Fld.PORT_STATUS_KEEPER))
  else s.reg a

/-- CK cycles of the symbol a receiver now sees: SF64 in search and preamble, SF32 in the header, then the frame's SF. -/
def State.symbolCk (s : State) (t : Trx) : Nat :=
  match s.rxState t with
  | 3 => 32 * 32
  | 4 => 32 * (8 * 2 ^ s.fld (Reg.TRX_STATUS t.idx) Fld.TRX_STATUS_RX_SF)
  | _ => 32 * 64

/-- Registers of a transceiver (spec/10). -/
def State.viewTrx (s : State) (t : Trx) (a : Nat) : Word :=
  let s := s.refTake t
  let i := t.idx
  let x := s.trunk t
  let code (sf : Nat) : Nat := chipWord (spreadCode sf s.opCode)
  if a = Reg.TRX_STATUS i then
    let w := Fld.TRX_STATUS_CODE_INDEX.set (s.reg a) s.opCode
    let w := Fld.TRX_STATUS_TX_PENDING.set w (b2n (!x.queue.isEmpty))
    let clip := match x.clipAt with
      | some c => decide (s.ck < c + s.symbolCk t)
      | none => false
    Fld.TRX_STATUS_CLIP.set w (b2n clip)
  else if a = Reg.TRX_CODE8_16 i then BitVec.ofNat 32 (code 0 + code 1 * 0x100)
  else if a = Reg.TRX_CODE32 i then BitVec.ofNat 32 (code 2)
  else if a = Reg.TRX_CODE64_LO i then BitVec.ofNat 32 (code 3)
  else if a = Reg.TRX_CODE64_HI i then BitVec.ofNat 32 (code 3 / 2 ^ 32)
  else s.reg a

/-- A body of `len` bytes as data word `w`: bytes beyond its end read as 0. -/
def bodyWord (body : List Byte) (w : Nat) : Word := wordOfBytes (sliceBytes body (4 * w) 4)

/-- RING_RX_HDR of a message (spec/11). -/
def RxMsg.hdrWord (m : RxMsg) : Word :=
  let x := readMsg m.bytes
  BitVec.ofNat 32 (x.typ * 0x1000000 + x.src * 0x10000 + x.dst * 0x100 + x.distance % 128 * 2 + m.port.idx)

/-- RING_RX_LEN of a message. -/
def RxMsg.lenWord (m : RxMsg) : Word :=
  let x := readMsg m.bytes
  BitVec.ofNat 32 (x.seq.toNat * 0x10000 + b2n m.valid * 0x200 + x.body.length % 512)

/-- Registers of the ring link: the head of the receive queue and the staged body (R271). -/
def State.viewRing (s : State) (a : Nat) : Word :=
  if a = Reg.RING_RX_STATUS then Fld.RING_RX_STATUS_COUNT.put s.ring.rxq.length
  else if Reg.RING_TX_DATA 0 ≤ a ∧ a ≤ Reg.RING_TX_DATA 115 then bodyWord s.ringTxBody ((a - Reg.RING_TX_DATA 0) / 4)
  else
    match s.ring.rxq with
    | [] => s.reg a
    | m :: _ =>
      if a = Reg.RING_RX_HDR then m.hdrWord
      else if a = Reg.RING_RX_LEN then m.lenWord
      else if a = Reg.RING_RX_TIME_LO then lo32 m.stamp
      else if a = Reg.RING_RX_TIME_HI then hi32 m.stamp
      else if Reg.RING_RX_DATA 0 ≤ a ∧ a ≤ Reg.RING_RX_DATA 115 then
        bodyWord (readMsg m.bytes).body ((a - Reg.RING_RX_DATA 0) / 4)
      else s.reg a

/-- Registers of lane `n`: WAITING (R175); no activation is in progress between commands, so RUNNING is 0. -/
def State.viewLane (s : State) (n a : Nat) : Word :=
  if a = Reg.LANE_STATUS n then Fld.LANE_STATUS_WAITING.set (s.reg a) (b2n (s.actQueue.contains n)) else s.reg a

/-- Registers of the engine common block. -/
def State.viewEngine (s : State) (a : Nat) : Word :=
  if a = Reg.LANE_SUMMARY then s.laneSummary
  else if a = Reg.ENGINE_STATUS then Fld.ENGINE_STATUS_ACTIVE_LANES.put (bitsOf ((List.range 16).map s.laneActive))
  else s.reg a

/-- OD_SESSION of a trunk slot (R213). -/
def State.odSession (s : State) (i : Nat) : Word :=
  match vget s.od.trunk i none with
  | none => 0
  | some x =>
    let node := match x.path with | .trunk src => src.toNat | _ => 0
    Fld.OD_SESSION_VALID.put 1 ||| Fld.OD_SESSION_LEVEL.put x.level |||
      Fld.OD_SESSION_IDLE.put (min 255 (s.secondsFrom x.last)) ||| Fld.OD_SESSION_NODE.put node

/-- Registers of the dictionary block: keys read 0 (R210). -/
def State.viewOd (s : State) (a : Nat) : Word :=
  if a = Reg.OD_KEY_STATUS then Fld.OD_KEY_STATUS_LOADED.put (bitsOf ([1, 2, 3].map s.keyLoaded))
  else
    match regIdx Reg.OD_SESSION 16 a, regIdx Reg.OD_KEY 8 a with
    | some i, _ => s.odSession i
    | none, some _ => 0
    | none, none => s.reg a

/-- Registers of the test block: LK fields read 0 without test unlock (R8, R315). -/
def State.viewTest (s : State) (a : Nat) : Word := if a = Reg.TEST_UNLOCK || s.unlocked then s.reg a else 0

/-- The voltage on BALLAST in 10 mV, `n` cycles after a power-fail warning at elapsed time `from_` that found it at `v`: BD feeds VSYS from it and
does not charge it, so it is free and never rises (R332; log entry 79). -/
def holdupFalling (v from_ : Nat) : Nat → Nat
  | 0 => v
  | n + 1 => (Config.holdup (from_ + n + 1)).toNat % (holdupFalling v from_ n + 1)

/-- What BD_STATUS.HOLDUP shows in 10 mV: in the cycle of a global reset 0, its Reset column (R11), at a power-fail warning what the warning
found, from there on a voltage that falls while the warning stands, and else a free one of at most 16.5 V (R332; log entry 79). -/
def State.holdup (s : State) : Nat :=
  let v := min 1650 (s.fld Reg.BD_STATUS Fld.BD_STATUS_HOLDUP)
  if s.pwr.holdupAt = some s.ck then v
  else if s.flag Reg.BD_STATUS Fld.BD_STATUS_PFW then let t := s.pwr.holdupAt.getD 0; holdupFalling v t (s.ck - t)
  else (Config.holdup s.ck).toNat % 1651

/-- Registers of BD. -/
def State.viewBd (s : State) (a : Nat) : Word :=
  if a = Reg.BD_STATUS then Fld.BD_STATUS_HOLDUP.set (s.reg a) s.holdup else s.reg a

/-- What the ball ATB`k` is connected to: a die and the number of its node; none while it is high impedance (R316). -/
def State.atb (s : State) (k : Fin 2) : Option (Die × Nat) :=
  let w := s.reg Reg.ATB_SEL
  let (en, die, node) :=
    if k = 0 then (Fld.ATB_SEL_EN0.on w, Fld.ATB_SEL_DIE0.get w, s.fld Reg.ATB_NODE0 Fld.ATB_NODE0_NODE0)
    else (Fld.ATB_SEL_EN1.on w, Fld.ATB_SEL_DIE1.get w, Fld.ATB_SEL_NODE1.get w)
  let d := nth allDies die .cd
  if s.unlocked && en && s.dieUp d then some (d, node) else none

/-- What a register shows: the word a read captures. -/
def State.view (s : State) (a : Nat) : Word :=
  let hi := a / 0x10000
  if hi = 0 then s.viewSys a
  else if hi = 0x0E then s.viewAon a
  else if hi = 0x0F then s.viewLog a
  else if hi = 0x10 then s.viewMeas a
  else if 0x30 ≤ hi ∧ hi < 0x34 then s.viewLd (hi - 0x30) a
  else if hi = 0x40 then s.viewTrx .tw a
  else if hi = 0x41 then s.viewTrx .te a
  else if hi = 0x44 then s.viewRing a
  else if hi = 0x50 then s.viewBd a
  else if hi = 0x60 then s.viewLane (a / 0x1000 % 16) a
  else if hi = 0x61 then s.viewEngine a
  else if hi = 0x70 then s.viewOd a
  else if hi = 0xF0 then s.viewTest a
  else s.reg a

/-! ### Pairs and clearing reads (R37, R39, R41) -/

/-- Whether a register is the low word of a 64-bit pair; its high word lies 4 bytes above it (R37). -/
def pairLow (a : Nat) : Bool :=
  match regBlock a with
  | none => false
  | some b =>
    let off := a - b.base
    if b.base = 0 then off == 0x08 || off == 0x40 || off == 0x48
    else if b.base = 0x0E0000 then off == 0x18
    else if b.base = 0x100000 then decide (0x1114 ≤ off) && decide (off < 0x11B4) && (off - 0x1114) % 32 == 0
    else if 0x200000 ≤ b.base ∧ b.base < 0x300000 then off == 0x1020 || off == 0x4C4
    else if b.base = 0x400000 ∨ b.base = 0x410000 then off == 0x40 || off == 0x48 || off == 0x58
    else if b.base = 0x440000 then off == 0x190
    else if 0x600000 ≤ b.base ∧ b.base < 0x610000 then off == 0x20
    else false

/-- Whether a register is the high word of a pair. -/
def pairHigh (a : Nat) : Bool := decide (4 ≤ a) && pairLow (a - 4)

/-- The bits of an RC register that a read clears (R8). -/
def rcMask (a : Nat) : Word := match findReg a with | some (_, d) => d.rc | none => 0

/-- A host read captures a register: the word, with the high word of a pair from its latch, and the state after the low
word's read has filled the latch (R37). -/
def State.readWord (s : State) (a : Nat) : Word × State :=
  match peekOf a with
  | some x => (s.reg x, s)
  | none =>
    if pairHigh a then ((lookupKey s.latches a).getD 0, s)
    else if pairLow a then (s.view a, { s with latches := insertKey s.latches (a + 4) (s.view (a + 4)) })
    else (s.view a, s)

/-- The clear of a captured RC register: the bits that read as 1 (R39). -/
def State.clearRc (s : State) (a : Nat) (w : Word) : State :=
  if (w &&& rcMask a) = 0 then s else s.setReg a (s.reg a &&& ~~~(w &&& rcMask a))

/-- What a reader other than the host sees: the PEEK path, pairs in one piece (R41). -/
def State.peek (s : State) (a : Nat) : Word := s.view ((peekOf a).getD a)

end Sys2Proof.Machine
end

