-- ==== Sys2Proof/Machine/RegWrite.lean ====
section
/-! DEFINITION. What an accepted write of a register does (R8, R42, R44, R51): the stored word under masks and the guard lock,
and, block by block, the actions of the registers that have some. The dictionary window's commands are in
Machine/Dictionary.lean. -/

namespace Sys2Proof.Machine

/-! ### The word a write stores -/

/-- A write as it reaches a register: its address, the word held before, the word after masks and lock, the bits written, the
W1P bits that act, and the word as sent. -/
structure RegW where
  a    : Nat
  old  : Word
  new  : Word
  mask : Word
  act  : Word
  sent : Word
  deriving DecidableEq, Repr

/-- The bits of a register that this write changes (R8, R42); CORE ignores writes in PWR_RUN_SET and bits 0 and 3 in
PWR_STANDBY_SET (R281). -/
def State.writeMask (s : State) (d : RegDesc) (a : Nat) (v : Word) : Word :=
  let rw := if a = Reg.PWR_RUN_SET then d.rw &&& ~~~(1 : Word) else if a = Reg.PWR_STANDBY_SET then d.rw &&& 0x36 else d.rw
  (if d.m16 then (v >>> 16) &&& rw else rw) ||| (if s.unlocked then d.lk else 0)

/-- The W1P bits that act (R8, R42). -/
def actBits (d : RegDesc) (v : Word) : Word := if d.m16 then (v >>> 16) &&& v &&& d.w1p else v &&& d.w1p

/-- Bits a write of 0 leaves: GUARD_CTL.LOCK and WDT_CTL.EN (R51, R305). -/
def stickyBits (a : Nat) : Word := if a = Reg.GUARD_CTL ∨ a = Reg.WDT_CTL then 1 else 0

/-- A write of `v` over the word `old`; true if the guard lock keeps its G fields as they are (R51). -/
def State.regWord (s : State) (d : RegDesc) (a : Nat) (old v : Word) : RegW × Bool :=
  let m := s.writeMask d a v
  let merge (m : Word) : Word := ((old &&& ~~~m) ||| (v &&& m)) ||| (old &&& stickyBits a)
  let refused := s.locked && ((merge m ^^^ old) &&& d.g) != 0
  let m := if refused then m &&& ~~~d.g else m
  (⟨a, old, merge m, m, actBits d v, v⟩, refused)

/-- Whether a one-bit field rises, or falls, with a write. -/
def RegW.rises (w : RegW) (f : Fld) : Bool := !f.on w.old && f.on w.new
def RegW.falls (w : RegW) (f : Fld) : Bool := f.on w.old && !f.on w.new

/-- The stored word, with a field left as it was. -/
def RegW.except (w : RegW) (f : Fld) : Word := f.set w.new (f.get w.old)

/-! ### CD system block -/

/-- TB_CTL.LOAD: TB_SET is captured, to be loaded at the first TB tick at least 24 CK later (R46). DESIGN CHOICE, log entry 64: a LOAD
accepted while one waits takes its place, with its own value and due time. -/
def State.tbCapture (s : State) : State :=
  { s with tbLoad := some (pair64 (s.reg Reg.TB_SET_HI) (s.reg Reg.TB_SET_LO), s.ck + 24) }

/-- TB_CTL.INVALIDATE. -/
def State.tbInvalid (s : State) : State := { s.noteJump with tbValid := false }

/-- GUARD_CTL.CFG_COMMIT: COMMIT_BUSY; during a commit scan it restarts it at the following tick (R48). -/
def State.cfgCommit (s : State) : State := { s with commitReq := true, commitRun := false }

/-- A write of GUARD_UNLOCK: the second key in the very next host transaction, within 1 ms, clears LOCK (R51). -/
def State.guardUnlock (s : State) (v : Word) : State :=
  let key := Fld.GUARD_UNLOCK_KEY.get v
  let first := s.guardKey
  let s := { s.setReg Reg.GUARD_UNLOCK (Fld.GUARD_UNLOCK_KEY.put key) with
             guardKey := if key = 0x6A7E then some (s.hostNo, s.ck) else none }
  match first with
  | some (n, t) =>
    s.when (key == 0x9581 && n + 1 == s.hostNo && decide (s.ck ≤ t + msCk 1)) fun s => s.lower Reg.GUARD_CTL Fld.GUARD_CTL_LOCK
  | none => s

/-- The functions of RST_FUNC0 and RST_FUNC1, each at its bit (R299). -/
def resetFuncs0 : List (Nat × Func) :=
  (List.finRange 16).map (fun n => (n.val, Func.port n)) ++ (List.finRange 16).map (fun n => (16 + n.val, Func.modem n))
def resetFuncs1 : List (Nat × Func) :=
  (List.finRange 16).map (fun n => (n.val, Func.lane n)) ++ (List.finRange 5).map (fun i => (16 + i.val, Func.slice i)) ++
    [(21, Func.seq)] ++ (List.finRange 4).map (fun k => (22 + k.val, Func.spool k)) ++
    [(26, .tw), (27, .te), (28, .dec), (29, .ring), (30, .od), (31, .pmbus)]

/-- Every function whose bit is written 1 is reset. -/
def State.resetBits (s : State) (fs : List (Nat × Func)) (act : Word) : State :=
  fs.foldl (fun s p => s.when (act.getLsbD p.1) fun s => s.funcReset p.2) s

/-- SPOOL_CTL: EN rises through the checks of R93, and falls at once. -/
def State.putSpoolCtl (s : State) (k : Nat) (w : RegW) : State :=
  if w.rises Fld.SPOOL_CTL_EN then (s.setReg w.a (w.except Fld.SPOOL_CTL_EN)).spoolEnable k else s.setReg w.a w.new

/-- Registers of the CD system block. -/
def State.putSys (s : State) (w : RegW) : State :=
  let st := s.setReg w.a w.new
  if w.a = Reg.TB_CTL then
    (s.when (Fld.TB_CTL_INVALIDATE.on w.act) State.tbInvalid).when (Fld.TB_CTL_LOAD.on w.act) State.tbCapture
  else if w.a = Reg.GUARD_CTL then st.when (Fld.GUARD_CTL_CFG_COMMIT.on w.act) State.cfgCommit
  else if w.a = Reg.GUARD_UNLOCK then s.guardUnlock w.sent
  else if w.a = Reg.RST_FUNC0 then s.resetBits resetFuncs0 w.act
  else if w.a = Reg.RST_FUNC1 then s.resetBits resetFuncs1 w.act
  else if w.a = Reg.RST_SYS then if fullKey w.sent then { s with pwr := { s.pwr with fullReq := true } } else s
  -- DESIGN CHOICE, log entry 83: of EXPORT and RESTORE in one write the export is taken first, and the restore is refused with BUSY (R122).
  else if w.a = Reg.CAL_BLOCK_CTL then
    (s.when (Fld.CAL_BLOCK_CTL_EXPORT.on w.act) State.calSaveReq).when (Fld.CAL_BLOCK_CTL_RESTORE.on w.act) State.calLoad
  else if Reg.CAL_STAGE 0 ≤ w.a ∧ w.a ≤ Reg.CAL_STAGE 255 then if s.calBusy then s else st
  else
    match regIdx Reg.SPOOL_CTL 4 w.a with
    | some k => s.putSpoolCtl k w
    | none => st

/-! ### AON, log and test -/

/-- PWR_CTL: IDLE_EN shows in STATE; requests; FAULT_CLR (R280, R282, R290). -/
def State.putPwrCtl (s : State) (w : RegW) : State :=
  let s := s.setReg w.a w.new
  let s := s.when (s.pwrState == 0 || s.pwrState == 1) fun s => if s.pwrState = s.runCode then s else s.setPwrState s.runCode
  let s := s.when (Fld.PWR_CTL_FAULT_CLR.on w.act) State.faultClr
  s.entryWrite (Fld.PWR_CTL_STANDBY.on w.act) (Fld.PWR_CTL_HIBERNATE.on w.act)

/-- PWR_VCORE: what the regulator answers is free here: whether it acknowledges, its STATUS_WORD, PGOOD and READ_VOUT (log entry 8). -/
def State.putVcore (s : State) (w : RegW) : State :=
  let (x, s) := s.free
  let (y, s) := s.free
  let answer (cmd : Nat) (v : Word) : PmRead := [s.pmbusSends cmd (leBytes 2 v.toNat)]
  s.vcoreChange (BitVec.ofNat 16 (Fld.PWR_VCORE_REQ_MV.get w.new))
    { sent := x.getLsbD 16, polls := [{ status := answer 0x79 x, pgood := y.getLsbD 16, vout := answer 0x8B y }], ended := true }

/-- Registers of the AON and power block. -/
def State.putAon (s : State) (w : RegW) : State :=
  let st := s.setReg w.a w.new
  if w.a = Reg.PWR_CTL then s.putPwrCtl w
  else if w.a = Reg.PWR_RUN_SET then if w.mask = 0 then s else s.runSetWrite w.new
  else if w.a = Reg.PWR_ALARM_HI then s.alarmArm w.new
  else if w.a = Reg.PWR_VCORE then if w.mask = 0 then s else s.putVcore w
  else if w.a = Reg.PAD_RELEASE then s.padRelease w.act
  else if w.a = Reg.CLK_CTL then st.when (Fld.CLK_CTL_XTAL_RETRY.on w.act) State.xtalRetry
  else if w.a = Reg.TETHER_CFG then if w.new = w.old then s else st.copyTether
  else if w.a = Reg.WDT_CTL then
    if w.rises Fld.WDT_CTL_EN then (s.setReg w.a (w.except Fld.WDT_CTL_EN)).wdtStart else st
  else if w.a = Reg.WDT_KICK then s.wdtKick w.new
  else st

/-- The Tail log's registers. -/
def State.putLog (s : State) (w : RegW) : State :=
  let st := s.setReg w.a w.new
  if w.a = Reg.LOG_CTL then st.when (Fld.LOG_CTL_UNFREEZE.on w.act) State.unfreeze
  else if w.a = Reg.LOG_CLEAR then s.when (Fld.LOG_CLEAR_CLEAR.on w.act) State.clearLog
  else st

/-- The test block's registers. -/
def State.putTest (s : State) (w : RegW) : State :=
  if w.a = Reg.TEST_UNLOCK then s.testUnlock (w.sent &&& 0xFFFF) else s.setReg w.a w.new

/-! ### Measurement -/

/-- A channel whose CHAN_CFG or CHAN_AVG changes (R92). DESIGN CHOICE, log entry 73: a register written to another value and back within a
frame counts as changed. -/
def State.chanChanged (s : State) (c : Nat) : State :=
  if s.seq.changed.contains c then s else { s with seq := { s.seq with changed := s.seq.changed ++ [c] } }

/-- Registers of the measurement block. -/
def State.putMeas (s : State) (w : RegW) : State :=
  let st := s.setReg w.a w.new
  if w.a = Reg.REF_CTL then
    (if w.rises Fld.REF_CTL_BUF_EN then st.refStart else if w.falls Fld.REF_CTL_BUF_EN then st.refStop else st).excDrive
  else if w.a = Reg.SEQ_CTL then
    if Fld.SEQ_CTL_STOP.on w.act then st.seqStop else st.when (Fld.SEQ_CTL_START.on w.act) State.seqTrigger
  else if w.a = Reg.INJ_CTL then st.when (Fld.INJ_CTL_START.on w.act) State.injTrigger
  else if w.a = Reg.REEL_CTL then
    iterate 5 (fun i s => s.when ((Fld.REEL_CTL_CAL_START.bit i).on w.act) fun s => s.calRequest i) st
  else
    match regIdx Reg.SLICE_TRIM 5 w.a, regIdx Reg.CHAN_CFG 20 w.a, regIdx Reg.CHAN_AVG 0x4D w.a with
    | some i, _, _ => s.sliceTrimWrite i w.new
    | none, some c, _ => st.when (w.new != w.old) fun s => s.chanChanged c
    | none, none, some c => st.when (w.new != w.old) fun s => s.chanChanged c
    | none, none, none => st

/-! ### Ports -/

/-- PORT_CTL: ROLE through R124 and R125, FS_FORCE, MISWIRE_CLR; the other fields as written. -/
def State.putPortCtl (s : State) (n : Nat) (w : RegW) : State :=
  let s := s.setReg w.a (Fld.PORT_CTL_ROLE.set (w.except Fld.PORT_CTL_FS_FORCE) (Fld.PORT_CTL_ROLE.get w.old))
  let s := if Fld.PORT_CTL_FS_FORCE.on w.new = Fld.PORT_CTL_FS_FORCE.on w.old then s
    else s.when (s.portTakes n) fun s => s.fsForceStore n (Fld.PORT_CTL_FS_FORCE.on w.new)
  let s := if Fld.PORT_CTL_ROLE.get w.mask = 0 then s else s.roleWrite n (Fld.PORT_CTL_ROLE.get w.new)
  s.when (Fld.PORT_CTL_MISWIRE_CLR.on w.act) fun s => s.probeStart n

/-- MODEM_CTL: EN falling ends what the modem does; RX_RELEASE, ABORT, SEND (R164, R165). -/
def State.putModemCtl (s : State) (n : Nat) (w : RegW) : State :=
  let s := s.setReg w.a w.new
  let s := s.when (w.falls Fld.MODEM_CTL_EN) fun s => (s.modemEnd n).modemDeaf n
  let s := s.when (w.falls Fld.MODEM_CTL_TONE_Z && s.roleActive n == 3) fun s => s.modemCut n
  let s := s.when (Fld.MODEM_CTL_RX_RELEASE.on w.act) fun s => s.rxRelease n
  let ab := Fld.MODEM_CTL_ABORT.on w.act
  let s := s.when ab fun s => s.modemAbort n
  s.when (Fld.MODEM_CTL_SEND.on w.act) fun s => s.toneSend n ab

/-- Registers of port `n` and its modem. -/
def State.putPort (s : State) (n : Nat) (w : RegW) : State :=
  let st := s.setReg w.a w.new
  if w.a = Reg.PORT_CTL n then s.putPortCtl n w
  else if w.a = Reg.LOOP_SET n then s.when (s.portTakes n) fun s => s.loopSetStore n w.new
  else if w.a = Reg.LOOP_TRIM n then s.trimWrite n w.new
  else if w.a = Reg.LOOP_TRIM_CTL n then
    (st.when (Fld.LOOP_TRIM_CTL_START.on w.act) fun s => s.trimStart n).when (Fld.LOOP_TRIM_CTL_APPLY.on w.act) fun s => s.trimApply n
  else if w.a = Reg.MODEM_CTL n then s.putModemCtl n w
  else if Reg.MODEM_TX_DATA n 0 ≤ w.a ∧ w.a ≤ Reg.MODEM_TX_DATA n 15 then
    if s.flag (Reg.MODEM_STATUS n) Fld.MODEM_STATUS_TX_BUSY then s else st
  else st

/-- Registers of loop die `d`'s common block. -/
def State.putLd (s : State) (d : Nat) (w : RegW) : State :=
  if w.a = Reg.KEEPER_KICK d then
    if Fld.KEEPER_KICK_KICK.on w.act then s.setKeeper d { s.keeper d with kicked := true } else s
  else s.setReg w.a w.new

/-! ### Lanes -/

/-- The lane commands one write carries: the first of STOP, HOLD, RESUME, RUN acts, each other sets CMD_ERR (R179). -/
def State.laneCmds (s : State) (n : Nat) (act : Word) : State :=
  let asked := [(Fld.LANE_CTL_STOP, State.laneStopCmd), (Fld.LANE_CTL_HOLD, State.laneHoldCmd),
    (Fld.LANE_CTL_RESUME, State.laneResumeCmd), (Fld.LANE_CTL_RUN, State.laneRunCmd)].filter fun p => p.1.on act
  match asked with
  | [] => s
  | p :: rest => (p.2 s n).when (!rest.isEmpty) fun s => s.laneCmdErr n

/-- LANE_CTL: MAN, WARM and FAULT_FS as written, then statistics, latch and commands. -/
def State.putLaneCtl (s : State) (n : Nat) (w : RegW) : State :=
  let s := s.setReg w.a w.new
  let s := s.when (Fld.LANE_CTL_RESET_STATS.on w.act) fun s => s.resetStats n
  let s := s.when (Fld.LANE_CTL_CLEAR_LATCH.on w.act) fun s => s.clearLatch n
  s.laneCmds n w.act

/-- Structure changes only while the lane is STOPPED (R182); LANE_STATUS.ALARM follows the slots the chain has. -/
def State.putStopped (s : State) (n : Nat) (w : RegW) : State :=
  if w.new = w.old then s
  else if s.laneState n = 0 then (s.setReg w.a w.new).when (w.a = Reg.LANE_CFG n) fun s => s.laneAlarm n
  else s.raise (Reg.LANE_EVENT n) Fld.LANE_EVENT_CFG_REFUSED

/-- Registers of lane `n`. -/
def State.putLane (s : State) (n : Nat) (w : RegW) : State :=
  let off := w.a % 0x1000
  if off = 0 then s.putLaneCtl n w
  else if off = 4 ∨ off = 8 then s.putStopped n w
  else if 0x100 ≤ off ∧ off < 0x400 then
    if off % 64 = 0 then s.blkCfgWrite n ((off - 0x100) / 64) w.new
    else if 0x2C ≤ off % 64 then s.putStopped n w
    else s.setReg w.a w.new
  else s.setReg w.a w.new

/-- Registers of the engine common block: lots (R192). -/
def State.putEngine (s : State) (w : RegW) : State :=
  match regIdx Reg.LOT_ID 16 w.a, regIdx Reg.LOT_STATUS 16 w.a with
  | some i, _ => s.lotWrite i w.new
  | none, some i => s.when (Fld.LOT_STATUS_CLEAR.on w.act) fun s => s.lotClear i
  | none, none => s.setReg w.a w.new

/-- Registers of the dictionary block: the window is closed while BUSY (R219); LOAD, then CLEAR (R210). -/
def State.putOd (s : State) (w : RegW) : State :=
  let st := s.setReg w.a w.new
  if w.a = Reg.OD_KEY_CTL then
    (st.when (Fld.OD_KEY_CTL_LOAD.on w.act) State.keyLoad).when (Fld.OD_KEY_CTL_CLEAR.on w.act) State.keyClear
  else if w.a = Reg.OD_REQ ∨ w.a = Reg.OD_LEN ∨ (Reg.OD_DATA 0 ≤ w.a ∧ w.a ≤ Reg.OD_DATA 63) then
    if s.flag Reg.OD_STATUS Fld.OD_STATUS_BUSY then s else st
  else st

/-- Registers of BD: BYPASS_FORCE closes the bypass (R243). -/
def State.putBd (s : State) (w : RegW) : State :=
  (s.setReg w.a w.new).when (w.a == Reg.BD_BYPASS_CTL) fun s => s.bypassCheck.gaspCheck

/-! ### Trunk -/

/-- TRX_CTL: EN rises or falls (R238, R242). -/
def State.putTrxCtl (s : State) (t : Trx) (w : RegW) : State :=
  let s := s.setReg w.a (w.except Fld.TRX_CTL_EN)
  if w.rises Fld.TRX_CTL_EN then s.trxEnable t else if w.falls Fld.TRX_CTL_EN then (s.trxDisable t).gaspCheck else s

/-- Registers of a transceiver. -/
def State.putTrx (s : State) (t : Trx) (w : RegW) : State :=
  if w.a = Reg.TRX_CTL t.idx then s.putTrxCtl t w else s.setReg w.a w.new

/-- A coefficient is stored for the port's next frame boundary (R241). -/
def State.coefWrite (s : State) (t : Trx) (i : Nat) (v : Word) : State :=
  s.setTrunk t { s.trunk t with writes := (s.trunk t).writes ++ [(i, v)] }

/-- Registers of the decoder and pre-distortion block. -/
def State.putDec (s : State) (w : RegW) : State :=
  if w.a = Reg.DPD_CTL then
    let s := (s.setReg w.a w.new).when (Fld.DPD_CTL_RESET_TW.on w.act) fun s => s.dpdReset .tw
    s.when (Fld.DPD_CTL_RESET_TE.on w.act) fun s => s.dpdReset .te
  else
    match regIdx Reg.DPD_COEF_TW 15 w.a, regIdx Reg.DPD_COEF_TE 15 w.a with
    | some i, _ => s.coefWrite .tw i w.new
    | none, some i => s.coefWrite .te i w.new
    | none, none => s.setReg w.a w.new

/-- Registers of the ring link. -/
def State.putRing (s : State) (w : RegW) : State :=
  let st := s.setReg w.a w.new
  if w.a = Reg.RING_CTL then if Fld.RING_CTL_HUNT.on w.new = Fld.RING_CTL_HUNT.on w.old then st else st.huntArm
  else if w.a = Reg.RING_CFG_REQ then
    st.setFld Reg.RING_CFG Fld.RING_CFG_MASTER_MODE (Fld.RING_CFG_REQ_MASTER_MODE.get w.new)
  else if w.a = Reg.RING_TX_CTL then s.when (Fld.RING_TX_CTL_SEND.on w.act) State.ringSend
  else if w.a = Reg.RING_RX_CTL then st.when (Fld.RING_RX_CTL_POP.on w.act) State.ringPop
  else if Reg.RING_TX_DATA 0 ≤ w.a ∧ w.a ≤ Reg.RING_TX_DATA 115 then
    if s.flag Reg.RING_TX_STATUS Fld.RING_TX_STATUS_BUSY then s else st
  else st

/-! ### Every block -/

/-- What an accepted write of a register does. -/
def State.putReg (s : State) (w : RegW) : State :=
  let hi := w.a / 0x10000
  if hi = 0 then s.putSys w
  else if hi = 0x0E then s.putAon w
  else if hi = 0x0F then s.putLog w
  else if hi = 0x10 then s.putMeas w
  else if 0x20 ≤ hi ∧ hi < 0x30 then s.putPort (hi - 0x20) w
  else if 0x30 ≤ hi ∧ hi < 0x34 then s.putLd (hi - 0x30) w
  else if hi = 0x40 then s.putTrx .tw w
  else if hi = 0x41 then s.putTrx .te w
  else if hi = 0x42 then s.putDec w
  else if hi = 0x44 then s.putRing w
  else if hi = 0x50 then s.putBd w
  else if hi = 0x60 then s.putLane (w.a / 0x1000 % 16) w
  else if hi = 0x61 then s.putEngine w
  else if hi = 0x70 then s.putOd w
  else if hi = 0xF0 then s.putTest w
  else s.setReg w.a w.new

/-- A write of a register; true if the guard lock refuses its G fields (R51). One that changes a G field while a commit scan runs restarts
it (R48). An address without a register takes nothing. -/
def State.regWrite (s : State) (a : Nat) (v : Word) : State × Bool :=
  match findReg a with
  | none => (s, false)
  | some (_, d) =>
    let (w, refused) := s.regWord d a (s.reg a) v
    (s.gRow a fun s => (s.overLate a w.mask).putReg w, refused)

/-- A write that waited for its boundary goes in force: the bits it still writes, and its actions (R15). -/
def State.lateWrite (s : State) (l : LateWrite) : State :=
  match findReg l.addr with
  | none => s
  | some (_, d) =>
    let old := s.reg l.addr
    let m := s.writeMask d l.addr l.v &&& ~~~l.off
    let act := actBits d l.v
    let w : RegW := ⟨l.addr, old, ((old &&& ~~~m) ||| (l.v &&& m)) ||| (old &&& stickyBits l.addr), m, act, l.v⟩
    if m = 0 && act = 0 then s else s.gRow l.addr fun s => s.putReg w

/-- A write of `v` to register `a` is accepted: an older late write of the register no longer writes its bits (R15). -/
def State.overWrite (s : State) (a : Nat) (v : Word) : State :=
  match findReg a with
  | none => s
  | some (_, d) => s.overLate a (s.writeMask d a v)

/-- The late write that a write of `v` to register `a` becomes: the guard lock is judged as it is accepted (R51). -/
def State.lateOf (s : State) (a : Nat) (v : Word) : LateWrite :=
  match findReg a with
  | none => ⟨a, v, 0⟩
  | some (_, d) => ⟨a, v, if (s.regWord d a (s.reg a) v).2 then d.g else 0⟩

/-! ### Counters written as they count (R44) -/

/-- The event register and CTR_SAT bit of a counter register of a measurement, port or lane block, else of the blocks that have
one each (R45). -/
def counterEvent (a : Nat) : Option (Nat × Fld) :=
  let hi := a / 0x10000
  let off := a % 0x10000
  if a = Reg.SYS_LINK_RETRY then some (Reg.SYS_DIE_EVENT, Fld.SYS_DIE_EVENT_CTR_SAT)
  else if a = Reg.GUARD_MISMATCH_COUNT then some (Reg.GUARD_EVENT, Fld.GUARD_EVENT_CTR_SAT)
  else if a = Reg.PWR_RETRY_COUNT ∨ a = Reg.TETHER_ENTRY_COUNT then some (Reg.PWR_EVENT, Fld.PWR_EVENT_CTR_SAT)
  else if a = Reg.LOG_LOST then some (Reg.LOG_EVENT, Fld.LOG_EVENT_CTR_SAT)
  else if a = Reg.OD_AUTH_FAIL_COUNT then some (Reg.OD_EVENT, Fld.OD_EVENT_CTR_SAT)
  else if hi = 0 then (regIdx Reg.SPOOL_LOST 4 a).map fun k => (Reg.SPOOL_EVENT k, Fld.SPOOL_EVENT_CTR_SAT)
  else if hi = 0x10 then
    if a = Reg.REF_TRIG_IGNORED ∨ a = Reg.EXC_UNPAIRED ∨ (regIdx Reg.CLAMP_COUNT 5 a).isSome then
      some (Reg.CONV_EVENT, Fld.CONV_EVENT_CTR_SAT)
    else if a = Reg.REQUEUE_COUNT ∨ a = Reg.TRIG_OVERRUN_COUNT ∨ a = Reg.AVG_DISCARD_COUNT then
      some (Reg.SEQ_EVENT, Fld.SEQ_EVENT_CTR_SAT)
    else if a = Reg.REEL_SKIP_COUNT ∨ (regIdx Reg.SLICE_CAL_COUNT 5 a).isSome ∨ (regIdx Reg.SLICE_REJECT_COUNT 5 a).isSome then
      some (Reg.CAL_EVENT, Fld.CAL_EVENT_CTR_SAT)
    else none
  else if 0x20 ≤ hi ∧ hi < 0x30 then
    let n := hi - 0x20
    if a = Reg.LOOP_CAL_COUNT n ∨ a = Reg.LOOP_REJECT_COUNT n then some (Reg.CAL_EVENT, Fld.CAL_EVENT_CTR_SAT)
    else if a = Reg.MISWIRE_COUNT n then some (Reg.PORT_EVENT n, Fld.PORT_EVENT_CTR_SAT)
    else if a = Reg.MODEM_RX_COUNT n ∨ a = Reg.MODEM_ERR_COUNT n ∨ a = Reg.MODEM_TMO_COUNT n then
      some (Reg.MODEM_EVENT n, Fld.MODEM_EVENT_CTR_SAT)
    else none
  else if hi = 0x40 ∨ hi = 0x41 then
    if 0x20 ≤ off ∧ off ≤ 0x34 then some (Reg.TRX_EVENT (hi - 0x40), Fld.TRX_EVENT_CTR_SAT) else none
  else if hi = 0x42 then
    if 0x10 ≤ off ∧ off ≤ 0x18 then some (Reg.DEC_EVENT, Fld.DEC_EVENT_CTR_SAT)
    else if a = Reg.DPD_REVERT_COUNT then some (Reg.DPD_EVENT, Fld.DPD_EVENT_CTR_SAT) else none
  else if hi = 0x44 then if 0x40 ≤ off ∧ off ≤ 0x64 then some (Reg.RING_EVENT, Fld.RING_EVENT_CTR_SAT) else none
  else if hi = 0x60 then
    let n := a / 0x1000 % 16
    if a = Reg.LANE_ACT_COUNT n ∨ a = Reg.LANE_OVERRUN_COUNT n then some (Reg.LANE_EVENT n, Fld.LANE_EVENT_CTR_SAT) else none
  else none

/-- What hardware does to a register in the very cycle of a software write, seen before the write's bits are laid over it (R44):
its own change of RW and RC bits; G fields it does not change (R49). -/
def State.hwBefore (s : State) (a : Nat) (h : SameCycle) : State :=
  match h, findReg a with
  | .hardware v, some (_, d) =>
    let m := (d.rw ||| d.rc) &&& ~~~d.g
    s.setReg a ((s.reg a &&& ~~~m) ||| (v &&& m))
  | _, _ => s

/-- An event of a counter in the cycle of its write: the written value plus one (R44). -/
def State.hwAfter (s : State) (a : Nat) (h : SameCycle) : State :=
  match h, counterEvent a with
  | .countEvent, some (ev, sat) => s.count a ev sat 1
  | _, _ => s

end Sys2Proof.Machine
end

