-- ==== Sys2Proof/Machine/Objects.lean ====
section
/-! DEFINITION. The objects of the dictionary: types, classes, and what stands at each address (spec/09, R199 to R203, R209). -/

namespace Sys2Proof.Machine

/-! ### Types (R200) -/

/-- The types of values. -/
inductive OdType where
  | bool | u8 | u16 | u32 | u64 | i32 | f32 | time | code | str | blob
  deriving DecidableEq, Repr

/-- The type code. -/
def OdType.num : OdType → Nat
  | .bool => 1 | .u8 => 2 | .u16 => 3 | .u32 => 4 | .u64 => 5 | .i32 => 6 | .f32 => 7 | .time => 8 | .code => 9 | .str => 10
  | .blob => 11

/-- The type of a code; none for the codes that are not used. -/
def odTypeOf (n : Nat) : Option OdType :=
  [OdType.bool, .u8, .u16, .u32, .u64, .i32, .f32, .time, .code, .str, .blob].find? fun t => t.num == n

/-- The size in bytes of a type of fixed size. -/
def OdType.size : OdType → Option Nat
  | .bool | .u8 | .code => some 1
  | .u16 => some 2
  | .u32 | .i32 | .f32 => some 4
  | .u64 | .time => some 8
  | .str | .blob => none

/-- Whether a value of `n` bytes fits a type. -/
def OdType.fits (t : OdType) (n : Nat) : Bool :=
  match t.size with
  | some k => n == k
  | none => decide (n ≤ if t = .str then 32 else 256)

/-- Whether a value of fixed size or of STR is one of its type: BOOL 0 or 1, F32 a number, STR printable. -/
def OdType.takes (t : OdType) (v : List Byte) : Bool :=
  match t with
  | .bool => decide (leNat v ≤ 1)
  | .f32 => fFin (wordOfBytes v)
  | .str => v.all fun b => decide (0x20 ≤ b.toNat) && decide (b.toNat ≤ 0x7E)
  | _ => true

/-! ### Objects (R202) -/

/-- Access classes. -/
inductive OdClass where
  | ro | rw | rws | rwc | wo
  deriving DecidableEq, Repr

/-- What a write of an object acts on. -/
inductive OdPut where
  | none
  | field (a : Nat) (f : Fld)
  | tag | snapCtl | snapData (k : Nat) | key (l : Nat) | calCtl | calChunk (k : Nat) | command (n : Nat) | stateReq
  deriving DecidableEq, Repr

/-- An object: type, class, PRV, the value a read gives (little-endian), a register whose domain it needs, what a write acts on,
its range, the lane that owns it. -/
structure Obj where
  typ   : OdType
  cls   : OdClass := .ro
  prv   : Bool := false
  value : List Byte := []
  reg   : Option Nat := none
  put   : OdPut := .none
  lo    : Nat := 0
  hi    : Nat := 2 ^ 64 - 1
  lane  : Option Nat := none
  deriving DecidableEq, Repr

/-- The whole of a register. -/
def wordFld : Fld := ⟨0, 32⟩

/-- A number as an object of a type. -/
def numObj (t : OdType) (x : Nat) : Obj := { typ := t, value := leBytes (t.size.getD 0) x }

/-- A BOOL. -/
def boolObj (b : Bool) : Obj := numObj .bool (b2n b)

/-- A read-only object that shows a field of a register (R207: the PEEK path). -/
def State.fieldObj (s : State) (t : OdType) (a : Nat) (f : Fld) : Obj :=
  { numObj t (f.get (s.peek a)) with reg := some a }

/-- A writable object over a field of a register: any value the field holds is in range unless the table says less. -/
def State.openObj (s : State) (t : OdType) (cls : OdClass) (prv : Bool) (a : Nat) (f : Fld) (lo hi : Nat) : Obj :=
  { s.fieldObj t a f with cls := cls, prv := prv, put := .field a f, lo := lo, hi := min hi (2 ^ f.len - 1) }

/-- A TIME of a register pair. -/
def State.timeObj (s : State) (lo hi : Nat) : Obj :=
  { typ := .time, value := wordBytes (s.peek lo) ++ wordBytes (s.peek hi), reg := some lo }

/-! ### The areas (R209) -/

/-- Area 0, identity. -/
def State.areaIdentity (s : State) (x : Nat) : Option Obj :=
  if x = 0x00000 then some (s.fieldObj .u32 Reg.PART_ID wordFld)
  else if x = 0x00100 then some { typ := .u64, value := timeBytes s.fuses.uniqueId }
  else if 0x00200 ≤ x ∧ x ≤ 0x00207 then
    let a := nth [Reg.CD_DIE_REV, Reg.MD_DIE_REV, Reg.TD_DIE_REV, Reg.BD_DIE_REV, Reg.LD_DIE_REV 0, Reg.LD_DIE_REV 1,
      Reg.LD_DIE_REV 2, Reg.LD_DIE_REV 3] (x - 0x200) 0
    some (s.fieldObj .u32 a wordFld)
  else if x = 0x00300 then some { numObj .u8 s.nodeAddr with reg := some Reg.RING_CFG }
  else if x = 0x00400 then some (numObj .u16 0x0100)
  else none

/-- SNAP_STATUS (R216). -/
def Snap.status (p : Snap) : Nat := p.state + p.code * 0x100 + p.index % 0x10000 * 0x10000

/-- A chunk of the snapshot image, to be read once READY. -/
def Snap.chunk (p : Snap) (k : Nat) : List Byte := if p.state = 2 then (p.image.drop (256 * k)).take 256 else []

/-- Area 1, device; `level`: the level at which the request executes. -/
def State.areaDevice (s : State) (level x : Nat) : Option Obj :=
  if x = 0x00100 then some { typ := .str, cls := .rw, value := s.od.tag, put := .tag }
  else if x = 0x00200 then some { typ := .bool, cls := .wo, prv := true, put := .field Reg.GUARD_CTL Fld.GUARD_CTL_CFG_COMMIT }
  else if x = 0x00201 then some (s.fieldObj .u32 Reg.GUARD_STATUS wordFld)
  else if x = 0x00300 then some { typ := .time, value := timeBytes s.time }
  else if x = 0x00301 then some (boolObj s.tbValid)
  else if x = 0x00400 then some (s.fieldObj .code Reg.RESET_CAUSE Fld.RESET_CAUSE_CAUSE)
  else if x = 0x10000 then some { typ := .code, cls := .wo, prv := true, put := .snapCtl, lo := 1, hi := 4 }
  else if x = 0x10001 then some (numObj .u32 s.od.snap.status)
  else if 0x10100 ≤ x ∧ x ≤ 0x101FF then
    some { typ := .blob, cls := .rw, prv := true, value := s.od.snap.chunk (x - 0x10100), put := .snapData (x - 0x10100) }
  else if x = 0x20000 then some (numObj .u8 level)
  else if 0x20101 ≤ x ∧ x ≤ 0x20103 then some { typ := .blob, cls := .wo, prv := true, put := .key (x - 0x20100) }
  else none

/-- The objects of channel `c`: its newest regular result (R54, R91), GAIN of an external channel, averaging. -/
def State.chanObj (s : State) (c e : Nat) : Option Obj :=
  let res := s.newReg.find? fun r => r.ch == c
  let w0 : Word := match res with | some r => r.w0 | none => 0
  let up (o : Obj) : Obj := { o with reg := some (Reg.CHAN_AVG c) }
  if !channelOk c then none
  else match e with
    | 0 => some (up (numObj .f32 (match res with | some r => (resultVolts r.w0.toInt r.gain r.div10 r.shiftUp).toNat | none => 0)))
    | 1 => some (up (numObj .i32 w0.toNat))
    | 2 => some (up (numObj .u8 (match res with | some r => r.w1.toNat / 0x10000 % 32 | none => 0)))
    | 3 => some (up { typ := .time, value := timeBytes (match res with | some r => r.time | none => 0) })
    | 4 => some (up (boolObj (match res with | some r => r.tbv | none => false)))
    | 5 => if internalCh c then none else some (s.openObj .code .rwc true (Reg.CHAN_CFG c) Fld.CHAN_CFG_GAIN 0 7)
    | 6 => some (s.openObj .u8 .rwc true (Reg.CHAN_AVG c) Fld.CHAN_AVG_K 0 8)
    | 7 => some (s.openObj .u8 .rwc true (Reg.CHAN_AVG c) Fld.CHAN_AVG_SHIFT 0 8)
    | _ => none

/-- Area 2, converter. -/
def State.areaConverter (s : State) (x : Nat) : Option Obj :=
  if x = 0x01000 then some (s.fieldObj .u32 Reg.FRAME_LEN wordFld)
  else if x = 0x01001 then some (s.openObj .code .rwc true Reg.FRAME_CTL Fld.FRAME_CTL_MODE 0 1)
  else if x = 0x01002 then some (s.openObj .u8 .rwc true Reg.FRAME_CTL Fld.FRAME_CTL_NPLC 1 10)
  else if x = 0x01003 then some (s.openObj .u8 .rwc true Reg.FRAME_CTL Fld.FRAME_CTL_FIXED_MS 1 200)
  else if x = 0x01004 then some (s.fieldObj .bool Reg.MAINS_STATUS Fld.MAINS_STATUS_LOCKED)
  else if x = 0x02000 then some (s.fieldObj .bool Reg.REF_STATUS Fld.REF_STATUS_REF_READY)
  else if 0x10000 ≤ x then s.chanObj ((x - 0x10000) / 0x100) (x % 0x100)
  else none

/-- Area 3, calibration. -/
def State.areaCal (s : State) (x : Nat) : Option Obj :=
  let i := x / 0x100 % 0x100
  let e := x % 0x100
  if x < 0x00500 then
    match e with
    | 0 => some (s.fieldObj .u32 (Reg.SLICE_CAL_COUNT i) wordFld)
    | 1 => some (s.fieldObj .u32 (Reg.SLICE_REJECT_COUNT i) wordFld)
    | 2 => some (s.timeObj (Reg.SLICE_CAL_TIME_LO i) (Reg.SLICE_CAL_TIME_HI i))
    | 3 => some (s.fieldObj .bool (Reg.SLICE_CAL_STATUS i) Fld.SLICE_CAL_STATUS_TB_VALID)
    | 4 => some (s.fieldObj .code (Reg.SLICE_CAL_STATUS i) Fld.SLICE_CAL_STATUS_REASON)
    | _ => none
  else if 0x10000 ≤ x ∧ x < 0x11000 then
    match e with
    | 0 => some (s.fieldObj .u32 (Reg.LOOP_CAL_COUNT i) wordFld)
    | 1 => some (s.fieldObj .u32 (Reg.LOOP_REJECT_COUNT i) wordFld)
    | 2 => some (s.timeObj (Reg.LOOP_CAL_TIME_LO i) (Reg.LOOP_CAL_TIME_HI i))
    | 3 => some (s.fieldObj .bool (Reg.LOOP_TRIM_STATUS i) Fld.LOOP_TRIM_STATUS_TB_VALID)
    | 4 => some (s.fieldObj .code (Reg.LOOP_TRIM_STATUS i) Fld.LOOP_TRIM_STATUS_REASON)
    | _ => none
  else if x = 0x20000 then some (s.openObj .bool .rw true Reg.REEL_CTL Fld.REEL_CTL_EN 0 1)
  else if x = 0x20001 then some (s.openObj .u16 .rw true Reg.REEL_PERIOD Fld.REEL_PERIOD_SECONDS 2 600)
  else if x = 0x30000 then some { typ := .code, cls := .wo, prv := true, put := .calCtl, lo := 1, hi := 2 }
  else if x = 0x30001 then some (s.fieldObj .u8 Reg.CAL_BLOCK_STATUS Fld.CAL_BLOCK_STATUS_RESULT)
  else if 0x30100 ≤ x ∧ x ≤ 0x30102 then
    let k := x - 0x30100
    some { typ := .blob, cls := .rw, prv := true, put := .calChunk k,
           value := sliceBytes s.calStage (256 * k) (if k = 2 then 28 else 256) }
  else none

/-- Area 4: port `n`. -/
def State.portObj (s : State) (n e : Nat) : Option Obj :=
  match e with
  | 0x00 => some (s.openObj .code .rwc true (Reg.PORT_CTL n) Fld.PORT_CTL_ROLE 0 (if n = 0 then 4 else 3))
  | 0x01 => some (s.openObj .u16 .rwc false (Reg.LOOP_SET n) Fld.LOOP_SET_VALUE 0 48000)
  | 0x02 => some (s.fieldObj .i32 (Reg.LOOP_RB n) wordFld)
  | 0x03 => some (s.fieldObj .u32 (Reg.PORT_STATUS n) wordFld)
  | 0x04 => some (s.openObj .code .rw true (Reg.PORT_CTL n) Fld.PORT_CTL_FS_SELECT 0 1)
  | 0x05 => some (s.openObj .u16 .rw true (Reg.LOOP_FS n) Fld.LOOP_FS_LOW 0 48000)
  | 0x06 => some (s.openObj .u16 .rw true (Reg.LOOP_FS n) Fld.LOOP_FS_HIGH 0 48000)
  | 0x07 => some (s.openObj .bool .rw false (Reg.PORT_CTL n) Fld.PORT_CTL_FS_FORCE 0 1)
  | 0x08 => some (s.openObj .u16 .rw true (Reg.LOOP_SLEW n) Fld.LOOP_SLEW_STEP 0 65535)
  | 0x09 => some { numObj .i32 (ofInt32 (Fld.PORT_VTERM_VTERM.sget (s.peek (Reg.PORT_VTERM n)))).toNat with
                   reg := some (Reg.PORT_VTERM n) }
  | 0x0A => some (s.fieldObj .u16 (Reg.LOOP_TARGET n) Fld.LOOP_TARGET_VALUE)
  | _ => none

/-- Area 5: the modem of port `n`. -/
def State.toneObj (s : State) (n e : Nat) : Option Obj :=
  match e with
  | 0 => some (s.openObj .bool .rw true (Reg.MODEM_CTL n) Fld.MODEM_CTL_EN 0 1)
  | 1 => some (s.openObj .bool .rw true (Reg.MODEM_CTL n) Fld.MODEM_CTL_MASTER 0 1)
  | 2 => some (s.openObj .u8 .rw true (Reg.MODEM_ADDR n) Fld.MODEM_ADDR_ADDR 1 0xFE)
  | 3 => some (s.openObj .u8 .rw true (Reg.MODEM_CTL n) Fld.MODEM_CTL_AMP 0 8)
  | 4 => some (s.fieldObj .u32 (Reg.MODEM_RX_COUNT n) wordFld)
  | 5 => some (s.fieldObj .u32 (Reg.MODEM_ERR_COUNT n) wordFld)
  | _ => none

/-- Whether parameter `j` of a block is binary32; the others, used or not, are U32 (R185 to R195). -/
def parFloat (typ j : Nat) : Bool :=
  match typ with
  | 0x01 => j == 1
  | 0x03 | 0x06 | 0x13 => j == 0
  | 0x04 => decide (j < 5)
  | 0x05 => decide (j < 4)
  | 0x07 | 0x0B => true
  | 0x09 | 0x0A | 0x0C | 0x0D | 0x10 | 0x11 => decide (j < 2)
  | 0x0F | 0x12 => decide (j < 3)
  | _ => false

/-- Slot `b` of lane `n`. -/
def State.blkObj (s : State) (n b e : Nat) : Option Obj :=
  let own (o : Obj) : Obj := { o with lane := some n }
  let cfg := Reg.BLK_CFG n b
  if 11 < b then none
  else if e = 0x00 then some (own (s.openObj .code .rws true cfg Fld.BLK_CFG_TYPE 0 0x14))
  else if e = 0x01 then some (own (s.openObj .u8 .rws true cfg Fld.BLK_CFG_IN_A 0 15))
  else if e = 0x02 then some (own (s.openObj .u8 .rws true cfg Fld.BLK_CFG_IN_B 0 15))
  else if e = 0x03 then some (own (s.openObj .u8 .rws true cfg Fld.BLK_CFG_OPT 0 255))
  else if 0x10 ≤ e ∧ e < 0x18 then
    some (s.openObj (if parFloat (s.blkType n b) (e - 0x10) then .f32 else .u32) .rw false (Reg.BLK_P n b (e - 0x10)) wordFld 0
      (2 ^ 32 - 1))
  else if e = 0x20 then some (s.fieldObj .f32 (Reg.BLK_Y n b) wordFld)
  else if e = 0x21 then some (s.fieldObj .u8 (Reg.BLK_Q n b) Fld.BLK_Q_Q)
  else if 0x30 ≤ e ∧ e < 0x34 then
    some (own (s.openObj .u32 .rws true (Reg.BLK_STATE n b (e - 0x30)) wordFld 0 (2 ^ 32 - 1)))
  else none

/-- Area 6: lane `n`. -/
def State.laneObj (s : State) (n x : Nat) : Option Obj :=
  if 0x100 ≤ x then s.blkObj n (x / 0x100 - 1) (x % 0x100)
  else match x with
    | 0 => some (s.fieldObj .code (Reg.LANE_STATUS n) Fld.LANE_STATUS_STATE)
    | 1 => some { typ := .code, cls := .wo, put := .command n, lo := 1, hi := 4 }
    | 2 => some (s.openObj .bool .rw false (Reg.LANE_CTL n) Fld.LANE_CTL_MAN 0 1)
    | 3 => some (s.openObj .f32 .rw false (Reg.MAN_VALUE n) wordFld 0 (2 ^ 32 - 1))
    | 4 => some (s.fieldObj .code (Reg.LANE_STATUS n) Fld.LANE_STATUS_FAULT_REASON)
    | 5 => some { s.openObj .u16 .rws true (Reg.LANE_PERIOD n) Fld.LANE_PERIOD_PERIOD_MS 1 10000 with lane := some n }
    | 6 => some (s.fieldObj .bool (Reg.LANE_STATUS n) Fld.LANE_STATUS_ALARM)
    | _ => none

/-- Area 7, trunk. -/
def State.areaTrunk (s : State) (x : Nat) : Option Obj :=
  let cfg := Reg.RING_CFG_REQ
  match x with
  | 0x000 => some (s.openObj .u8 .rwc true cfg Fld.RING_CFG_REQ_NODE_ADDR 0 127)
  | 0x001 => some (s.openObj .code .rwc true cfg Fld.RING_CFG_REQ_SF 0 3)
  | 0x002 => some (s.openObj .u8 .rwc true cfg Fld.RING_CFG_REQ_CODE 0 3)
  | 0x003 => some (s.openObj .u16 .rwc true cfg Fld.RING_CFG_REQ_CYCLE_MS 0 1023)
  | 0x004 => some (s.openObj .code .rw true cfg Fld.RING_CFG_REQ_MASTER_MODE 0 3)
  | 0x100 => some (s.fieldObj .u32 Reg.RING_STATUS wordFld)
  | 0x101 => some (s.fieldObj .u8 Reg.RING_TOPO Fld.RING_TOPO_BREAK_HOP)
  | _ => none

/-- Area 8, power and clock. -/
def State.areaPower (s : State) (x : Nat) : Option Obj :=
  match x with
  | 0x000 => some (s.fieldObj .code Reg.PWR_STATUS Fld.PWR_STATUS_STATE)
  | 0x001 => some { typ := .code, cls := .wo, prv := true, put := .stateReq, lo := 0, hi := 3 }
  | 0x100 => some (s.fieldObj .u16 Reg.PWR_VCORE Fld.PWR_VCORE_READ_MV)
  | 0x200 => some (s.openObj .u8 .rw true Reg.TETHER_CFG Fld.TETHER_CFG_CH 0 3)
  | 0x201 => some (s.fieldObj .bool Reg.BD_STATUS Fld.BD_STATUS_TETHER_ARMED)
  | 0x300 => some (s.fieldObj .code Reg.CLK_STATUS Fld.CLK_STATUS_SRC)
  | _ => none

/-- Area 9, log: LOG_CHUNK k holds the entries 8k to 8k + 7 counted back from the newest. -/
def State.areaLog (s : State) (x : Nat) : Option Obj :=
  if x = 0x00000 then some (numObj .u32 s.logHeld)
  else if x = 0x00001 then some (s.fieldObj .u32 Reg.LOG_LOST wordFld)
  else if 0x10000 ≤ x ∧ x ≤ 0x100FF then
    some { typ := .blob, value := (List.range 8).flatMap fun i => s.logBack (8 * (x - 0x10000) + i) }
  else none

/-- Area 0xA, records and lots. -/
def State.areaRecords (s : State) (x : Nat) : Option Obj :=
  let i := x / 0x100 % 0x100
  let e := x % 0x100
  if x < 0x01000 then
    match e with
    | 0 => some (s.openObj .u32 .rw false (Reg.LOT_ID i) wordFld 0 (2 ^ 32 - 1))
    | 1 => some (s.fieldObj .bool (Reg.LOT_STATUS i) Fld.LOT_STATUS_VALID)
    | 2 => some { typ := .bool, cls := .wo, put := .field (Reg.LOT_STATUS i) Fld.LOT_STATUS_CLEAR }
    | _ => none
  else if 0x10000 ≤ x ∧ x < 0x11000 then
    let r := (lookupKey s.od.records i).getD [0xFF000000]
    let w (j : Nat) : Word := nth r j 0
    match e with
    | 0 => some { typ := .time, value := wordBytes (w 1) ++ wordBytes (w 2) }
    | 1 => some (boolObj ((w 0).getLsbD 20))
    | 2 => some (numObj .u32 (w 3).toNat)
    | 7 => some (numObj .u8 ((w 0).toNat / 0x1000000))
    | _ => if 3 ≤ e ∧ e ≤ 6 then some (numObj .f32 (w (e + 1)).toNat) else none
  else none

/-- The object at an address, for a request that executes at `level`; areas 0xB to 0xE hold none, and the manual lists none of
area 0xF. -/
def State.object (s : State) (level a : Nat) : Option Obj :=
  let x := a % 0x100000
  let n := x / 0x100
  match a / 0x100000 with
  | 0x0 => s.areaIdentity x
  | 0x1 => s.areaDevice level x
  | 0x2 => s.areaConverter x
  | 0x3 => s.areaCal x
  | 0x4 => if n < 16 then s.portObj n (x % 0x100) else none
  | 0x5 => if n < 16 then s.toneObj n (x % 0x100) else none
  | 0x6 => s.laneObj (x / 0x10000) (x % 0x10000)
  | 0x7 => s.areaTrunk x
  | 0x8 => s.areaPower x
  | 0x9 => s.areaLog x
  | 0xA => s.areaRecords x
  | _ => none

end Sys2Proof.Machine
end

