-- ==== Sys2Proof/Machine/Dictionary.lean ====
section
/-! DEFINITION. How the dictionary engine checks a request, and what a write of an object does (spec/09, R202 to R208; spec/07,
R166). Snapshot objects act in Machine/Snapshot.lean. -/

namespace Sys2Proof.Machine

/-- A write request's type code and value (little-endian); a read request carries none. -/
abbrev OdValue := Option (Nat × List Byte)

/-! ### Checks -/

/-- Whether a register's domain is on (R214). -/
def State.regOn (s : State) (a : Nat) : Bool :=
  match findReg a with
  | none => true
  | some (b, d) => s.on (domainOf b d)

/-- The word that writes one field of a register: under its own mask where the register has one. -/
def State.fieldWord (s : State) (a : Nat) (f : Fld) (x : Nat) : Word :=
  match findReg a with
  | some (_, d) => if d.m16 then (f.mask <<< 16) ||| f.put x else f.set (s.reg a) x
  | none => 0

/-- The level an object asks for (R203): PRV 2, else a write 1; COMMAND is PRV for RUN. -/
def Obj.needs (o : Obj) (w : OdValue) : Nat :=
  match w with
  | none => if o.prv then 2 else 0
  | some (_, v) =>
    let run := match o.put with | .command _ => v == [1] | _ => false
    if o.prv || run then 2 else 1

/-- Lengths an object admits beside its type's: a key has 32 bytes, the last calibration chunk at most 28. -/
def Obj.lengthOk (o : Obj) (n : Nat) : Bool :=
  match o.put with
  | .key _ => n == 32
  | .calChunk k => decide (n ≤ if k = 2 then 28 else 256)
  | _ => true

/-- ACCESS by class, path or length (R206, step 3): a length is judged by the type code sent with it. -/
def Obj.accessFault (o : Obj) (p : OdPath) (w : OdValue) : Bool :=
  match w with
  | none => o.cls == .wo
  | some (t, v) =>
    let key := match o.put with | .key _ => true | _ => false
    let fits := match odTypeOf t with | some ty => ty.fits v.length | none => true
    o.cls == .ro || (key && p != .host) || !fits || !o.lengthOk v.length

/-- TYPE_MISMATCH (step 4). -/
def Obj.typeFault (o : Obj) (w : OdValue) : Bool :=
  match w with
  | none => false
  | some (t, _) => t != o.typ.num

/-- RANGE (step 5): a value outside its type or the object's range; a snapshot chunk out of order (R217). -/
def State.rangeFault (s : State) (o : Obj) (w : OdValue) : Bool :=
  match w with
  | none => false
  | some (_, v) =>
    let x := leNat v
    let order := match o.put with
      | .snapData k => k != 0 && !(s.od.snap.state == 3 && s.od.snap.nextK == k)
      | _ => false
    !o.typ.takes v || (o.typ.size.isSome && (decide (x < o.lo) || decide (o.hi < x))) || order

/-- A LOOP_OUT block of a lane in RUN or HOLD names port `n` (R208). -/
def State.loopHeld (s : State) (n : Nat) : Bool :=
  (List.range 16).any fun m => s.laneActive m && (s.loopOuts m fun b => ((s.lane m).block b).params).contains n

/-- Whether a request meets a snapshot buffer that belongs to another source (R218): the host may always abort. -/
def State.snapTaken (s : State) (p : OdPath) (o : Obj) (w : OdValue) : Bool :=
  let other := match s.od.snap.owner with | some q => q != p | none => false
  match o.put with
  | .snapCtl => other && !(p == .host && w == some (0x09, [4]))
  | .snapData _ => other
  | _ => false

/-- BUSY of a write (step 6) beside the domain: the owning lane is not STOPPED, a calibration block is under way, a STATE_REQ
waits. -/
def State.writeBusy (s : State) (o : Obj) (v : List Byte) : Bool :=
  let lane := match o.lane with | some n => o.cls == .rws && s.laneState n != 0 | none => false
  lane || (match o.put with
    | .calChunk _ => s.calBusy
    | .stateReq => decide (2 ≤ leNat v) && s.pwr.stateReq.isSome
    | _ => false)

/-- BUSY (step 6). -/
def State.busyFault (s : State) (p : OdPath) (o : Obj) (w : OdValue) : Bool :=
  let off := match o.reg with | some a => !s.reachable a | none => false
  off || s.snapTaken p o w || (match w with
    | none => false
    | some (_, v) =>
      let port := match o.put with
        | .field a _ => (List.range 16).any fun n => a == Reg.LOOP_SET n && s.loopHeld n
        | _ => false
      s.writeBusy o v || port)

/-- A field write that would change a G field under the guard lock (R51). -/
def State.fieldLocked (s : State) (a : Nat) (f : Fld) (x : Nat) : Bool :=
  match findReg a with
  | some (_, d) => (s.regWord d a (s.reg a) (s.fieldWord a f x)).2
  | none => false

/-- ACCESS for the guard lock (step 7). -/
def State.guardFault (s : State) (o : Obj) (w : OdValue) : Bool :=
  match w with
  | none => false
  | some (_, v) => match o.put with
    | .field a f => s.fieldLocked a f (leNat v)
    | .stateReq => decide (leNat v < 2) && s.fieldLocked Reg.PWR_CTL Fld.PWR_CTL_IDLE_EN (leNat v)
    | _ => false

/-- The code of the first condition that holds. -/
def firstFault (l : List (Bool × OdCode)) : Option OdCode := (l.find? fun c => c.1).map fun c => c.2

/-- The areas a tone request reaches (R166). -/
def toneArea (a : Nat) : Bool := [0x0, 0x2, 0x4, 0x6, 0xA].contains (a / 0x100000)

/-- What a request finds: its object, or the first failure in the order of R206, with the first steps of R166 on tone. -/
def State.odCheck (s : State) (p : OdPath) (a : Nat) (w : OdValue) : Except OdCode Obj :=
  let l := s.levelOf p
  if isTone p && !toneArea a then .error .access
  else if a / 0x100000 = 0xF && !(l == 3 && s.unlocked) then .error .access
  else match s.object l a with
    | none => .error .noObject
    | some o =>
      let first := if isTone p then [(o.typ == .blob, OdCode.access), (w.isSome && decide (l < 1), .level), (o.needs w == 2, .level)]
        else [(decide (l < o.needs w), OdCode.level)]
      match firstFault (first ++ [(o.accessFault p w, .access), (o.typeFault w, .typeMismatch), (s.rangeFault o w, .range),
          (s.busyFault p o w, .busy), (s.guardFault o w, .access)]) with
      | some c => .error c
      | none => .ok o

/-! ### What a write does -/

/-- One field of a register written as software would. -/
def State.writeField (s : State) (a : Nat) (f : Fld) (x : Nat) : State := (s.regWrite a (s.fieldWord a f x)).1

/-- Bytes laid into CAL_STAGE from byte `o`. -/
def State.stageChunk (s : State) (o : Nat) (v : List Byte) : State :=
  iterate ((v.length + 3) / 4) (fun j s =>
    let a := Reg.CAL_STAGE (o / 4 + j)
    let new := (v.drop (4 * j)).take 4
    s.setReg a (wordOfBytes (new ++ (wordBytes (s.reg a)).drop new.length))) s

/-- LANE_CTL's field of a COMMAND code (R209). -/
def commandFld (x : Nat) : Fld :=
  match x with | 1 => Fld.LANE_CTL_RUN | 2 => Fld.LANE_CTL_STOP | 3 => Fld.LANE_CTL_HOLD | _ => Fld.LANE_CTL_RESUME

/-- STATE_REQ (R282): RUN and IDLE set IDLE_EN; STANDBY and HIBERNATE begin once the response has left the part, at a later loop tick. -/
def State.stateRequest (s : State) (x : Nat) : State :=
  if x < 2 then s.writeField Reg.PWR_CTL Fld.PWR_CTL_IDLE_EN x
  else { s with pwr := { s.pwr with stateReq := some (x, s.ck) } }

/-- What an accepted write of an object does, but for the snapshot's. -/
def State.putObj (s : State) (o : Obj) (v : List Byte) : State :=
  let x := leNat v
  match o.put with
  | .field a f => s.writeField a f x
  | .tag => { s with od := { s.od with tag := v } }
  | .key l => s.putKey l v
  | .calCtl => s.writeField Reg.CAL_BLOCK_CTL (if x = 1 then Fld.CAL_BLOCK_CTL_EXPORT else Fld.CAL_BLOCK_CTL_RESTORE) 1
  | .calChunk k => s.stageChunk (256 * k) v
  | .command n => s.writeField (Reg.LANE_CTL n) (commandFld x) 1
  | .stateReq => s.stateRequest x
  | .none | .snapCtl | .snapData _ => s

end Sys2Proof.Machine
end

