-- ==== Sys2Proof/Machine/Snapshot.lean ====
section
/-! DEFINITION. Snapshots: the image and its records, capture, check and apply, the buffer and its owner (spec/09, R214 to R218),
and the engine taking a request. -/

namespace Sys2Proof.Machine

/-! ### The image (R214, R215) -/

/-- Addresses that may hold an object of a snapshot, in ascending order. -/
def snapAddrs : List Nat :=
  (List.range 4).map (fun e => 0x201000 + e) ++
    (List.range 0x4D).flatMap (fun c => [5, 6, 7].map fun e => 0x210000 + 0x100 * c + e) ++
    (List.range 16).flatMap (fun n => (List.range 0x0B).map fun e => 0x400000 + 0x100 * n + e) ++
    (List.range 16).flatMap (fun n => (List.range 6).map fun e => 0x500000 + 0x100 * n + e) ++
    (List.range 16).flatMap (fun n => (List.range 7).map (fun e => 0x600000 + 0x10000 * n + e) ++
      (List.range 12).flatMap fun b => ([0, 1, 2, 3, 0x10, 0x11, 0x12, 0x13, 0x14, 0x15, 0x16, 0x17] : List Nat).map fun e =>
        0x600000 + 0x10000 * n + 0x100 * (1 + b) + e) ++
    (List.range 5).map (fun e => 0x700000 + e) ++ [0x800200]

/-- RW, RWS or RWC. -/
def Obj.writable (o : Obj) : Bool := o.cls == .rw || o.cls == .rws || o.cls == .rwc

/-- One record: address, type code, a length byte for STR, value. -/
def recordBytes (a : Nat) (o : Obj) : List Byte :=
  leBytes 3 a ++ BitVec.ofNat 8 o.typ.num :: ((if o.typ = .str then [BitVec.ofNat 8 o.value.length] else []) ++ o.value)

/-- The records of a capture now: every writable object whose domain is on. -/
def State.snapRecords (s : State) : List (List Byte) :=
  snapAddrs.filterMap fun a =>
    match s.object 3 a with
    | some o =>
      let on := match o.reg with | some r => s.regOn r | none => true
      if o.writable && o.typ != .blob && on then some (recordBytes a o) else none
    | none => none

/-- Whether any domain is off. -/
def State.someOff (s : State) : Bool :=
  [Domain.core, .meas, .excite, .trunk, .loopA, .loopB, .aon].any fun d => !s.on d

/-- Chunks of an image of `n` bytes. -/
def snapChunks (n : Nat) : Nat := (n + 255) / 256

/-- The image of a capture now. -/
def State.snapImage (s : State) : List Byte :=
  let recs := s.snapRecords
  let body := recs.flatten
  let len := 0x20 + body.length + 4
  let img := leBytes 4 0x5A4E1696 ++ leBytes 2 1 ++ leBytes 2 0x20 ++ leBytes 4 len ++ leBytes 2 recs.length ++
    [BitVec.ofNat 8 (snapChunks len), BitVec.ofNat 8 (b2n s.someOff + 2 * b2n s.tbValid)] ++ timeBytes s.fuses.uniqueId ++
    timeBytes s.time ++ body
  img ++ wordBytes (crc32c img)

/-! ### The buffer (R216 to R218) -/

/-- The buffer put to a value. -/
def State.setSnap (s : State) (x : Snap) : State := { s with od := { s.od with snap := x } }

/-- The buffer belongs to a source, whose silence of 60 s frees it. -/
def State.snapOwn (s : State) (p : OdPath) (x : Snap) : State :=
  (s.setSnap { x with owner := some p }).arm .snapOwner (secCk 60)

/-- The buffer is free. -/
def State.snapFree (s : State) (x : Snap) : State := (s.disarm .snapOwner).setSnap { x with owner := none }

/-- OD_EVENT.SNAP_DONE. -/
def State.snapDone (s : State) : State := s.raise Reg.OD_EVENT Fld.OD_EVENT_SNAP_DONE

/-- The capture at its loop tick: the image stands READY and the buffer is free. -/
def State.snapCapturePass (s : State) : State :=
  if s.od.snap.state = 1 then (s.snapFree { state := 2, image := s.snapImage }).snapDone else s

/-- Chunk `k` arrives in order; chunk 0 begins a new image (R217). It carries the bytes from 256 k on, so one before it that was shorter leaves
bytes that are not received (R215). -/
def State.snapData (s : State) (p : OdPath) (k : Nat) (v : List Byte) : State :=
  if k = 0 then s.snapOwn p { state := 3, image := v, nextK := 1 }
  else
    let x := s.od.snap
    s.setSnap { x with image := x.image ++ v, nextK := k + 1, gaps := x.gaps || x.image.length != 256 * k }

/-! ### Checking and applying (R217) -/

/-- The first `n` records of a byte string: address, type code, value. A record of an unused or unsized type ends them. -/
def parseRecords : Nat → List Byte → List (Nat × Nat × List Byte)
  | 0, _ => []
  | n + 1, bs =>
    let a := leNat (sliceBytes bs 0 3)
    let t := (nth bs 3 0).toNat
    match odTypeOf t with
    | some .str =>
      let k := (nth bs 4 0).toNat
      (a, t, (bs.drop 5).take k) :: parseRecords n (bs.drop (5 + k))
    | some ty => match ty.size with
      | some k => (a, t, (bs.drop 4).take k) :: parseRecords n (bs.drop (4 + k))
      | none => [(a, t, [])]
    | none => [(a, t, [])]

/-- The areas of R214. -/
def snapArea (a : Nat) : Bool := [1, 2, 4, 5, 6, 7, 8].contains (a / 0x100000)

/-- The first failure of a record. -/
def State.recordFault (s : State) (r : Nat × Nat × List Byte) : Option OdCode :=
  let w : OdValue := some r.2
  match s.object 3 r.1 with
  | none => some .noObject
  | some o =>
    let off := match o.reg with | some a => !s.reachable a | none => false
    firstFault [(!o.writable || !snapArea r.1 || o.accessFault .host w, .access), (o.typeFault w, .typeMismatch),
      (s.rangeFault o w, .range), (off || s.writeBusy o r.2.2, .busy), (s.guardFault o w, .access)]

/-- A record is written. -/
def State.applyRecord (s : State) (r : Nat × Nat × List Byte) : State :=
  match s.object 3 r.1 with
  | some o => match o.reg with
    | some a => if s.reachable a then s.putObj o r.2.2 else s
    | none => s.putObj o r.2.2
  | none => s

/-- The first record that fails, each judged as the records before it will have left the objects (a block's TYPE gives its
parameters their types). -/
def State.scanRecords (s : State) : Nat → List (Nat × Nat × List Byte) → Option (OdCode × Nat)
  | _, [] => none
  | i, r :: rs => match s.recordFault r with
    | some c => some (c, i)
    | none => (s.applyRecord r).scanRecords (i + 1) rs

/-- The records of the image in the buffer. -/
def Snap.records (x : Snap) : List (Nat × Nat × List Byte) :=
  parseRecords (leNat (sliceBytes x.image 0x0C 2)) ((x.image.drop 0x20).take (x.image.length - 0x24))

/-- Whether the header and the CRC of a received image are good: an image with bytes missing disagrees with its LENGTH. -/
def Snap.headerOk (x : Snap) : Bool :=
  let n := x.image.length
  let f (o k : Nat) : Nat := leNat (sliceBytes x.image o k)
  !x.gaps && decide (0x24 ≤ n) && f 0 4 == 0x5A4E1696 && f 4 2 == 1 && f 6 2 == 0x20 && f 8 4 == n && f 0x0E 1 == x.nextK &&
    x.nextK == snapChunks n && f (n - 4) 4 == (crc32c (x.image.take (n - 4))).toNat

/-- APPLY or APPLY_COMMIT: the checks; the image is refused whole, or written at the next loop tick. -/
def State.snapCheck (s : State) (p : OdPath) (commit : Bool) : Answer × State :=
  let x := s.od.snap
  let refuse (c : OdCode) (i : Nat) : Answer × State :=
    ({ code := c }, (s.snapFree { x with state := 7, code := c.num, index := i }).snapDone)
  if x.state ≠ 3 then ({ code := .busy }, s)
  else if !x.headerOk then refuse .access 0
  else match s.scanRecords 0 x.records with
    | some (c, i) => refuse c i
    | none => ({ code := .ok }, s.snapOwn p { x with state := 5, code := 0, index := 0, commit := commit, due := s.tickAt })

/-- SNAP_CTL (R216 to R218). -/
def State.snapCtl (s : State) (p : OdPath) (code : Nat) : Answer × State :=
  match code with
  | 1 => ({ code := .ok }, s.snapOwn p { state := 1, due := s.tickAt })
  | 2 => s.snapCheck p false
  | 3 => s.snapCheck p true
  | _ => ({ code := .ok }, s.snapFree {})

/-- The pass at the loop tick: CFG_COMMIT first where asked for, then every record in order. -/
def State.snapApplyPass (s : State) : State :=
  let x := s.od.snap
  if x.state ≠ 5 then s
  else
    let s := s.when x.commit State.cfgCommit
    let s := x.records.foldl State.applyRecord s
    (s.snapFree { s.od.snap with state := 6, commit := false }).snapDone

/-- Time passes to the first loop tick after a CAPTURE or after an APPLY's checks, while that pass, of state `st`, waits (R216, R217). -/
def State.toSnapTick (s : State) (st : Nat) : State := s.when (s.od.snap.state == st) fun s => s.passTo s.od.snap.due

/-- The snapshot's part of a loop tick: a pass that waits for this tick is made. -/
def State.snapTick (s : State) : State :=
  s.when (s.on .core && decide (s.od.snap.due ≤ s.ck)) fun s => s.snapCapturePass.snapApplyPass

/-! ### The engine takes a request (R205) -/

/-- The engine takes a READ or WRITE: the answer and the state after it. -/
def State.odTake (s : State) (p : OdPath) (a : Nat) (w : OdValue) : Answer × State :=
  let s := s.touch p
  if s.odBusy then ({ code := .busy }, s)
  else
    match s.odCheck p a w with
    | .error c => ({ code := c }, s)
    | .ok o => match w with
      | none => ({ code := .ok, typ := o.typ.num, value := o.value }, s)
      | some (_, v) => match o.put with
        | .snapCtl => s.snapCtl p (leNat v)
        | .snapData k => ({ code := .ok }, s.snapData p k v)
        | _ => ({ code := .ok }, s.putObj o v)

/-! ### The host window (R219) -/

/-- A window command that is ignored. -/
def State.cmdLost (s : State) : State := s.raise Reg.OD_EVENT Fld.OD_EVENT_CMD_LOST

/-- The bytes of OD_DATA. -/
def State.windowBytes (s : State) : List Byte := (List.range 64).flatMap fun w => wordBytes (s.reg (Reg.OD_DATA w))

/-- The value the window holds for a type: its size, or OD_LEN for STR and BLOB. -/
def State.windowValue (s : State) (t : Nat) : List Byte :=
  let n := match odTypeOf t with
    | some ty => ty.size.getD (s.fld Reg.OD_LEN Fld.OD_LEN_LEN)
    | none => 0
  sliceBytes s.windowBytes 0 n

/-- The value of a read stands in the window. -/
def State.windowPut (s : State) (a : Answer) : State :=
  let s := (s.setFld Reg.OD_STATUS Fld.OD_STATUS_TYPE a.typ).setFld Reg.OD_LEN Fld.OD_LEN_LEN a.value.length
  iterate 64 (fun w s => s.setReg (Reg.OD_DATA w) (wordOfBytes (sliceBytes a.value (4 * w) 4))) s

/-- A window request completes: RESULT, for a read the value, DONE. -/
def State.windowDone (r : Answer × State) (read : Bool) : State :=
  let s := State.answered r
  let s := { s with od := { s.od with window := none } }
  let s := (s.setFld Reg.OD_STATUS Fld.OD_STATUS_RESULT r.1.code.num).lower Reg.OD_STATUS Fld.OD_STATUS_BUSY
  let s := s.when (read && r.1.code == .ok) fun s => s.windowPut r.1
  s.raise Reg.OD_EVENT Fld.OD_EVENT_DONE

/-- The engine takes the window's pending request, if there is one. DESIGN CHOICE, log entry 53: it does so before the next request of
any path, at the next clock cycle that passes with no command waiting, and at the next loop tick at the latest. -/
def State.windowServe (s : State) : State :=
  let a := s.fld Reg.OD_REQ Fld.OD_REQ_ADDR
  let t := s.fld Reg.OD_REQ Fld.OD_REQ_TYPE
  match s.od.window with
  | none => s
  | some true => State.windowDone (s.odTake .host a none) true
  | some false => State.windowDone (s.odTake .host a (some (t, s.windowValue t))) false

/-- OD_CMD.READ (`read`) or OD_CMD.WRITE: a request of the window is pending until the engine answers, or the command is lost. -/
def State.windowAsk (s : State) (read : Bool) : State :=
  if s.flag Reg.OD_STATUS Fld.OD_STATUS_BUSY then s.cmdLost
  else { s.raise Reg.OD_STATUS Fld.OD_STATUS_BUSY with od := { s.od with window := some read } }

/-- OD_CMD.READ. -/
def State.odCmdRead (s : State) : State := s.windowAsk true

/-- OD_CMD.WRITE. -/
def State.odCmdWrite (s : State) : State := s.windowAsk false

/-- OD_CMD_READ. -/
def execOdCmdRead (s : State) : Host.Outcome State Fault Refusal := (s.hostRow Reg.OD_CMD false State.odCmdRead).done

/-- OD_CMD_WRITE. -/
def execOdCmdWrite (s : State) : Host.Outcome State Fault Refusal := (s.hostRow Reg.OD_CMD false State.odCmdWrite).done

/-- A write of OD_CMD: both bits issue nothing. -/
def State.odCmd (s : State) (v : Word) : State :=
  match findReg Reg.OD_CMD with
  | none => s
  | some (_, d) =>
    let act := actBits d v
    match Fld.OD_CMD_READ.on act, Fld.OD_CMD_WRITE.on act with
    | true, true => s.cmdLost
    | true, false => s.odCmdRead
    | false, true => s.odCmdWrite
    | false, false => s

/-! ### Requests of every path -/

/-- A READ or WRITE on any path, taken in its order of arrival: after a request of the window that is still pending (R205). -/
def State.odRequest (s : State) (p : OdPath) (a : Nat) (w : OdValue) : Answer × State := s.windowServe.odTake p a w

/-- A request of a path while CORE runs. -/
def State.odExec (s : State) (p : OdPath) (a : Nat) (w : OdValue) : State :=
  s.when (s.on .core) fun s => State.answered (s.odRequest p a w)

/-- SESSION_OPEN: a session step is a request of the dictionary, taken in its order of arrival (R205, R211). -/
def execSessionOpen (p : OdPath) (l : Byte) (s : State) : Host.Outcome State Fault Refusal :=
  (s.when (s.on .core) fun s => State.answered (s.windowServe.sessionOpen p l.toNat)).done

/-- SESSION_AUTH. -/
def execSessionAuth (p : OdPath) (hmac : List Byte) (s : State) : Host.Outcome State Fault Refusal :=
  (s.when (s.on .core) fun s => State.answered (s.windowServe.sessionAuth p hmac)).done

/-- SESSION_CLOSE. -/
def execSessionClose (p : OdPath) (s : State) : Host.Outcome State Fault Refusal :=
  (s.when (s.on .core) fun s => State.answered (s.windowServe.sessionClose p)).done

/-- OD_READ. -/
def execOdRead (p : OdPath) (a : BitVec 24) (s : State) : Host.Outcome State Fault Refusal := (s.odExec p a.toNat none).done

/-- OD_WRITE; the value is little-endian, whatever order the path carries it in. -/
def execOdWrite (p : OdPath) (a : BitVec 24) (t : Byte) (v : List Byte) (s : State) : Host.Outcome State Fault Refusal :=
  (s.odExec p a.toNat (some (t.toNat, v))).done

/-- SNAP_CTL = `x` on a path. -/
def State.snapCommand (s : State) (p : OdPath) (x : Nat) : State := s.odExec p 0x110000 (some (0x09, [BitVec.ofNat 8 x]))

/-- CAPTURE. -/
def execSnapCapture (p : OdPath) (s : State) : Host.Outcome State Fault Refusal := (s.snapCommand p 1).done

/-- SNAP_CAPTURE_PASS. -/
def execSnapCapturePass (s : State) : Host.Outcome State Fault Refusal := (s.when (s.on .core) fun s => (s.toSnapTick 1).snapCapturePass).done

/-- SNAP_DATA_WRITE. -/
def execSnapDataWrite (p : OdPath) (k : BitVec 8) (v : List Byte) (s : State) : Host.Outcome State Fault Refusal :=
  (s.odExec p (0x110100 + k.toNat) (some (0x0B, v))).done

/-- SNAP_APPLY. -/
def execSnapApply (p : OdPath) (s : State) : Host.Outcome State Fault Refusal := (s.snapCommand p 2).done

/-- APPLY_COMMIT. -/
def execApplyCommit (p : OdPath) (s : State) : Host.Outcome State Fault Refusal := (s.snapCommand p 3).done

/-- SNAP_APPLY_PASS. -/
def execSnapApplyPass (s : State) : Host.Outcome State Fault Refusal := (s.when (s.on .core) fun s => (s.toSnapTick 5).snapApplyPass).done

/-- SNAP_ABORT. -/
def execSnapAbort (p : OdPath) (s : State) : Host.Outcome State Fault Refusal := (s.snapCommand p 4).done

/-- SNAP_OWNER_TIMEOUT: 60 s without a request from the owner. -/
def execSnapOwnerTimeout (s : State) : Host.Outcome State Fault Refusal := (s.fall .snapOwner fun s => s.snapFree {}).done

/-- A write of any register by software; true if the guard lock refuses its G fields. -/
def State.writeReg (s : State) (a : Nat) (v : Word) : State × Bool :=
  if a = Reg.OD_CMD then (s.odCmd v, false) else s.regWrite a v

end Sys2Proof.Machine
end

