-- ==== Sys2Proof/Machine/Guard.lean ====
section
/-! DEFINITION. The configuration guard: the scan, references, mismatches, the lock (spec/02, R47 to R51). -/

namespace Sys2Proof.Machine

/-! ### The scan (R47) -/

/-- The bases of the register blocks, in ascending address order. -/
def blockBases : List Nat :=
  [0x000000, 0x0E0000, 0x0F0000, 0x100000] ++ (List.range 16).map (fun n => 0x200000 + 0x10000 * n) ++
    (List.range 4).map (fun d => 0x300000 + 0x10000 * d) ++ [0x400000, 0x410000, 0x420000, 0x440000, 0x500000] ++
    (List.range 16).map (fun n => 0x600000 + 0x1000 * n) ++ [0x610000, 0x700000, 0xF00000]

/-- The addresses of a register of a block. -/
def RegDesc.addrs (d : RegDesc) (base : Nat) : List Nat :=
  (List.range d.n2).flatMap fun j => (List.range d.n1).map fun i => base + d.off + d.s2 * j + d.s1 * i

/-- The registers of a domain with a G field, with their G bits, in ascending address order. -/
def guardRegs (dom : Domain) : List (Nat × Word) :=
  blockBases.flatMap fun base =>
    match regBlock base with
    | none => []
    | some b =>
      let rs := b.regs.filter fun d => d.g != 0 && domainOf b d == dom
      rs.foldl (fun l d => (d.addrs b.base).foldl (fun l a => insertKey l a d.g) l) []

/-- The byte stream of a domain and its CRC. -/
def State.guardCrc (s : State) (dom : Domain) : Word :=
  crc32c ((guardRegs dom).flatMap fun r => leBytes 4 r.1 ++ wordBytes (s.reg r.1 &&& r.2))

/-- The domains in the order of GUARD_STATUS. -/
def allDomains : List Domain := [.core, .meas, .excite, .trunk, .loopA, .loopB, .aon]

/-- The reference of a domain. -/
def State.guardRef (s : State) (d : Domain) : Word := vget s.refCrc d.bit 0

/-- REF_VALID and MISMATCH of a domain. -/
def refFld (d : Domain) : Fld := Fld.GUARD_STATUS_REF_VALID.bit d.bit
def mismatchFld (d : Domain) : Fld := Fld.GUARD_STATUS_MISMATCH.bit d.bit

/-! ### Its end (R48, R50) -/

/-- A commit scan ends: every on domain's CRC is its reference. -/
def State.commitEnd (s : State) : State :=
  let s := allDomains.foldl (fun s d => s.when (s.on d) fun s =>
    { s.raise Reg.GUARD_STATUS (refFld d) with refCrc := vset s.refCrc d.bit (s.guardCrc d) }) s
  let s := { s.setFld Reg.GUARD_STATUS Fld.GUARD_STATUS_MISMATCH 0 with commitReq := false, commitRun := false }
  s.raise Reg.GUARD_EVENT Fld.GUARD_EVENT_COMMIT_DONE

/-- One domain's comparison; true if it passes from match to mismatch. -/
def State.guardCompare (s : State) (d : Domain) : State × Bool :=
  if !(s.on d && s.flag Reg.GUARD_STATUS (refFld d)) then (s, false)
  else
    let crc := s.guardCrc d
    if crc = s.guardRef d then (s.lower Reg.GUARD_STATUS (mismatchFld d), false)
    else
      let was := s.flag Reg.GUARD_STATUS (mismatchFld d)
      let s := s.count Reg.GUARD_MISMATCH_COUNT Reg.GUARD_EVENT Fld.GUARD_EVENT_CTR_SAT 1
      if was then (s, false)
      else
        let s := (s.raise Reg.GUARD_STATUS (mismatchFld d)).raise Reg.GUARD_EVENT Fld.GUARD_EVENT_MISMATCH
        (s.log .error 0x0020 0x70 d.bit crc (s.guardRef d) 0, true)

/-- GUARD_CTL.ACTION. -/
def State.guardAct (s : State) : State :=
  match s.fld Reg.GUARD_CTL Fld.GUARD_CTL_ACTION with
  | 0 => s
  | 1 => s.guardHold
  | _ => s.guardHold.guardFailsafe

/-- The commit scan that has run since the last loop tick ends, by this tick at the latest (R47, R48; log entry 21). -/
def State.scanEnd (s : State) : State := s.when (s.commitReq && s.commitRun) State.commitEnd

/-- The scan of a loop tick: a commit scan begins, or the domains are compared and the action applied once. -/
def State.guardScan (s : State) : State :=
  if s.commitReq then { s with commitRun := true }
  else
    let (s, hit) := allDomains.foldl (fun (p : State × Bool) d =>
      let (s, h) := p.1.guardCompare d
      (s, p.2 || h)) (s, false)
    s.when hit State.guardAct

/-! ### Commands (R48, R51) -/

/-- CFG_COMMIT. -/
def execCfgCommit (s : State) : Host.Outcome State Fault Refusal := (s.when (s.on .core) State.cfgCommit).done

/-- GUARD_LOCK_SET. -/
def execGuardLockSet (s : State) : Host.Outcome State Fault Refusal :=
  (s.hostRow Reg.GUARD_CTL false fun s => s.raise Reg.GUARD_CTL Fld.GUARD_CTL_LOCK).done

/-- GUARD_UNLOCK: a host transaction that writes the key register. -/
def execGuardUnlock (key : Word) (s : State) : Host.Outcome State Fault Refusal :=
  (s.hostRow Reg.GUARD_UNLOCK false fun s => s.guardUnlock key).done

end Sys2Proof.Machine
end

