-- ==== Sys2Proof/Machine/HostPort.lean ====
section
/-! DEFINITION. The host port: transactions, the checks of an access and its effect (spec/02, R27 to R46). -/

namespace Sys2Proof.Machine

/-! ### The checks of an access (R32, R36) -/

/-- The spool SRAM (R34). -/
def inSram (a : Nat) : Bool := decide (0x800000 ≤ a) && decide (a < 0xC00000)

/-- The register an access at `a` concerns: the one whose word holds that byte, for a PEEK alias the one it shows. -/
def targetReg (a : Nat) : Nat := (peekOf (4 * (a / 4))).getD (4 * (a / 4))

/-- Whether something takes an access at an address: the SRAM, a register, and for reads a PEEK alias (R10, R40). -/
def hostKnown (a : Nat) (write : Bool) : Bool :=
  inSram a || (findReg (4 * (a / 4))).isSome || (!write && (peekOf (4 * (a / 4))).isSome)

/-- One access: address, bytes (0: a size or length that is allowed nowhere), burst or single, read or write. -/
structure Access where
  addr  : Nat
  bytes : Nat
  burst : Bool
  write : Bool
  deriving DecidableEq, Repr

/-- Whether the access's size is allowed there. -/
def Access.sizeOk (x : Access) : Bool :=
  if inSram x.addr && !x.burst then x.bytes == 1 || x.bytes == 2 || x.bytes == 4 else x.bytes == 4

/-- The first check an access fails, before the guard lock's. -/
def State.hostCheck (s : State) (x : Access) : HostCode :=
  if !hostKnown x.addr x.write then .noReg
  else if !x.sizeOk then .sizeFault
  else if x.addr % x.bytes ≠ 0 then .alignFault
  else if !inSram x.addr && !s.reachable (targetReg x.addr) then .domainOff
  else .ok

/-! ### What an access does -/

/-- An access answered (R32, R38). -/
def State.hostAnswer (s : State) (x : Access) (c : HostCode) : State := s.answerAt (targetReg x.addr) x.addr c

/-- What a read that is refused answers (R36, R38). -/
def refusedWord (c : HostCode) : Word := if c = .domainOff then 0x0FF00FF0 else 0

/-- Bits that hardware sets in an RC register in the clearing read cycle stay set (R44). -/
def State.hwSets (s : State) (a : Nat) (hw : Word) : State :=
  if hw &&& rcMask a = 0 then s else s.setReg a (s.reg a ||| (hw &&& rcMask a))

/-- A read of one item: what is sent, of the SRAM the byte at its address in bits 7:0 (R27), the code, the state after it. One that is not ready or not sent in full has no effect; `hw`: bits
hardware sets in an RC register in the clearing cycle (R30, R33, R39, R44). So the low word of a pair that underruns captures nothing: R30
speaks of clearing, and R37 does not say (the model's choice: log entry 87). -/
def State.hostFetch (s : State) (x : Access) (sent : Bool) (hw : Word) : Word × HostCode × State :=
  match s.hostCheck x with
  | .ok =>
    if inSram x.addr then ((if sent then BitVec.ofNat 32 (s.sramLoad x.addr x.bytes) else 0), .ok, s)
    else
      let (w, s') := s.readWord x.addr
      ((if sent then w else 0), .ok, (if sent then s'.clearRc x.addr w else s).hwSets x.addr hw)
  | c => ((if sent then refusedWord c else 0), c, s.hostAnswer x c)

/-- A write of one item (R32, R42, R44, R51). -/
def State.hostStore (s : State) (x : Access) (v : Word) (hw : SameCycle) : HostCode × State :=
  match s.hostCheck x with
  | .ok =>
    if inSram x.addr then (.ok, s.setSramBytes x.addr (sliceBytes (wordBytes v) 0 x.bytes))
    else
      let (s', refused) := (s.hwBefore x.addr hw).writeReg x.addr v
      let s' := s'.hwAfter x.addr hw
      if refused then (.guardLock, s'.hostAnswer x .guardLock) else (.ok, s')
  | c => (c, s.hostAnswer x c)

/-! ### Transactions (R28 to R33) -/

/-- The fields OP, SIZE, LEN and ADDR of a 32-bit command word (R28). -/
def hostCommand (w : Word) : HostOp × BitVec 2 × BitVec 4 × BitVec 24 :=
  let op := match (w.extractLsb' 30 2).toNat with | 0 => HostOp.read | 1 => .write | 2 => .burstRead | _ => .burstWrite
  (op, w.extractLsb' 28 2, w.extractLsb' 24 4, w.extractLsb' 0 24)

/-- The command a transaction's command word picks (R28), with the words the host sends in its data phase and, of a read, the words that
are not ready as it clocks them. -/
def hostInstr (w : Word) (words : List Word) (notReady : List Nat) : Instr :=
  match hostCommand w with
  | (.read, z, len, a) => .hostRead z len a (notReady.isEmpty)
  | (.write, z, len, a) => .hostWrite z len a (words.headD 0)
  | (.burstRead, z, len, a) => .burstRead z len a notReady
  | (.burstWrite, z, len, a) => .burstWrite z len a words

/-- The command word of those fields (R28). -/
def hostCommandWord (op : HostOp) (z : BitVec 2) (len : BitVec 4) (a : BitVec 24) : Word :=
  (BitVec.ofNat 2 (hostOpNum op) ++ z ++ len ++ a)

/-- Bytes of an item of SIZE. -/
def sizeBytes (z : BitVec 2) : Nat := match z.toNat with | 0 => 1 | 1 => 2 | 2 => 4 | _ => 0

/-- The access of word `i` of a transaction; a length that is not allowed is allowed nowhere. -/
def hostAccess (op : HostOp) (z : BitVec 2) (len : BitVec 4) (a : BitVec 24) (i : Nat) : Access :=
  let burst := op == .burstRead || op == .burstWrite
  let lenOk := if burst then decide (len.toNat ≤ 10) else len == 0
  { addr := a.toNat + 4 * i, bytes := if lenOk then sizeBytes z else 0, burst, write := op == .write || op == .burstWrite }

/-- Words of a transaction's data phase. DESIGN CHOICE, log entry 72: a burst whose LEN is 11 to 15 has none, and is answered with one
SIZE_FAULT (R28, R29). -/
def hostWords (op : HostOp) (len : BitVec 4) : Nat :=
  if op = .read ∨ op = .write then 1 else if len.toNat ≤ 10 then 2 ^ len.toNat else 0

/-- A transaction on its way: the state, what has been sent, the first code that is not OK with its address, whether a word underran. -/
structure HostRun where
  s     : State
  data  : List Word := []
  fault : Option (HostCode × Nat) := none
  under : Bool := false
  deriving DecidableEq, Repr

/-- A word's code. -/
def HostRun.note (r : HostRun) (c : HostCode) (a : Nat) : HostRun :=
  if c = .ok ∨ r.fault.isSome = true then r else { r with fault := some (c, a) }

/-- A word read; one that is not `ready` as the host clocks it is sent as 0 and sets UNDERRUN, whatever its code (R30). IRQ_STATUS takes
what is pending before the next word (R52). -/
def HostRun.fetch (r : HostRun) (x : Access) (ready : Bool) (hw : Word) : HostRun :=
  let (w, c, s) := r.s.hostFetch x ready hw
  let s := s.when (!ready) fun s => s.raise Reg.HOST_EVENT Fld.HOST_EVENT_UNDERRUN
  ({ r with s := s.settle, data := r.data ++ [w], under := r.under || !ready }).note c x.addr

/-- A word written; IRQ_STATUS takes what is pending before the next one (R52). -/
def HostRun.store (r : HostRun) (x : Access) (v : Word) (hw : SameCycle) : HostRun :=
  let (c, s) := r.s.hostStore x v hw
  ({ r with s := s.settle }).note c x.addr

/-- A burst whose length is not allowed: SIZE_FAULT, unless no register stands at its address (R28, R32). DESIGN CHOICE, log entry 72: it is
recorded in HOST_EVENT and HOST_FAULT also where HCSn cuts the burst short, while a single access of which nothing was sent or received records
nothing (R33). -/
def HostRun.lenFault (r : HostRun) (x : Access) : HostRun :=
  let c := r.s.hostCheck { x with bytes := 0 }
  ({ r with s := r.s.hostAnswer x c }).note c x.addr

/-- HOST_FAULT of a transaction that did not complete with OK. -/
def State.hostFault (s : State) (op : HostOp) (z : BitVec 2) (f : Option (HostCode × Nat)) : State :=
  match f with
  | none => s
  | some (c, a) => s.faultAt op z c a

/-- HCSn rises: a software full reset that was asked for takes place (R304); it has no effect in Tether mode (R303). -/
def State.hostEnd (s : State) : State :=
  if !s.pwr.fullReq then s
  else if s.inTether then { s with pwr := { s.pwr with fullReq := false } }
  else (s.globalReset 4).resetWake

/-- A transaction's end: the status byte, or ABORT where HCSn cut it short (R31, R33). -/
def HostRun.finish (r : HostRun) (op : HostOp) (z : BitVec 2) (aborted : Bool) : State :=
  let s := r.s.hostFault op z r.fault
  let s := (s.when aborted fun s => s.raise Reg.HOST_EVENT Fld.HOST_EVENT_ABORT).settle
  let code := match r.fault with | some (c, _) => c.num | none => 0
  (s.hostSends r.data r.under code aborted).hostEnd

/-- The words of a read, `n` of them. -/
def HostRun.reads (r : HostRun) (op : HostOp) (z : BitVec 2) (len : BitVec 4) (a : BitVec 24) (n : Nat) (notReady : List Nat) :
    HostRun :=
  if hostWords op len = 0 then r.lenFault (hostAccess op z len a 0)
  else (List.range n).foldl (fun r i => r.fetch (hostAccess op z len a i) (!notReady.contains i) 0) r

/-- The words of a write. -/
def HostRun.writes (r : HostRun) (op : HostOp) (z : BitVec 2) (len : BitVec 4) (a : BitVec 24) (ws : List Word) : HostRun :=
  if hostWords op len = 0 then r.lenFault (hostAccess op z len a 0)
  else ((List.range (hostWords op len)).zip ws).foldl (fun r p => r.store (hostAccess op z len a p.1) p.2 .none) r

/-- The data phase of a transaction: the words the host sends, how many of the words read go out in full, those that are not ready. -/
structure HostData where
  words    : List Word := []
  sent     : Nat := 1024
  notReady : List Nat := []
  deriving DecidableEq, Repr

/-- The words of a transaction, as OP has it. -/
def HostRun.words (r : HostRun) (op : HostOp) (z : BitVec 2) (len : BitVec 4) (a : BitVec 24) (d : HostData) : HostRun :=
  match op with
  | .read | .burstRead => r.reads op z len a (min d.sent (hostWords op len)) d.notReady
  | .write | .burstWrite => r.writes op z len a d.words

/-- A transaction: the fields of its command word `w` pick what it does (R28). Nothing is executed while the host port is not live, and HMISO
sends nothing, but the fall of HCSn wakes a part that sleeps (R34, R288, R329). -/
def State.hostTransaction (s : State) (w : Word) (aborted : Bool) (d : HostData) : State :=
  let (op, z, len, a) := hostCommand w
  if !s.hostLive then s.hostMute.when s.hcsnWakes fun s => s.hcsnFalls.wakeGo
  else ({ s := s.hostBegin : HostRun }.words op z len a d).finish op z aborted

/-- A 32-bit transaction at one register, of command word `w`, whose word meets what hardware does in the same cycle (R44). -/
def State.regTransaction (s : State) (w : Word) (aborted : Bool) (f : HostRun → Access → HostRun) : State :=
  let (op, z, len, a) := hostCommand w
  if !s.hostLive then s.hostMute.when s.hcsnWakes fun s => s.hcsnFalls.wakeGo
  else (f { s := s.hostBegin } (hostAccess op z len a 0)).finish op z aborted

/-- HOST_READ. -/
def execHostRead (z : BitVec 2) (len : BitVec 4) (a : BitVec 24) (ready : Bool) (s : State) : Host.Outcome State Fault Refusal :=
  (s.hostTransaction (hostCommandWord .read z len a) false { notReady := if ready then [] else [0] }).done

/-- HOST_WRITE. -/
def execHostWrite (z : BitVec 2) (len : BitVec 4) (a : BitVec 24) (v : Word) (s : State) : Host.Outcome State Fault Refusal :=
  (s.hostTransaction (hostCommandWord .write z len a) false { words := [v] }).done

/-- BURST_READ. -/
def execBurstRead (z : BitVec 2) (len : BitVec 4) (a : BitVec 24) (notReady : List Nat) (s : State) :
    Host.Outcome State Fault Refusal :=
  (s.hostTransaction (hostCommandWord .burstRead z len a) false { notReady }).done

/-- BURST_WRITE. -/
def execBurstWrite (z : BitVec 2) (len : BitVec 4) (a : BitVec 24) (ws : List Word) (s : State) : Host.Outcome State Fault Refusal :=
  (s.hostTransaction (hostCommandWord .burstWrite z len a) false { words := ws }).done

/-- ABORT: items received in full take effect, words sent in full clear (R33). -/
def execAbort (op : HostOp) (z : BitVec 2) (len : BitVec 4) (a : BitVec 24) (ws : List Word) (sent : Nat) (s : State) :
    Host.Outcome State Fault Refusal :=
  (s.hostTransaction (hostCommandWord op z len a) true { words := ws, sent }).done

/-- RC_READ: a 32-bit read of an RC register. One that is not sent in full has no effect; what hardware sets stays (R33, R39). -/
def execRcRead (a : BitVec 24) (hw : Word) (sent : Bool) (s : State) : Host.Outcome State Fault Refusal :=
  (s.regTransaction (hostCommandWord .read 2 0 a) (!sent) fun r x =>
    if sent then r.fetch x true hw
    else if r.s.hostCheck x = .ok && !inSram x.addr then { r with s := r.s.hwSets x.addr hw } else r).done

/-- REGISTER_WRITE: a 32-bit write of a register. -/
def execRegisterWrite (a : BitVec 24) (v : Word) (hw : SameCycle) (s : State) : Host.Outcome State Fault Refusal :=
  (s.regTransaction (hostCommandWord .write 2 0 a) false fun r x => r.store x v hw).done

end Sys2Proof.Machine
end

