-- ==== Sys2Proof/Machine/Dies.lean ====
section
/-! DEFINITION. Die links, CK at the dies and the timebase (spec/01, R6, R15 to R17; spec/02, R45, R46). -/

namespace Sys2Proof.Machine

/-- A bit of a die in a field of SYS_DIE_EVENT. -/
def State.dieRaise (s : State) (f : Fld) (d : Die) : State := s.raise Reg.SYS_DIE_EVENT (f.bit d.bit)

/-- The key of a die-link word in State.linkFails: its die and its number. -/
def wordKey (d : Die) (word : Nat) : Nat := d.bit + 8 * word

/-- The failed sends in a row of a die-link word (R16). -/
def State.failsOf (s : State) (d : Die) (word : Nat) : Nat := (lookupKey s.linkFails (wordKey d word)).getD 0

/-- The die of the register at an address. -/
def regDie (a : Nat) : Option Die := (findReg a).map fun p => p.1.die

/-- An event bit of a die, which CORE's registers hold only while CORE is on. -/
def State.dieEvent (s : State) (f : Fld) (d : Die) : State := s.when (s.on .core) fun s => s.dieRaise f d

/-- Whether a die exchanges words with CD: its domain is on, or its Tether island works, LD0's while it holds P0 and MD's in Tether mode
(R291, R292); the keeper core uses the links without CORE (R198, R283). CK drives something in the die at the same times. -/
def State.dieClocked (s : State) (d : Die) : Bool :=
  s.on (dieDomain d) || (d == .ld0 && s.islandOn) || (d == .md && s.inTether)

/-- The link to a die is declared down (R16): what still waited for a boundary there is lost with it. -/
def State.linkFails16 (s : State) (d : Die) : State :=
  let s := { s with linkDown := vset s.linkDown d.bit true, linkFails := s.linkFails.filter fun p => p.1 % 8 != d.bit }
  let s := s.dropLate fun a => regDie a == some d
  (s.dieEvent Fld.SYS_DIE_EVENT_LINK_DOWN d).log .fatal 0x0012 0x02 d.bit 0 0 0

/-- A failed send is repeated, counted, and logged at most once a second; a write it carries past its boundary waits for the next one
(R15, R16). SYS_LINK_RETRY and SYS_DIE_EVENT, which are CORE's, take part only while CORE is on (R38). -/
def State.linkRepeat (s : State) (d : Die) (word n : Nat) (late : Option (BitVec 24 × Word)) : State :=
  let s := { s with linkFails := insertKey s.linkFails (wordKey d word) n }
  let s := (s.when (s.on .core) fun s => s.count Reg.SYS_LINK_RETRY Reg.SYS_DIE_EVENT Fld.SYS_DIE_EVENT_CTR_SAT 1).retryEntry d
  match late with
  | some (a, v) =>
    let s := s.overWrite a.toNat v
    { s with late := s.late ++ [s.lateOf a.toNat v] }.dieEvent Fld.SYS_DIE_EVENT_LATE d
  | none => s

/-- LINK_WORD_FAIL, with CORE on or off. CD has no link to itself; a die without power or whose link is down gets no words. -/
def execLinkWordFail (d : Die) (x : LinkSend) (s : State) : Host.Outcome State Fault Refusal :=
  (if d = .cd ∨ s.dieClocked d = false ∨ s.linkIsDown d = true then s
   else
     let n := s.failsOf d x.word + 1
     if 16 ≤ n then s.linkFails16 d else s.linkRepeat d x.word n x.late).done

/-- What a die does when CK is absent for more than 2 µs (R17). DESIGN CHOICE, log entry 64: conversions that MD abandons go back to the
sequence and count in REQUEUE_COUNT, as a slice reset's do (R299); injected entries that are left go on at the first boundary after CK returns (R86). -/
def State.dieSafe (s : State) (d : Die) : State :=
  match d with
  | .ld0 => s.ldCkLoss 0
  | .ld1 => s.ldCkLoss 1
  | .ld2 => s.ldCkLoss 2
  | .ld3 => s.ldCkLoss 3
  | .md =>
    let s := s.when (s.on .meas) fun s => (iterate 5 (fun i s => s.sliceDrop i) s).abandonRun.injCheckDone
    { s with tether := { s.tether with conv := none } }
  | .td => (s.cutTx .tw).cutTx .te
  | .bd => s
  | .cd => s

/-- CK_LOSS. CD makes CK and never loses it. -/
def execCkLoss (d : Die) (s : State) : Host.Outcome State Fault Refusal :=
  (s.when (d != .cd && s.dieClocked d && !s.ckIsLost d) fun s =>
    ({ s.dieSafe d with ckLost := vset s.ckLost d.bit true }.when (d == Die.ld0) State.armTether).bypassCheck).done

/-- The instants of the boundary strobes to come: the loop tick's, that of the frame in progress by the FRAME_LEN in force, on which the
Reel steps too, the ring cycle's and that of a captured load of TIME (R14, R46, R53, R128, R257). -/
def State.strobes (s : State) : List Nat :=
  let p := s.ringPeriod
  [s.tickAt] ++ (if s.measRuns && s.seq.frameSeen then [s.seq.frameAt + (s.reg Reg.FRAME_LEN).toNat] else []) ++
    (if s.inTether && !s.ckIsLost .md then [s.tether.frameAt + s.tether.frameLen] else []) ++
    (if s.on .trunk then [s.ckAtTick (p - s.time.toNat % p)] else []) ++
    (match s.tbLoad with | some (_, due) => [16 * tickAfter due] | none => [])

/-- The next boundary strobe, the first of them that is still ahead. -/
def State.nextStrobe (s : State) : Nat :=
  let l := s.strobes.filter fun c => decide (s.ck < c)
  l.foldl min (l.headD s.ck)

/-- CK_RETURN: the die resynchronises at the next boundary strobe, up to which time passes, and then come the event and the log
entry (R17); the MD island starts a frame there (DESIGN CHOICE, log entry 72). -/
def execCkReturn (d : Die) (s : State) : Host.Outcome State Fault Refusal :=
  (s.when (s.ckIsLost d) fun s =>
    let s := s.passTo s.nextStrobe
    let s := { s with ckLost := vset s.ckLost d.bit false }.when (d == Die.ld0) State.armTether
    let s := s.when (d == Die.md && s.inTether) fun s => s.islandFrame s.ck
    let s := s.when (s.on .core) fun s => s.dieRaise Fld.SYS_DIE_EVENT_CK_LOSS d
    s.log .fatal 0x0013 0x02 d.bit 0 0 0).done

/-- TB_LOAD: the load of TB_SET is accepted, and time passes to the tick at which TIME takes it (R46), which can close a second (R58). -/
def execTbLoad (s : State) : Host.Outcome State Fault Refusal :=
  (s.hostRow Reg.TB_CTL false fun s => (s.tbCapture.passTo (16 * tickAfter (s.ck + 24))).closeSecond).done

/-- TB_INVALIDATE. -/
def execTbInvalidate (s : State) : Host.Outcome State Fault Refusal := (s.hostRow Reg.TB_CTL false State.tbInvalid).done

/-- TIME_WRAP: time passes to the tick at which TIME wraps to 0 (R45), which closes the second (R58). -/
def execTimeWrap (s : State) : Host.Outcome State Fault Refusal :=
  (s.passTo (s.ckAtTick (2 ^ 64 - s.time.toNat))).closeSecond.done

end Sys2Proof.Machine
end

