-- ==== Sys2Proof/Machine/LoopTick.lean ====
section
/-! DEFINITION. The loop tick and the frame boundary (spec/06, R128; spec/03, R53; spec/01, R15; spec/04, R98). -/

namespace Sys2Proof.Machine

/-! ### Late writes (R15) -/

/-- Writes that missed their boundary and wait for the next one at registers `p` go in force. -/
def State.lateWrites (s : State) (p : Nat → Bool) : State :=
  (s.late.filter fun w => p w.addr).foldl State.lateWrite (s.dropLate p)

/-- Registers whose writes wait for the frame boundary (MD), the ring cycle (TD), the loop tick (every other die). -/
def frameAddr (a : Nat) : Bool := a / 0x10000 == 0x10
def cycleAddr (a : Nat) : Bool := a / 0x100000 == 4
def tickAddr (a : Nat) : Bool := !frameAddr a && !cycleAddr a

/-! ### Spool 2 (R98) -/

/-- Whether the readback of port `n` runs (R98, R132). -/
def State.readbackOn (s : State) (n : Nat) : Bool := s.portPowered n

/-- The entry of port `n` at this tick. -/
def State.loopEntry (s : State) (n : Nat) : List Byte :=
  let f (x : Fld) : Bool := s.flag (Reg.PORT_STATUS n) x
  let w1 := s.seqLoop.toNat + b2n (f Fld.PORT_STATUS_KEEPER) * 2 ^ 18 + b2n (f Fld.PORT_STATUS_FAILSAFE) * 2 ^ 19 +
    b2n (f Fld.PORT_STATUS_MISWIRE) * 2 ^ 20 + b2n (f Fld.PORT_STATUS_TONE_CLIP) * 2 ^ 21 +
    b2n (f Fld.PORT_STATUS_LOOP_HEADROOM) * 2 ^ 22 + b2n (f Fld.PORT_STATUS_LOOP_MISMATCH) * 2 ^ 23 + (0x80 + n) * 2 ^ 24
  wordBytes (s.reg (Reg.LOOP_RB n)) ++ leBytes 4 w1 ++ timeBytes s.time

/-- Spool 2 logs at tick `k`. -/
def State.spool2Log (s : State) (k : Nat) : State :=
  let div := clampNat 1 1000 (s.fld Reg.SPOOL2_SRC Fld.SPOOL2_SRC_DIV)
  if k % div != 0 then s
  else iterate 16 (fun n s =>
    s.when ((Fld.SPOOL2_SRC_PORT_EN.bit n).on (s.reg Reg.SPOOL2_SRC) && s.readbackOn n) fun s =>
      { s.spoolWrite 2 (s.loopEntry n) s.tbValid with seqLoop := s.seqLoop + 1 }) s

/-! ### CD's part of a tick -/

/-- ENGINE_LOAD over the whole second that ends at tick `k`: the busy share of the four cores in 0.1 % (R176). DESIGN CHOICE, log entry
64: the share is cut to whole units of 0.1 %. -/
def State.engineLoad (s : State) (k : Nat) : State :=
  if k % 1000 != 0 || k == 0 then s
  else
    let load := min 1000 (s.engBusy * 1000 / (4 * secCk 1))
    let s := { s with engBusy := 0 }
    (s.setFld Reg.ENGINE_LOAD Fld.ENGINE_LOAD_LOAD load).setFld Reg.ENGINE_LOAD Fld.ENGINE_LOAD_PEAK
      (max load (s.fld Reg.ENGINE_LOAD Fld.ENGINE_LOAD_PEAK))

/-- Whether nothing is being sent on the trunk. -/
def State.trunkQuiet (s : State) : Bool :=
  [Trx.tw, .te].all fun t => (s.trunk t).queue.isEmpty && (s.trunk t).sending.isNone

/-- A STATE_REQ begins once its response has left, no later than 10 ms after it was accepted (R282): at the first loop tick at which the
trunk sends nothing, or 9 ms after. DESIGN CHOICE, log entry 77: the response to the host has left when RESULT and DONE stand. -/
def State.stateReqTick (s : State) : State :=
  match s.pwr.stateReq with
  | none => s
  | some (x, t) =>
    if s.trunkQuiet || decide (t + msCk 9 ≤ s.ck) then
      let s := { s with pwr := { s.pwr with stateReq := none } }
      s.when (s.on .core) fun s => s.entryRequest (x == 2)
    else s

/-- What CD does at a tick before the ports act; the count k runs from CORE power-up (R174). -/
def State.tickCore (s : State) : State :=
  if !s.on .core then s
  else
    let k := s.tick
    ({ s.calLoadTick with tick := k + 1 }.periodDue k).engineLoad k

/-- What CD does with a tick's samples: Spool 2 and the lanes' loop sources. A link declared down stops register accesses (R16) and not
these samples (the model's choice: log entry 87). -/
def State.tickAfterPorts (s : State) : State :=
  if !s.on .core then s
  else iterate 16 (fun n s => s.when (s.readbackOn n) fun s => s.deliver 2 n) (s.spool2Log (s.tick - 1))

/-- The loop tick. What it logs comes in the order of the sources: CD, the ports and keepers, the trunk, the power manager, the guard
(R308); a wake that a keeper has begun goes on as far as it can. -/
def State.loopTick (s : State) (samples : List PortSample) : State :=
  let s := (s.when (s.on .core) State.windowServe).calSave.passTo s.tickAt
  let s := { s with tickAt := s.ck + msCk 1 }.scanEnd
  let s := (s.lateWrites tickAddr).tickCore
  let s := iterate 16 (fun n s => s.portTick n (nth samples n ⟨[], 0, 0, false, false⟩)) s
  let s := iterate 4 (fun d s => s.keeperTick d) s
  let s := s.armTether.tickAfterPorts.xtalReturn.stateReqTick.wakeGo
  (s.when (s.on .core) State.guardScan).snapTick.calCapture

/-- LOOP_TICK. -/
def execLoopTick (samples : List PortSample) (s : State) : Host.Outcome State Fault Refusal := (s.loopTick samples).done

/-- Whether the next frame boundary is the Tether island's: it alone works, or its frame ends no later than MEAS's, which ends the first frame
boundary of a MEAS just powered up now. DESIGN CHOICE, log entry 81: in the wake out of Tether mode, where both work, the frame that ends
first has the boundary (R292, R297). -/
def State.islandFirst (s : State) : Bool :=
  s.islandRuns && (!s.measRuns ||
    s.seq.frameSeen && decide (s.tether.frameAt + s.tether.frameLen ≤ s.seq.frameAt + (s.reg Reg.FRAME_LEN).toNat))

/-- FRAME_BOUNDARY: of MD, or of its Tether island (R53, R292). -/
def execFrameBoundary (s : State) : Host.Outcome State Fault Refusal :=
  (if s.islandFirst then s.tetherBoundary else s.when s.measRuns fun s => ((s.toFrameEnd.lateWrites frameAddr).measBoundary).calRecapture).done

end Sys2Proof.Machine
end

