-- ==== Sys2Proof/Machine/RingRx.lean ====
section
/-! DEFINITION. Messages that arrive: their codewords, cut-through, acceptance, the duplicate filter, delivery and forwarding, and
object-dictionary requests on the trunk (spec/11, R250, R254 to R256, R262 to R264, R270 to R273). -/

namespace Sys2Proof.Machine

/-! ### A frame in the decoder -/

/-- The fields of its header (R228). -/
def DecJob.sf (j : DecJob) : Nat := hdrBits j.hdr 122 2
def DecJob.ncw (j : DecJob) : Nat := hdrBits j.hdr 118 2
def DecJob.len (j : DecJob) : Nat := hdrBits j.hdr 109 9
def DecJob.prio (j : DecJob) : Nat := hdrBits j.hdr 105 2
def DecJob.hopDst (j : DecJob) : Nat := hdrBits j.hdr 91 7

/-- Whether every codeword has been decoded. -/
def DecJob.complete (j : DecJob) : Bool := decide (j.ncw ≤ j.got)

/-- Its message's bytes. -/
def DecJob.bytesOf (j : DecJob) : List Byte := sliceBytes j.bytes 0 j.len

/-- Its message's fields. -/
def DecJob.msg (j : DecJob) : Msg := readMsg j.bytesOf

/-- The first element of a list that meets a condition is replaced. -/
def replaceFirst {α : Type} (c : α → Bool) (f : α → α) : List α → List α
  | [] => []
  | x :: xs => if c x then f x :: xs else x :: replaceFirst c f xs

/-- The frame the next codeword of a port belongs to: the oldest one not yet decoded. -/
def Trunk.decoding (x : Trunk) : Option DecJob := (x.frames ++ x.job.toList).find? fun j => !j.complete

/-- That frame is replaced. -/
def Trunk.setDecoding (x : Trunk) (j : DecJob) : Trunk :=
  if x.frames.any (fun k => !k.complete) then { x with frames := replaceFirst (fun k => !k.complete) (fun _ => j) x.frames }
  else { x with job := some j }

/-! ### What a header and a first codeword decide (R254, R256, R262) -/

/-- Whether the hop names this node (R254). -/
def State.hopMine (s : State) (j : DecJob) : Bool := j.hopDst == s.nodeAddr || j.hopDst == 0x7F

/-- The conditions of acceptance that the first bytes show (R254). -/
def State.shapeOk (s : State) (j : DecJob) (m : Msg) : Bool :=
  s.hopMine j && decide (1 ≤ m.typ) && decide (m.typ ≤ 9) && decide (m.hops ≤ 94) && j.len == leAt j.bytes 8 2 + 16

/-- Whether a message bears this node's address as its origin. -/
def State.fromMe (s : State) (m : Msg) : Bool := s.nodeAddr != 0 && m.src == s.nodeAddr

/-- A positional message (R256). -/
def Msg.positional (m : Msg) : Bool := m.pos && m.dst == 0

/-- Whether the message is delivered here, and whether it is forwarded (R262). -/
def State.routes (s : State) (m : Msg) : Bool × Bool :=
  let on := m.distance != 95 && m.typ != 1 && m.typ != 2
  if s.fromMe m then (false, false)
  else if m.typ = 2 then (true, false)
  else if m.positional then (if m.distance = m.target then (true, false) else (false, on))
  else if s.nodeAddr ≠ 0 ∧ m.dst = s.nodeAddr then (true, false)
  else if m.dst = 0x7F then (true, on)
  else (false, on)

/-! ### The duplicate filter (R263) -/

/-- A number against one source's window: whether it is a duplicate, and the window with it. -/
def DupEntry.take (e : DupEntry) (q : BitVec 16) : Bool × DupEntry :=
  let up := (q - e.high).toNat
  let back := (e.high - q).toNat
  if up = 0 then (true, e)
  else if up < 0x8000 then
    let old := if up < 32 then e.mask <<< up else 0
    (false, { e with high := q, mask := if up ≤ 32 then old ||| (1#32 <<< (up - 1)) else 0 })
  else if back ≤ 32 then
    (e.mask.getLsbD (back - 1), { e with mask := e.mask ||| (1#32 <<< (back - 1)) })
  else (false, { e with high := q, mask := 0 })

/-- The filter of a source: only addresses 1 to 96 have an entry. -/
def filtered (src : Nat) : Bool := decide (1 ≤ src) && decide (src ≤ 96)

/-- Whether a number is a duplicate. -/
def State.isDup (s : State) (src : Nat) (q : BitVec 16) : Bool :=
  filtered src && (match s.ring.dup.find? (fun e => e.src == src) with | some e => (e.take q).1 | none => false)

/-- A number is entered; the source's 10 s start again. -/
def State.dupEnter (s : State) (src : Nat) (q : BitVec 16) : State :=
  if !filtered src then s
  else
    let e := match s.ring.dup.find? (fun e => e.src == src) with | some e => (e.take q).2 | none => { src, high := q }
    { s with ring := { s.ring with dup := e :: s.ring.dup.filter fun x => x.src != src } }.arm (.dupEntry src) (secCk 10)

/-- Whether a key waits for the decision of another frame than one of port `t`. -/
def State.keyElsewhere (s : State) (t : Trx) (k : Nat × BitVec 16) : Bool :=
  s.ring.tentative.any fun e => e.1 == k.1 && e.2.1 == k.2 && e.2.2 != t

/-- A first codeword has passed: its key is marked tentative, unless it already is one (R263). -/
def State.markKey (s : State) (t : Trx) (j : DecJob) : State :=
  let k := j.key
  let known := s.ring.tentative.any fun e => e.1 == k.1 && e.2.1 == k.2
  if s.bypassed || s.ring.inReset || leAt j.bytes 0 1 == 1 || !filtered k.1 || known then s
  else { s with ring := { s.ring with tentative := (k.1, k.2, t) :: s.ring.tentative } }

/-! ### Cut-through (R264) -/

/-- What is forwarded of the bytes decoded so far: HOPS + 1, the rest zeros until its codeword is known, and the CRC moved by what the
change of HOPS moves it, so that it matches downstream exactly if it matched here. -/
def cutBytes (j : DecJob) : List Byte :=
  let b := j.bytesOf
  let b' := patch b 6 [byte (leAt b 6 1 + 1)]
  if !j.complete then b'
  else
    let n := j.len - 4
    b'.take n ++ wordBytes (BitVec.ofNat 32 (leAt b n 4) ^^^ crc32c (b.take n) ^^^ crc32c (b'.take n))

/-- A frame forwarded by cut-through from port `t`. -/
def TxFrame.cutFrom (t : Trx) (f : TxFrame) : Bool := f.kind == .cut t

/-- Whether a frame whose first codeword is known is forwarded by cut-through from port `t`. -/
def State.cutsThrough (s : State) (t : Trx) (j : DecJob) : Bool :=
  let m := readMsg j.bytes
  let x := s.trunk t.other
  s.flag Reg.RING_CTL Fld.RING_CTL_CUT_THROUGH && !s.bypassed && !s.ring.inReset && s.shapeOk j m && (s.routes m).2 &&
    !s.isDup m.src m.seq && !s.keyElsewhere t j.key && s.txAllowed t.other && decide (s.txFrom t.other ≤ s.ck) &&
    x.queue.all (fun f => decide (f.prio < j.prio) && !f.cutFrom t)

/-- The frame joins the other port's queue; its line has already been quiet long enough (log entry 52). -/
def State.cutStart (s : State) (t : Trx) (j : DecJob) : State :=
  let quiet := (s.trunk t.other).quietAt
  let s := s.enqueue t.other { prio := j.prio, msg := cutBytes j, kind := .cut t, sf := some j.sf, len := j.len }
  s.setTrunk t.other { s.trunk t.other with quietAt := quiet }

/-- A further codeword goes into the frame being forwarded. -/
def State.cutGrow (s : State) (t : Trx) (j : DecJob) : State :=
  let x := s.trunk t.other
  let grow (f : TxFrame) : TxFrame := { f with msg := cutBytes j }
  let x := { x with queue := replaceFirst (TxFrame.cutFrom t) grow x.queue }
  match x.sending with
  | some f => if f.cutFrom t then
      s.setTrunk t.other { x with sending := some (grow f), sentCws := codePayload x.sentSf (cutBytes j) }
    else s.setTrunk t.other x
  | none => s.setTrunk t.other x

/-- A frame that was to be forwarded and has failed leaves the queue, if it has not started. -/
def State.cutDrop (s : State) (t : Trx) : State :=
  let x := s.trunk t.other
  s.setTrunk t.other { x with queue := x.queue.filter fun f => !f.cutFrom t }

/-! ### Codewords (R250) -/

/-- The decoder's counters. -/
def State.decCount (s : State) (pass : Bool) (iters : Nat) : State :=
  let add (s : State) (a n : Nat) : State := s.count a Reg.DEC_EVENT Fld.DEC_EVENT_CTR_SAT n
  let s := (add s Reg.DEC_CW_COUNT 1).setFld Reg.DEC_STATUS Fld.DEC_STATUS_LAST_ITER iters
  if pass then
    (add s Reg.DEC_ITER_SUM iters).setFld Reg.DEC_STATUS Fld.DEC_STATUS_PEAK_ITER
      (max iters (s.fld Reg.DEC_STATUS Fld.DEC_STATUS_PEAK_ITER))
  else (add s Reg.DEC_CW_FAIL_COUNT 1).raise Reg.DEC_EVENT Fld.DEC_EVENT_CW_FAIL

/-- A codeword is decoded: it passes with a zero syndrome (R250). -/
def State.codeword (s : State) (t : Trx) (soft : List Int) : State :=
  match (s.trunk t).decoding with
  | none => s
  | some j =>
    let (pass, iters, info) := decodePayload j.sf s.maxIter soft
    let s := s.decCount pass iters
    let j' := { j with got := j.got + 1, pass := j.pass && pass, bytes := j.bytes ++ sliceBytes info 0 (cwBytes j.sf) }
    let cut := j.got == 0 && pass && s.cutsThrough t j'
    let j' := { j' with fwd := j.fwd || cut }
    let s := s.setTrunk t ((s.trunk t).setDecoding j')
    let s := s.when (j.got == 0 && pass) fun s => s.markKey t j'
    let s := s.when cut fun s => s.cutStart t j'
    let s := s.when j.fwd fun s => s.cutGrow t j'
    s.when (j.fwd && !pass) fun s => s.cutDrop t

/-- CODEWORD_DECODED. -/
def execCodewordDecoded (t : Trx) (u q0 q : List Int) (s : State) : Host.Outcome State Fault Refusal :=
  (s.when s.tdRuns fun s => s.codeword t (u ++ q0 ++ q)).done

/-! ### Address conflict (R255) -/

/-- Another node uses this node's address: status, event, log entry, EVENT message; VALUE and SOURCE are free (log entry 8). -/
def State.addrConflict (s : State) : State :=
  let s := (s.raise Reg.RING_STATUS Fld.RING_STATUS_ADDR_CONFLICT).raise Reg.RING_EVENT Fld.RING_EVENT_ADDR_CONFLICT
  let s := s.log .error 0x0062 0x41 0 (BitVec.ofNat 32 s.nodeAddr) 0 0
  let (v, s) := s.free
  let (x, s) := s.free
  s.ringEventMsg 0x12 (x.toNat % 0x10000) v

/-! ### Object-dictionary requests (R270) -/

/-- A request message's answer: the opcode must fit the type, the body the value's length; a request of the window that is still pending
came first (R205). -/
def State.trunkRequest (s : State) (p : OdPath) (m : Msg) : Answer × State :=
  let s := s.windowServe
  let op := leAt m.body 0 1
  let a := leAt m.body 4 3
  let n := leAt m.body 8 2
  let v := sliceBytes m.body 12 n
  if m.body.length ≠ 12 + n then ({ code := .access }, s.touch p)
  else if m.typ = 3 ∧ op = 0x01 then s.odRequest p a none
  else if m.typ = 4 ∧ op = 0x02 then s.odRequest p a (some (leAt m.body 7 1, v))
  else if m.typ = 4 ∧ op = 0x10 ∧ n = 1 then s.sessionOpen p (leNat v)
  else if m.typ = 4 ∧ op = 0x11 then s.sessionAuth p v
  else if m.typ = 4 ∧ op = 0x12 ∧ n = 0 then s.sessionClose p
  else ({ code := .access }, s.touch p)

/-- The body of the answer. -/
def respBody (m : Msg) (a : Answer) : List Byte :=
  let v := if a.code == .ok then a.value else []
  [byte (leAt m.body 0 1 + 0x80), byte a.code.num] ++ leBytes 2 (leAt m.body 2 2) ++ leBytes 3 (leAt m.body 4 3) ++
    [byte (if a.code == .ok then a.typ else 0)] ++ leBytes 2 v.length ++ leBytes 2 m.seq.toNat ++ v

/-- An answer goes to its requester: both ways, or one way back from an unassigned node; a requester without an address is answered
at the distance it stands at. -/
def State.trunkReply (s : State) (t : Trx) (m : Msg) (body : List Byte) : State :=
  let (q, s) := s.takeSeq
  let r : Msg := { typ := 5, src := s.nodeAddr, dst := m.src, seq := q, body }
  if m.src = 0 then s.sendOn t .plain 2 { r with flags := 2, target := m.distance }
  else if s.nodeAddr = 0 then s.sendOn t .plain 2 r
  else (s.sendOn .tw .plain 2 r).sendOn .te .plain 2 r

/-- A source's last transaction. -/
def State.tidOf (s : State) (src : Nat) : Option (BitVec 16 × List Byte) :=
  (s.od.lastTid.find? fun e => e.1 == src).map (·.2)

/-- A delivered OD_READ or OD_WRITE while CORE runs: the stored response again, or the request and its response. -/
def State.trunkServe (s : State) (t : Trx) (m : Msg) : State :=
  let tid := BitVec.ofNat 16 (leAt m.body 2 2)
  let bcast := m.dst == 0x7F
  if bcast && m.typ == 3 then s.ringCount Reg.RING_DROP_COUNT 1
  else if !s.on .core then s
  else
    let again := match s.tidOf m.src with | some (x, b) => if x = tid then some b else none | none => none
    match again with
    | some b => (s.touch (.trunk (byte m.src))).when (!bcast) fun s => s.trunkReply t m b
    | none =>
      let r := s.trunkRequest (.trunk (byte m.src)) m
      let b := respBody m r.1
      let s := State.answered r
      let s := { s with od := { s.od with lastTid := (m.src, tid, b) :: s.od.lastTid.filter fun e => e.1 != m.src } }
      s.when (!bcast) fun s => s.trunkReply t m b

/-! ### Acceptance (R254, R262, R263, R268) -/

/-- A message waits for the step of its type. -/
def State.inboxPut (s : State) (t : Trx) (j : DecJob) : State :=
  let r : RxMsg := { bytes := j.bytesOf, port := t, time := j.time, ck := j.ck, stamp := s.time, valid := s.tbValid }
  { s with ring := { s.ring with inbox := s.ring.inbox ++ [r] } }

/-- Copies held for a key that has become final are dropped as duplicates. -/
def State.dropHeld (s : State) (k : Nat × BitVec 16) : State :=
  let n := (s.ring.held.filter fun p => p.2.key == k).length
  let s := { s with ring := { s.ring with held := s.ring.held.filter fun p => p.2.key != k } }
  if n = 0 then s else (s.ringCount Reg.RING_RX_MSG_COUNT n).ringCount Reg.RING_DUP_COUNT n

/-- Whether a frame's message meets every condition of R254. -/
def State.ringAccepts (s : State) (j : DecJob) : Bool :=
  let b := j.bytesOf
  j.pass && s.shapeOk j j.msg && crc32c (b.take (j.len - 4)) == BitVec.ofNat 32 (leAt b (j.len - 4) 4)

/-- A new message is delivered and forwarded. -/
def State.ringRoute (s : State) (t : Trx) (j : DecJob) (m : Msg) : State :=
  let (here, on) := s.routes m
  let s := s.when (on && !j.fwd) fun s => s.enqueue t.other { prio := j.prio, msg := { m with hops := m.hops + 1 }.bytes }
  s.when here fun s => if m.typ = 3 ∨ m.typ = 4 then s.trunkServe t m else s.inboxPut t j

/-- A message other than CYCLE that passed R254: origin, duplicates, route. -/
def State.ringTake (s : State) (t : Trx) (j : DecJob) (m : Msg) : State :=
  if s.fromMe m then (if s.ring.own.contains m.seq then s else s.addrConflict)
  else if s.isDup m.src m.seq then (s.dupEnter m.src m.seq).ringCount Reg.RING_DUP_COUNT 1
  else ((s.dupEnter m.src m.seq).ringRoute t j m).dropHeld j.key

/-- What a bypassed node keeps of a message (R268). -/
def State.bypassHears (s : State) (m : Msg) : State :=
  let s := s.ringCount Reg.RING_BYPASS_RX_COUNT 1
  s.when (m.typ == 1) fun s =>
    let no := BitVec.ofNat 32 (leAt m.body 0 4)
    let s := { s with ring := { s.ring with lastNo := some no, silent := 0 } }
    (s.setFld Reg.RING_STATUS Fld.RING_STATUS_MASTER (leAt m.body 16 1 % 128)).setReg Reg.RING_CYCLE_NO no

/-- The decision about a frame taken out of the decoder. -/
def State.ringDecide (s : State) (t : Trx) (j : DecJob) : State :=
  let m := j.msg
  if !s.ringAccepts j then ((s.ringCount Reg.RING_DROP_COUNT 1).when j.fwd fun s => s.cutDrop t).dropJob t j
  else if s.bypassed then (s.bypassHears m).dropJob t j
  else if m.typ ≠ 1 ∧ s.keyElsewhere t j.key = true then { s with ring := { s.ring with held := s.ring.held ++ [(t, j)] } }
  else
    let s := s.ringCount Reg.RING_RX_MSG_COUNT 1
    if m.typ = 1 then s.inboxPut t j else (s.ringTake t j m).dropJob t j

/-- RING_MESSAGE_ACCEPT: the oldest frame of the port that is decoded in full; one that meets the ring link's reset is lost. -/
def State.ringAccept (s : State) (t : Trx) : State :=
  match (s.trunk t).frames.find? DecJob.complete with
  | none => s
  | some j =>
    let s := s.setTrunk t { s.trunk t with frames := (s.trunk t).frames.erase j }
    if s.ring.inReset then s.dropJob t j else s.ringDecide t j

/-- RING_MESSAGE_ACCEPT. -/
def execRingMessageAccept (t : Trx) (s : State) : Host.Outcome State Fault Refusal :=
  (s.when s.tdRuns fun s => s.ringAccept t).done

/-! ### The host receive queue (R271 to R273) -/

/-- The oldest message of a type that waits for its step. -/
def State.inboxTake (s : State) (typ : Nat) (f : State → RxMsg → State) : State :=
  match s.ring.inbox.find? (fun r => (readMsg r.bytes).typ == typ) with
  | none => s
  | some r => f { s with ring := { s.ring with inbox := s.ring.inbox.erase r } } r

/-- A message enters the queue of 8, if its type is enabled. -/
def State.rxQueue (s : State) (bit : Nat) (r : RxMsg) : State :=
  if !(Fld.RING_RX_CTL_ACCEPT.bit bit).on (s.reg Reg.RING_RX_CTL) then s
  else if 8 ≤ s.ring.rxq.length then
    (s.ringCount Reg.RING_RX_LOST_COUNT 1).raise Reg.RING_EVENT Fld.RING_EVENT_RX_OVERRUN
  else { s with ring := { s.ring with rxq := s.ring.rxq ++ [r] } }.raise Reg.RING_EVENT Fld.RING_EVENT_RX_MSG

/-- A delivered message of type `5 + bit`. -/
def State.rxType (s : State) (bit : Nat) : State := s.when s.tdRuns fun s => s.inboxTake (5 + bit) fun s r => s.rxQueue bit r

/-- The master learns of breaks from LINK_BREAK reports (R269). -/
def State.rxEvent (s : State) (r : RxMsg) : State :=
  let m := readMsg r.bytes
  let s := s.when (leAt m.body 0 2 == 0x10) fun s => s.locateBreak (leAt m.body 2 2) m.src (leAt m.body 12 4 % 128)
  s.rxQueue 2 r

/-- OD_RESP. -/
def execRingOdResp (s : State) : Host.Outcome State Fault Refusal := (s.rxType 0).done

/-- RECORD. -/
def execRingRecord (s : State) : Host.Outcome State Fault Refusal := (s.rxType 1).done

/-- EVENT. -/
def execRingEvent (s : State) : Host.Outcome State Fault Refusal :=
  (s.when s.tdRuns fun s => s.inboxTake 7 fun s r => s.rxEvent r).done

/-- MAILBOX. -/
def execRingMailbox (s : State) : Host.Outcome State Fault Refusal := (s.rxType 3).done

/-- LAST_GASP. -/
def execRingLastGasp (s : State) : Host.Outcome State Fault Refusal := (s.rxType 4).done

end Sys2Proof.Machine
end

