-- ==== Sys2Proof/Machine/RingCycle.lean ====
section
/-! DEFINITION. The ring cycle: CYCLE and TIME messages, the ring-cycle boundary, the election, the code hunt and ring time (spec/11,
R257 to R261, R263, R269). -/

namespace Sys2Proof.Machine

/-! ### Keys and the master (R257, R258) -/

/-- This node's KEY: bit 7 is 0 if it is the configured master. -/
def State.ownKey (s : State) : Nat :=
  (if s.fld Reg.RING_CFG Fld.RING_CFG_MASTER_MODE = 1 then 0 else 128) + s.nodeAddr

/-- Whether the node may be master. -/
def State.eligible (s : State) : Bool := s.nodeAddr != 0 && decide (s.fld Reg.RING_CFG Fld.RING_CFG_MASTER_MODE ≤ 1)

/-- Whether the node is the master. -/
def State.isMaster (s : State) : Bool := s.ringRole == 2

/-- The master in force changes. -/
def State.setMaster (s : State) (a : Nat) : State :=
  if s.fld Reg.RING_STATUS Fld.RING_STATUS_MASTER = a then s
  else (s.setFld Reg.RING_STATUS Fld.RING_STATUS_MASTER a).raise Reg.RING_EVENT Fld.RING_EVENT_MASTER_CHANGE

/-- The master whose CYCLEs the node follows. -/
def State.follow (s : State) (key : Nat) : State :=
  { (s.setMaster (key % 128)) with ring := { s.ring with masterKey := some key } }

/-- CLOSED_W or CLOSED_E changes. -/
def State.setClosed (s : State) (f : Fld) (b : Bool) : State :=
  if s.flag Reg.RING_STATUS f = b then s else (s.setFlag Reg.RING_STATUS f b).raise Reg.RING_EVENT Fld.RING_EVENT_CLOSED

/-- The node becomes master; the next boundary has the number `no`, or the one after the last. VALUE and SOURCE of the EVENT are
free (log entry 8). -/
def State.becomeMaster (s : State) (no : Option Word) : State :=
  let s := { s with ring := { s.ring with masterKey := some s.ownKey, beMaster := false, higher := 0, higherNo := none, adopt := none,
                                          change := none, nextNo := no, closedW := 0, closedE := 0 } }
  let s := (((s.disarm .noCycle).disarm .election).setReg Reg.RING_STEER 0).setMaster s.nodeAddr
  let s := s.setRole 2
  let (v, s) := s.free
  let (x, s) := s.free
  s.ringEventMsg 0x20 (x.toNat % 0x10000) v

/-- On a node that hears no CYCLE the configured values operate; while a hunt is on, or has found a code index, that index stays
(R259). -/
def State.idleOperate (s : State) : State :=
  let (sf, code, ms) := s.cfgValues
  let kept := s.ring.huntKept || s.flag Reg.RING_STATUS Fld.RING_STATUS_CODE_HUNT
  s.operate (sf, if kept then s.opCode else code, ms)

/-- The node has no master. -/
def State.noMaster (s : State) : State :=
  let s := { s with ring := { s.ring with masterKey := none, beMaster := false, higher := 0, higherNo := none, adopt := none,
                                          change := none } }
  ((s.setMaster 0).setRole 0).idleOperate

/-! ### The body of a CYCLE (R257) -/

/-- What a CYCLE says. -/
structure CycleBody where
  no       : Word
  time     : BitVec 64
  delay    : Nat
  key      : Nat
  tbv      : Bool
  change   : Bool
  sf       : Nat
  code     : Nat
  nextSf   : Nat
  nextCode : Nat
  hops     : Nat
  ms       : Nat
  nextMs   : Nat
  changeAt : Word
  breakHop : Nat
  deriving DecidableEq, Repr

/-- Its bytes. -/
def CycleBody.bytes (c : CycleBody) : List Byte :=
  wordBytes c.no ++ timeBytes c.time ++ leBytes 4 c.delay ++
    [byte c.key, byte (b2n c.tbv + 2 * b2n c.change), byte (c.sf + 4 * c.code + 16 * c.nextSf + 64 * c.nextCode), byte c.hops] ++
    leBytes 2 c.ms ++ leBytes 2 c.nextMs ++ wordBytes c.changeAt ++ [byte c.breakHop, 0, 0, 0]

/-- A body read. -/
def readCycle (b : List Byte) : CycleBody :=
  let fl := leAt b 17 1
  let cfg := leAt b 18 1
  { no := BitVec.ofNat 32 (leAt b 0 4), time := BitVec.ofNat 64 (leAt b 4 8), delay := leAt b 12 4, key := leAt b 16 1,
    tbv := fl.testBit 0, change := fl.testBit 1, sf := cfg % 4, code := cfg / 4 % 4, nextSf := cfg / 16 % 4,
    nextCode := cfg / 64 % 4, hops := leAt b 19 1, ms := leAt b 20 2, nextMs := leAt b 22 2,
    changeAt := BitVec.ofNat 32 (leAt b 24 4), breakHop := leAt b 28 1 }

/-- The body the master sends; RING_TIME, DELAY and TB_VALID are set as the frame starts. With no change announced, the values for after
it are free (log entry 8). -/
def State.cycleBody (s : State) : CycleBody × State :=
  let (x, s) := s.free
  let (y, s) := s.free
  let (at_, sf, code, ms) := match s.ring.change with
    | some (n, sf, code, ms) => (n, sf, code, ms)
    | none => (y, x.toNat % 4, x.toNat / 4 % 4, x.toNat / 0x10000)
  ({ no := s.reg Reg.RING_CYCLE_NO, time := 0, delay := 0, key := s.ownKey, tbv := false, change := s.ring.change.isSome,
     sf := s.opSf, code := s.opCode, nextSf := sf, nextCode := code, hops := s.fld Reg.RING_STATUS Fld.RING_STATUS_RING_HOPS,
     ms := s.ring.opMs, nextMs := ms, changeAt := at_, breakHop := s.fld Reg.RING_TOPO Fld.RING_TOPO_BREAK_HOP }, s)

/-- The master sends a CYCLE on both ports. -/
def State.sendCycle (s : State) : State :=
  let (c, s) := s.cycleBody
  let m : Msg := { typ := 1, src := s.nodeAddr, dst := 0x7F, seq := c.no.setWidth 16, body := c.bytes }
  (s.sendOn .tw .cycle 3 m).sendOn .te .cycle 3 m

/-! ### Ring time (R261) -/

/-- ±100 ppm, in ppb. -/
def steerLimit (x : Int) : Int := clampInt (-100000) 100000 x

/-- TIME is loaded from the ring, which can close a second (R58). -/
def State.timeStep (s : State) (e : Int) : State :=
  let (n, s) := s.divFree e 16
  let s := (s.noteJump.loadTime (s.time + BitVec.ofInt 64 n)).closeSecond
  let s := (s.ringCount Reg.RING_TIME_STEP_COUNT 1).raise Reg.RING_EVENT Fld.RING_EVENT_TIME_STEP
  { (s.lower Reg.RING_STATUS Fld.RING_STATUS_TIME_LOCKED) with ring := { s.ring with goodSyncs := 0 } }

/-- The PLL is steered by e over the `dt` ticks since the previous sync; with no interval to divide by, S and F are free within their
limits (log entry 8). -/
def State.steer (s : State) (e : Int) (dt : Option Nat) : State :=
  let f := s.ring.steerF
  let (sNew, fNew, s) := match dt with
    | some n => if n = 0 then
        let (x, s) := s.free
        let (y, s) := s.free
        (x.toInt, y.toInt, s)
      else
        let (a, s) := s.divFree (e * 1000000000) (64 * n)
        let (b, s) := s.divFree (e * 1000000000) (128 * n)
        (f + a, f + b, s)
    | none =>
      let (x, s) := s.free
      let (y, s) := s.free
      (x.toInt, y.toInt, s)
  let good := if e.natAbs < 192 then s.ring.goodSyncs + 1 else 0
  let s := { s.setReg Reg.RING_STEER (ofInt32 (steerLimit sNew)) with
             ring := { s.ring with steerF := steerLimit fNew, goodSyncs := min 8 good } }
  s.when (decide (8 ≤ good)) fun s => s.raise Reg.RING_STATUS Fld.RING_STATUS_TIME_LOCKED

/-- The error e of a CYCLE received at TIME `at_`, in 1/16 tick. -/
def timeError (c : CycleBody) (at_ : BitVec 64) : Int := (c.time - at_).toInt * 16 + c.delay

/-- TIME at elapsed time `ck`, in the count TIME has now. -/
def State.timeThen (s : State) (ck : Nat) : BitVec 64 := s.time - BitVec.ofNat 64 (s.timeAt - ck / 16)

/-- A sync at the copy `r` of a CYCLE. -/
def State.sync (s : State) (r : RxMsg) : State :=
  let c := readCycle (readMsg r.bytes).body
  let e := timeError c (s.timeThen r.ck)
  let (x, s) := if decide (-2147483648 ≤ e) && decide (e < 2147483648) then (ofInt32 e, s) else s.free
  let last := s.ring.lastSync
  let s := { s.setReg Reg.RING_TIME_ERR x with
             ring := { s.ring with taken := c.no :: s.ring.taken, lastSync := some (r.ck / 16), sinceSync := 0 } }
  if !s.tbValid || decide (16384 ≤ e.natAbs) then s.timeStep e else s.steer e (last.map fun n => r.ck / 16 - n)

/-- The copy that waits is the one to synchronise to. -/
def State.syncNow (s : State) : State :=
  match s.ring.copy with
  | none => s
  | some (r, _) => { s with ring := { s.ring with copy := none } }.sync r

/-- The better of two copies of a CYCLE: at the smaller distance, from TW if the distances are equal. -/
def betterCopy (a b : RxMsg × Nat) : RxMsg × Nat := if a.2 < b.2 ∨ (a.2 = b.2 ∧ a.1.port = .tw) then a else b

/-- The number of a CYCLE's copy. -/
def RxMsg.cycleNo (r : RxMsg) : Word := (readCycle (readMsg r.bytes).body).no

/-- A copy of a CYCLE to synchronise to (R261). DESIGN CHOICE, log entry 69: of each number one sync is made, at the better copy. It is made once
a copy has come on both ports, at once where the other port counts as broken, and else at the next boundary or the next number. -/
def State.syncOffer (s : State) (r : RxMsg) (d : Nat) : State :=
  let put (s : State) (x : RxMsg × Nat) : State := { s with ring := { s.ring with copy := some x } }
  let first (s : State) : State := if s.portBroken r.port.other then (put s (r, d)).syncNow else put s (r, d)
  if s.ring.taken.contains r.cycleNo then s
  else match s.ring.copy with
  | none => first s
  | some x =>
    if x.1.cycleNo ≠ r.cycleNo then first s.syncNow
    else if x.1.port = r.port then put s (betterCopy (r, d) x)
    else (put s (betterCopy (r, d) x)).syncNow

/-! ### A CYCLE arrives (R257 to R261, R269) -/

/-- The receiver of a CYCLE answers on the port it came in on. -/
def State.timeAnswer (s : State) (c : CycleBody) (r : RxMsg) : State :=
  let (q, s) := s.takeSeq
  s.sendOn r.port (.time r.ck) 3
    { typ := 2, src := s.nodeAddr, dst := s.fld Reg.RING_TOPO (nbrFld r.port), seq := q, body := wordBytes c.no ++ leBytes 4 0 }

/-- The master's own CYCLE returns: what left on TW came back on TE, or the reverse. -/
def State.cycleReturn (s : State) (m : Msg) (r : RxMsg) : State :=
  let s := match r.port with
    | .te => { s.setClosed Fld.RING_STATUS_CLOSED_W true with ring := { s.ring with closedW := 0 } }
    | .tw => { s.setClosed Fld.RING_STATUS_CLOSED_E true with ring := { s.ring with closedE := 0 } }
  let s := s.setFld Reg.RING_STATUS Fld.RING_STATUS_RING_HOPS m.distance
  s.when (s.flag Reg.RING_STATUS Fld.RING_STATUS_CLOSED_W && s.flag Reg.RING_STATUS Fld.RING_STATUS_CLOSED_E) fun s =>
    (s.setFld Reg.RING_TOPO Fld.RING_TOPO_BREAK_HOP 0).lower Reg.RING_TOPO Fld.RING_TOPO_BREAK_VALID

/-- Consecutive CYCLEs of a master with a higher KEY than an eligible follower's own; each number counts once (R258). -/
def State.countHigher (s : State) (c : CycleBody) : State :=
  if !(s.eligible && decide (s.ownKey < c.key)) then { s with ring := { s.ring with higher := 0, higherNo := none } }
  else
    let n := if s.ring.higherNo = some (c.no - 1) then s.ring.higher + 1 else 1
    { s with ring := { s.ring with higher := n, higherNo := some c.no, beMaster := s.ring.beMaster || decide (3 ≤ n) } }

/-- Whether a CYCLE of the master followed is of a new cycle, not another copy of one whose number has come already, which can follow the
number after it the long way round (R257). DESIGN CHOICE, log entry 69: a number counts as come already where it is the newest or one of the
31 before it. -/
def State.cycleNew (s : State) (c : CycleBody) : Bool := s.ring.newest.all fun n => decide (32 ≤ (n - c.no).toNat)

/-- The first copy of a CYCLE: values to adopt, its number, its hop count, and the run of a higher KEY (R258, R259). -/
def State.cycleTake (s : State) (c : CycleBody) : State :=
  let change := if c.change then some (c.changeAt, c.nextSf, c.nextCode, cycleMs c.nextMs) else none
  let r := s.ring
  let s := { s with ring := { r with newest := some c.no, taken := r.taken.filter (fun n => decide ((c.no - n).toNat < 32)),
                                     adopt := some (c.sf, c.code, cycleMs c.ms), change := change } }
  ((s.setReg Reg.RING_CYCLE_NO c.no).setFld Reg.RING_STATUS Fld.RING_STATUS_RING_HOPS c.hops).countHigher c

/-- A CYCLE of the master followed: what the first copy brings, and the time of any (R258, R259, R261). -/
def State.cycleFollow (s : State) (c : CycleBody) (d : Nat) (r : RxMsg) : State :=
  let s := { s with ring := { s.ring with huntKept := false, silent := 0 } }
  let s := s.when (s.cycleNew c) fun s => s.cycleTake c
  s.when (s.flag Reg.RING_CTL Fld.RING_CTL_TIME_FOLLOW && c.tbv) fun s => s.syncOffer r d

/-- A follower builds a new CYCLE for its other port. -/
def State.cycleOn (s : State) (m : Msg) (r : RxMsg) : State :=
  s.when (decide (m.distance < 95)) fun s =>
    s.enqueue r.port.other { prio := 3, kind := .cycle, msg := { m with hops := m.hops + 1 }.bytes }

/-- Another node's CYCLE. A master yields to a lower KEY and leaves a higher one alone; a follower goes over to a lower KEY, or to any
once the master it follows has been silent for three periods. -/
def State.cycleOther (s : State) (c : CycleBody) (m : Msg) (r : RxMsg) : State :=
  let s := { s with ring := { s.ring with lastNo := some c.no } }
  if s.isMaster && decide (s.ownKey ≤ c.key) then s
  else
    let s := (s.disarm .election).armNoCycle
    let better := s.isMaster || (match s.ring.masterKey with
      | some k => decide (c.key < k) || (c.key != k && decide (3 ≤ s.ring.silent))
      | none => true)
    let s := s.when better fun s =>
      { (s.follow c.key).setRole 1 with ring := { (s.follow c.key).ring with change := none, adopt := none, higher := 0, higherNo := none,
                                                                              beMaster := false, nextNo := none, copy := none,
                                                                              newest := none, taken := [] } }
    let s := s.when (s.ring.masterKey == some c.key) fun s => s.cycleFollow c m.distance r
    s.cycleOn m r

/-- A received CYCLE. -/
def State.cycleRx (s : State) (r : RxMsg) : State :=
  let m := readMsg r.bytes
  let c := readCycle m.body
  let mine := s.nodeAddr != 0 && c.key % 128 == s.nodeAddr
  if s.bypassed then s
  else if mine && !s.isMaster then s.addrConflict
  else if mine then (s.timeAnswer c r).cycleReturn m r
  else (s.timeAnswer c r).cycleOther c m r

/-- CYCLE. -/
def execRingCycle (s : State) : Host.Outcome State Fault Refusal :=
  (s.when s.tdRuns fun s => s.inboxTake 1 fun s r => s.cycleRx r).done

/-! ### A TIME answer arrives (R260) -/

/-- A hop delay joins the mean of the last 8. -/
def State.hopDelay (s : State) (t : Trx) (d : Nat) : State :=
  let ds := (d :: (s.trunk t).delays).take 8
  let s := s.setTrunk t { s.trunk t with delays := ds, missed := 0 }
  let (mean, s) := s.divFree (ds.foldl (fun a b => a + b) 0 : Nat) ds.length
  (s.setReg (delayReg t) (ofInt32 mean)).breakCheck t

/-- A received TIME, against the CYCLE it answers. -/
def State.timeRx (s : State) (r : RxMsg) : State :=
  let m := readMsg r.bytes
  let no := BitVec.ofNat 32 (leAt m.body 0 4)
  match (s.trunk r.port).echoes.find? (fun e => e.1 == no) with
  | none => s
  | some e =>
    let s := s.setTrunk r.port { s.trunk r.port with echoes := (s.trunk r.port).echoes.erase e }
    let d : Int := 8 * ((r.time - e.2.1).toInt - leAt m.body 4 4)
    s.hopDelay r.port d.toNat

/-- TIME. -/
def execRingTime (s : State) : Host.Outcome State Fault Refusal :=
  (s.when s.tdRuns fun s => s.inboxTake 2 fun s r => s.timeRx r).done

/-- ECHO_TIMEOUT: the oldest CYCLE of the port that got no answer. -/
def execEchoTimeout (t : Trx) (s : State) : Host.Outcome State Fault Refusal :=
  (s.when s.tdRuns fun s =>
    match (s.trunk t).echoes with
    | [] => s
    | (_, _, due) :: es =>
      let s := s.passTo due
      (s.setTrunk t { s.trunk t with echoes := es, missed := (s.trunk t).missed + 1 }).breakCheck t).done

/-! ### The ring-cycle boundary (R257 to R259, R269) -/

/-- The other fields of RING_CFG_REQ go in force; a new address clears ADDR_CONFLICT (R255). -/
def State.cfgTake (s : State) : State :=
  let old := s.nodeAddr
  let mode := s.fld Reg.RING_CFG Fld.RING_CFG_MASTER_MODE
  let s := s.setReg Reg.RING_CFG (Fld.RING_CFG_MASTER_MODE.set (s.reg Reg.RING_CFG_REQ) mode)
  s.when (s.nodeAddr != old) fun s => s.lower Reg.RING_STATUS Fld.RING_STATUS_ADDR_CONFLICT

/-- The number of this boundary, on a node that follows a master or is one. -/
def State.cycleCount (s : State) : State :=
  if s.ring.masterKey.isNone then s
  else
    let no := s.ring.nextNo.getD (s.reg Reg.RING_CYCLE_NO + 1)
    { s.setReg Reg.RING_CYCLE_NO no with ring := { s.ring with nextNo := none } }

/-- Values adopted, and a change whose cycle this is, become operating. -/
def State.valuesTake (s : State) : State :=
  let s := match s.ring.adopt with
    | some v => { s.operate v with ring := { (s.operate v).ring with adopt := none } }
    | none => s
  match s.ring.change with
  | some (n, sf, code, ms) =>
    if n = s.reg Reg.RING_CYCLE_NO then
      let s := s.operate (sf, code, ms)
      { s with ring := { s.ring with change := none } }
    else s
  | none => s

/-- A cycle ends: at the end of the third whole one without a sync TIME_LOCKED clears, and eight syncs count from the start again (R261). The
boundary that ends the cycle of the last sync counts as the first. -/
def State.syncAge (s : State) : State :=
  let n := s.ring.sinceSync + 1
  if n < 4 then { s with ring := { s.ring with sinceSync := n } }
  else { s.lower Reg.RING_STATUS Fld.RING_STATUS_TIME_LOCKED with ring := { s.ring with sinceSync := n, goodSyncs := 0 } }

/-- Cycles without a return, sixteen whole ones after the cycle of the last, and cycles without a sync (R261, R269). -/
def State.cycleAges (s : State) : State :=
  let r := s.ring
  let s := { s with ring := { r with closedW := r.closedW + 1, closedE := r.closedE + 1, silent := r.silent + 1 } }
  let s := s.when (decide (16 < r.closedW + 1)) fun s => s.setClosed Fld.RING_STATUS_CLOSED_W false
  let s := s.when (decide (16 < r.closedE + 1)) fun s => s.setClosed Fld.RING_STATUS_CLOSED_E false
  s.syncAge

/-- The operating values as their triple. -/
def State.opValues (s : State) : Nat × Nat × Nat := (s.opSf, s.opCode, s.ring.opMs)

/-- A boundary on the master: its key follows its configuration, a difference from it is announced, CYCLE is sent. -/
def State.masterCycle (s : State) : State :=
  let s := { s.setMaster s.nodeAddr with ring := { s.ring with masterKey := some s.ownKey } }
  let (sf, code, ms) := s.cfgValues
  let s := s.when (s.ring.change.isNone && s.opValues != s.cfgValues) fun s =>
    { s with ring := { s.ring with change := some (s.reg Reg.RING_CYCLE_NO + 16, sf, code, ms) } }
  s.sendCycle

/-- A boundary, by the node's role. -/
def State.roleCycle (s : State) : State :=
  let s := s.when (s.ring.beMaster && s.eligible && s.ringRole == 1) fun s => s.becomeMaster none
  if s.ringRole = 2 then (if s.eligible then s.masterCycle else s.noMaster.armNoCycle)
  else s.when (s.ringRole == 0) State.idleOperate

/-- The instant of the next boundary: now, where a load of TIME has passed over one. -/
def State.toCycleEnd (s : State) : State :=
  if s.ring.crossed then { s with ring := { s.ring with crossed := false } }
  else
    let p := s.ringPeriod
    s.passTo (s.ckAtTick (p - s.time.toNat % p))

/-- A boundary on a bypassed node, which takes no sync (R261): one that has heard no CYCLE since TRUNK turned on, or none for three periods, operates with its
configured values (R259). DESIGN CHOICE, log entry 69: three periods, as R258 counts them. -/
def State.bypassCycle (s : State) : State :=
  let s := { s with ring := { s.ring with silent := s.ring.silent + 1 } }.syncAge
  s.when (s.ring.lastNo.isNone || decide (3 ≤ s.ring.silent)) State.idleOperate

/-- The ring-cycle boundary. -/
def State.ringBoundary (s : State) : State :=
  let s := (s.toCycleEnd.lateWrites cycleAddr).cfgTake
  if s.ring.inReset then s
  else if s.bypassed then s.bypassCycle
  else s.syncNow.cycleCount.valuesTake.cycleAges.roleCycle

/-- RING_CYCLE_BOUNDARY. -/
def execRingCycleBoundary (s : State) : Host.Outcome State Fault Refusal := (s.when s.tdRuns State.ringBoundary).done

/-! ### No CYCLE, election, code hunt, filter (R258, R259, R263) -/

/-- NO_CYCLE_TIMEOUT: no master; an eligible node waits KEY ms. -/
def execNoCycleTimeout (s : State) : Host.Outcome State Fault Refusal :=
  (s.fall .noCycle fun s =>
    let s := s.noMaster
    if s.eligible then s.arm .election (msCk s.ownKey) else s.armNoCycle).done

/-- ELECTION_WAIT_END: the node becomes master, its cycle numbers go on from the last it heard, or from 0. -/
def execElectionWaitEnd (s : State) : Host.Outcome State Fault Refusal :=
  (s.fall .election fun s =>
    if s.eligible then s.becomeMaster (some (match s.ring.lastNo with | some n => n + 1 | none => 0)) else s.armNoCycle).done

/-- CODE_HUNT_STEP: the next code index, each second. -/
def execCodeHuntStep (s : State) : Host.Outcome State Fault Refusal :=
  (s.fall .codeHunt fun s =>
    let s := (s.raise Reg.RING_STATUS Fld.RING_STATUS_CODE_HUNT).operate (s.opSf, (s.opCode + 1) % 4, s.ring.opMs)
    s.arm .codeHunt (secCk 1)).done

/-- DUP_ENTRY_EXPIRY. -/
def execDupEntryExpiry (src : BitVec 8) (s : State) : Host.Outcome State Fault Refusal :=
  (s.fall (.dupEntry src.toNat) fun s =>
    { s with ring := { s.ring with dup := s.ring.dup.filter fun e => e.src != src.toNat } }).done

end Sys2Proof.Machine
end

