-- ==== Sys2Proof/Machine/ToneFrame.lean ====
section
/-! DEFINITION. Elvan frames received, the requests they carry and the answers to them (spec/07, R157 to R167, R169). -/

namespace Sys2Proof.Machine

/-! ### Payloads (R160) -/

/-- A value in the order of the tone link: most significant byte first, STR and BLOB as they are. -/
def toneOrder (typ : Nat) (v : List Byte) : List Byte := if typ = 0x0A ∨ typ = 0x0B then v else v.reverse

/-- The payload of a response: opcode plus 0x80, status, and for success a type code and value. -/
def tonePayload (op : Byte) (a : Answer) : List Byte :=
  (op + 0x80) :: BitVec.ofNat 8 a.code.num ::
    (if a.code != .ok then [] else if a.typ = 0 then a.value else BitVec.ofNat 8 a.typ :: toneOrder a.typ a.value)

/-- The engine takes a request payload; an unknown opcode or a length that does not match it is answered with ACCESS; a request of the
window that is still pending came first (R205). DESIGN CHOICE, log entry 91: an empty payload, which has no opcode, is answered as opcode 0
is, so with 0x80 and ACCESS (R160). -/
def State.toneRequest (s : State) (p : OdPath) (payload : List Byte) : List Byte × State :=
  let s := s.windowServe
  let op := byteAt payload 0
  let n := payload.length
  let a := beNat (sliceBytes payload 1 3)
  let r : Answer × State :=
    if op = 0x01 ∧ n = 4 then s.odRequest p a none
    else if op = 0x02 ∧ 5 ≤ n then
      let t := (byteAt payload 4).toNat
      s.odRequest p a (some (t, toneOrder t (payload.drop 5)))
    else if op = 0x10 ∧ n = 2 then s.sessionOpen p (byteAt payload 1).toNat
    else if op = 0x11 ∧ n = 33 then s.sessionAuth p (payload.drop 1)
    else if op = 0x12 ∧ n = 1 then s.sessionClose p
    else ({ code := .access }, s.touch p)
  (tonePayload op r.1, r.2)

/-! ### The keeper core's answers in Tether mode (R169) -/

/-- The objects of lane 0 that the keeper core holds: parameters, Y and Q of the stored chain. -/
def State.keeperBlk (s : State) (b e : Nat) : Option Obj :=
  match s.keeperCore.store with
  | none => none
  | some st =>
    let (cfg, ps) := nth st.blks b (0, [])
    let (y, q, _) := nth s.keeperCore.out b (0, 0, [])
    if st.blks.length ≤ b then none
    else if 0x10 ≤ e ∧ e < 0x18 then
      let j := e - 0x10
      some (numObj (if parFloat (Fld.BLK_CFG_TYPE.get cfg) j then .f32 else .u32) (par ps j).toNat)
    else if e = 0x20 then some (numObj .f32 y.toNat)
    else if e = 0x21 then some (numObj .u8 (q % 256))
    else none

/-- An object the keeper core may be asked for. It holds the identity but for the node's address, P0's block, and the parameters, Y and Q of the
stored chain; a register of a domain that is off is out of its reach. -/
def State.keeperObject (s : State) (a : Nat) : Option Obj :=
  let o := s.object 0 a
  if (a / 0x100000 = 0 ∧ a ≠ 0x00300) ∨ a / 0x100 = 0x4000 then o.map fun x => { x with reg := none }
  else if a / 0x10000 = 0x60 ∧ 0x100 ≤ a % 0x10000 then
    match s.keeperBlk (a % 0x10000 / 0x100 - 1) (a % 0x100) with
    | some x => some x
    | none => o
  else o

/-- A free value of a type of fixed size, where the spec leaves the value of an object open. -/
def State.freeValue (s : State) (t : OdType) : List Byte × State :=
  let (x, s) := s.free
  let (y, s) := s.free
  let n := x.toNat + y.toNat * 2 ^ 32
  (leBytes (t.size.getD 0) (if t = .bool then n % 2 else n), s)

/-- The keeper core's answer to a request: READ of area 0, P0 and lane 0 at level 0, BUSY to everything else. DESIGN CHOICE, log entry 91: an
object whose register is lost with its domain, such as the lane's STATE or the node's address, reads a free value of its type (R38, R169). -/
def State.keeperAnswer (s : State) (payload : List Byte) : Answer × State :=
  let a := beNat (sliceBytes payload 1 3)
  let mine := a / 0x100000 == 0 || a / 0x100 == 0x4000 || a / 0x10000 == 0x60
  if !(byteAt payload 0 == 0x01 && payload.length == 4 && mine) then ({ code := .busy }, s)
  else match s.keeperObject a with
    | none => ({ code := .noObject }, s)
    | some o =>
      let off := match o.reg with | some r => !s.reachable r | none => false
      match firstFault [(o.prv, .level), (o.cls == .wo, .access)] with
      | some c => ({ code := c }, s)
      | none =>
        let (v, s) := if off then s.freeValue o.typ else (o.value, s)
        ({ code := .ok, typ := o.typ.num, value := v }, s)

/-! ### Frames (R155 to R159) -/

/-- A received frame. -/
structure ToneRx where
  dst     : Byte
  src     : Byte
  ctl     : Byte
  payload : List Byte
  crc     : BitVec 16
  deriving DecidableEq, Repr

/-- DIR, TYPE and SEQ. -/
def ToneRx.dir (f : ToneRx) : Bool := f.ctl.getLsbD 7
def ToneRx.typ (f : ToneRx) : Nat := f.ctl.toNat / 16 % 8
def ToneRx.seq (f : ToneRx) : Nat := f.ctl.toNat % 16

/-- The frame a receiver reads after the sync word; none if it is dropped under R158. -/
def readTone (bs : List Byte) (lost : Bool) : Option ToneRx :=
  let n := (byteAt bs 0).toNat
  let crc := beNat (sliceBytes bs (n + 4) 2)
  let f : ToneRx := ⟨byteAt bs 1, byteAt bs 2, byteAt bs 3, sliceBytes bs 4 n, BitVec.ofNat 16 crc⟩
  if lost ∨ 64 < n ∨ bs.length < n + 6 ∨ f.src = 0 ∨ f.src = 0xFF ∨ f.dst = 0 ∨ 3 ≤ f.typ ∨ crc16 (bs.take (n + 4)) ≠ f.crc then none
  else some f

/-- A frame enters the receive buffer, or overruns it (R165). -/
def State.toneBuffer (s : State) (n : Nat) (f : ToneRx) : State :=
  if s.flag (Reg.MODEM_STATUS n) Fld.MODEM_STATUS_RX_FULL then s.raise (Reg.MODEM_EVENT n) Fld.MODEM_EVENT_RX_OVERRUN
  else
    let s := s.setReg (Reg.MODEM_RX_HDR n) (BitVec.ofNat 32
      (f.ctl.toNat * 0x1000000 + f.src.toNat * 0x10000 + f.dst.toNat * 0x100 + f.payload.length))
    let s := iterate 16 (fun w s => s.setReg (Reg.MODEM_RX_DATA n w) (wordOfBytes (sliceBytes f.payload (4 * w) 4))) s
    (s.raise (Reg.MODEM_STATUS n) Fld.MODEM_STATUS_RX_FULL).raise (Reg.MODEM_EVENT n) Fld.MODEM_EVENT_RX_FRAME

/-- The stamp of the last sync bit, `ago` CK cycles before the last CRC bit: TIME and TB_VALID of then (R158). -/
def State.toneStamp (s : State) (n ago : Nat) : State :=
  let t := s.stampAt (s.ck - ago)
  let s := (s.setReg (Reg.MODEM_RX_TIME_LO n) (lo32 t.1)).setReg (Reg.MODEM_RX_TIME_HI n) (hi32 t.1)
  s.setFlag (Reg.MODEM_STATUS n) Fld.MODEM_STATUS_RX_TB_VALID t.2

/-- SLAVE_TA as it acts: 4 to 15 bit times. -/
def State.taBits (s : State) (n : Nat) : Nat := max 4 (s.fld (Reg.MODEM_TIMING n) Fld.MODEM_TIMING_SLAVE_TA)

/-- CK cycles to the slave's first bit boundary at least SLAVE_TA bit times from now (R162). -/
def State.turnAround (s : State) (n : Nat) : Nat := s.bitNext (s.ck + s.taBits n * bitCk) - s.ck

/-- CK cycles to the last bit boundary at which a response may start, at most SLAVE_TA + 20 bit times from now: the engine is late if it
has no answer by then (R162). -/
def State.turnLate (s : State) (n : Nat) : Nat := s.bitLast (s.ck + (s.taBits n + 20) * bitCk) - s.ck

/-- A request that is not a repeat: the keeper core's answer in Tether mode, BUSY where the engine is late, or the engine's (R162, R169);
and the state after it. -/
def State.toneFresh (s : State) (n : PortId) (f : ToneRx) (ready : Bool) : List Byte × State :=
  let op := byteAt f.payload 0
  if s.inTether then let (a, s) := s.keeperAnswer f.payload; (tonePayload op a, s)
  else if !ready then (tonePayload op { code := .busy }, s)
  else s.toneRequest (.tone n f.src) f.payload

/-- A response frame waits `wait` CK cycles for its bit boundary. -/
def State.toneReply (s : State) (n : Nat) (f : ToneRx) (frame : List Byte) (wait : Nat) : State :=
  (s.setModem n { s.modem n with answer := some (f.src, f.seq, f.crc, frame) }).arm (.modemTa n) wait

/-- A slave takes a request, which restarts its source's 60 s (R167): a repeat gets its stored response again (R161); a broadcast is acted
on without a response (R159); with CORE off, outside Tether mode, requests are dropped without an answer (R168). -/
def State.toneServe (s : State) (n : PortId) (f : ToneRx) (ready : Bool) : State :=
  if !(s.on .core || s.inTether) then s
  else
  let s := s.touch (.tone n f.src)
  let again := match (s.modem n).stored with
    | some (src, seq, crc, frame) => if src = f.src ∧ seq = f.seq ∧ crc = f.crc then some frame else none
    | none => none
  match again with
  | some frame => if f.dst = 0xFF then s else s.toneReply n f frame (s.turnAround n)
  | none =>
    let (p, s) := s.toneFresh n f ready
    if f.dst = 0xFF then s
    else s.toneReply n f (toneFrame f.src (BitVec.ofNat 8 (s.toneAddr n)) (BitVec.ofNat 8 (0x90 + f.seq)) p)
      (if ready || s.inTether then s.turnAround n else s.turnLate n)

/-- A response whose sync word was complete at elapsed time `sync` comes after the response wait has timed out (R163). -/
def State.rspLate (s : State) (n sync : Nat) : Bool :=
  match s.dueOf (.modemRsp n) with | some due => decide (due < sync) | none => false

/-- A response frame whose sync word was complete at elapsed time `sync` reaches a master (R163): while the transaction runs, in its wait
or in the quiet wait of a retry, one with the right SEQ ends it. -/
def State.toneMasterRx (s : State) (n : Nat) (f : ToneRx) (sync : Nat) : State :=
  let s := s.when (s.rspLate n sync) fun s => (s.disarm (.modemRsp n)).rspTimeout n
  let x := s.modem n
  if !(x.phase == .waiting || (x.phase == .quiet && x.sent)) then s.toneBuffer n f
  else if (byteAt x.frame 3).toNat % 16 != f.seq then s.frameError n
  else ((s.toneBuffer n f).endSend n).raise (Reg.MODEM_EVENT n) Fld.MODEM_EVENT_RESPONSE

/-- A good frame is dispatched (R159). With 0x00 or 0xFF in either field of MODEM_ADDR the modem answers nothing: a request addressed to it
alone is dropped, and every other frame is dispatched as ever (DEDUCED, log entry 67). -/
def State.toneDispatch (s : State) (n : PortId) (f : ToneRx) (ready : Bool) (ago : Nat) : State :=
  let own := s.toneAddr n
  let mine := f.dst.toNat == own
  let heard := mine || f.dst == 0xFF
  if f.typ = 2 then s.when heard fun s => s.toneBuffer n f
  else if s.flag (Reg.MODEM_CTL n) Fld.MODEM_CTL_MASTER then s.when (f.typ == 1 && f.dir && mine) fun s =>
    s.toneMasterRx n f (s.ck - ago)
  else s.when (f.typ == 0 && !f.dir && heard && (f.dst == 0xFF || s.toneAddrOk n)) fun s => s.toneServe n f ready

/-- A frame has been read to its last CRC bit, or lost before it; one whose preamble began while the receiver was blanked, or that a
transmission, a suspension or a reset broke off, is not received (R154, R168, R169). Every frame that passes stamps MODEM_RX_TIME, whatever
its destination and be RX_FULL set or not: R158 speaks of any, the register table of the buffered one (the model's choice: log entry 88). -/
def State.toneReceived (s : State) (n : PortId) (bs : List Byte) (lost ready : Bool) (ago : Nat) : State :=
  if !(s.canReceive n && (s.modem n).hearing) then s
  else
    let s := (s.disarm (.modemSync n)).hearEnd n
    match readTone bs lost with
    | none => s.frameError n
    | some f =>
      let s := s.count (Reg.MODEM_RX_COUNT n) (Reg.MODEM_EVENT n) Fld.MODEM_EVENT_CTR_SAT 1
      (s.toneStamp n ago).toneDispatch n f ready ago

/-- TONE_FRAME_RECEIVED. -/
def execToneFrameReceived (n : PortId) (x : ToneHeard) (lost ready : Bool) (s : State) : Host.Outcome State Fault Refusal :=
  (s.toneReceived n x.bytes lost ready x.ago).done

/-- A slave's response starts, if its port can transmit; it is kept for a repeat of its request (R161, R162); one that
never starts is not kept, so a retry of its request executes again (the model's choice: log entry 88). A wait that ABORT ends at this
boundary ends first (R164). -/
def State.toneRespond (s : State) (n : Nat) : State :=
  let s := s.when (s.modem n).cut fun s => s.modemStop n
  let x := s.modem n
  match x.answer with
  | none => s
  | some (src, seq, crc, frame) =>
    let s := s.setModem n { x with answer := none }
    if !s.canTransmit n || s.flag (Reg.MODEM_STATUS n) Fld.MODEM_STATUS_TX_ACTIVE then s
    else
      let s := s.setModem n { s.modem n with stored := some (src, seq, crc, frame) }
      (s.setFld (Reg.MODEM_STATUS n) Fld.MODEM_STATUS_LAST_SEQ seq).startTone n frame true

/-- TONE_RESPONSE. -/
def execToneResponse (n : PortId) (s : State) : Host.Outcome State Fault Refusal :=
  (s.fall (.modemTa n) fun s => s.toneRespond n).done

end Sys2Proof.Machine
end

