-- ==== Sys2Proof/Machine/Dispatch.lean ====
section
/-! DEFINITION. The one table from commands to their meanings: every arm is a call of one meaning of its own. -/

namespace Sys2Proof.Machine

/-- The effect of a command on everything but the queue of waiting commands. -/
def exec (i : Instr) (s : State) : Host.Outcome State Fault Refusal :=
  match i with
  | .hostRead size len addr ready => Sys2Proof.Machine.execHostRead size len addr ready s
  | .hostWrite size len addr data => Sys2Proof.Machine.execHostWrite size len addr data s
  | .burstRead size len addr notReady => Sys2Proof.Machine.execBurstRead size len addr notReady s
  | .burstWrite size len addr words => Sys2Proof.Machine.execBurstWrite size len addr words s
  | .abort op size len addr words sent => Sys2Proof.Machine.execAbort op size len addr words sent s
  | .rcRead addr hw sent => Sys2Proof.Machine.execRcRead addr hw sent s
  | .registerWrite addr v same => Sys2Proof.Machine.execRegisterWrite addr v same s
  | .linkWordFail d x => Sys2Proof.Machine.execLinkWordFail d x s
  | .ckLoss d => Sys2Proof.Machine.execCkLoss d s
  | .ckReturn d => Sys2Proof.Machine.execCkReturn d s
  | .tbLoad => Sys2Proof.Machine.execTbLoad s
  | .tbInvalidate => Sys2Proof.Machine.execTbInvalidate s
  | .timeWrap => Sys2Proof.Machine.execTimeWrap s
  | .loopTick samples => Sys2Proof.Machine.execLoopTick samples s
  | .cfgCommit => Sys2Proof.Machine.execCfgCommit s
  | .guardLockSet => Sys2Proof.Machine.execGuardLockSet s
  | .guardUnlock key => Sys2Proof.Machine.execGuardUnlock key s
  | .frameBoundary => Sys2Proof.Machine.execFrameBoundary s
  | .conversionEnd j code => Sys2Proof.Machine.execConversionEnd j code s
  | .mainsEdge src rising wait => Sys2Proof.Machine.execMainsEdge src rising wait s
  | .mainsSecondUpdate => Sys2Proof.Machine.execMainsSecondUpdate s
  | .clamp j neg => Sys2Proof.Machine.execClamp j neg s
  | .clampRelease j => Sys2Proof.Machine.execClampRelease j s
  | .recoveryHoldEnd j => Sys2Proof.Machine.execRecoveryHoldEnd j s
  | .excOpen g => Sys2Proof.Machine.execExcOpen g s
  | .excLimit g => Sys2Proof.Machine.execExcLimit g s
  | .bufEn => Sys2Proof.Machine.execBufEn s
  | .refSettleEnd inTol => Sys2Proof.Machine.execRefSettleEnd inTol s
  | .bufFault => Sys2Proof.Machine.execBufFault s
  | .seqStart => Sys2Proof.Machine.execSeqStart s
  | .seqStop => Sys2Proof.Machine.execSeqStop s
  | .trig0Edge rising => Sys2Proof.Machine.execTrig0Edge rising s
  | .injStart => Sys2Proof.Machine.execInjStart s
  | .trig1Edge rising => Sys2Proof.Machine.execTrig1Edge rising s
  | .injIntegrationStart j => Sys2Proof.Machine.execInjIntegrationStart j s
  | .spoolEnable k => Sys2Proof.Machine.execSpoolEnable k s
  | .calRunStart => Sys2Proof.Machine.execCalRunStart s
  | .calRunEnd p => Sys2Proof.Machine.execCalRunEnd p s
  | .calStart j => Sys2Proof.Machine.execCalStart j s
  | .sliceTrimWrite j v => Sys2Proof.Machine.execSliceTrimWrite j v s
  | .loopTrimStart n => Sys2Proof.Machine.execLoopTrimStart n s
  | .loopTrimHighPoint n => Sys2Proof.Machine.execLoopTrimHighPoint n s
  | .loopTrimReturn n => Sys2Proof.Machine.execLoopTrimReturn n s
  | .loopTrimResult n => Sys2Proof.Machine.execLoopTrimResult n s
  | .loopTrimApply n => Sys2Proof.Machine.execLoopTrimApply n s
  | .loopTrimWrite n v => Sys2Proof.Machine.execLoopTrimWrite n v s
  | .bgCheckEnd d diff => Sys2Proof.Machine.execBgCheckEnd d diff s
  | .calExport => Sys2Proof.Machine.execCalExport s
  | .calExportCapture => Sys2Proof.Machine.execCalExportCapture s
  | .calRestore => Sys2Proof.Machine.execCalRestore s
  | .roleWrite n role => Sys2Proof.Machine.execRoleWrite n role s
  | .loopSetWrite n v => Sys2Proof.Machine.execLoopSetWrite n v s
  | .fsForce n on => Sys2Proof.Machine.execFsForce n on s
  | .miswireClr n => Sys2Proof.Machine.execMiswireClr n s
  | .miswire n => Sys2Proof.Machine.execMiswire n s
  | .miswireProbe n => Sys2Proof.Machine.execMiswireProbe n s
  | .miswireProbeEnd n recurs => Sys2Proof.Machine.execMiswireProbeEnd n recurs s
  | .portShort n => Sys2Proof.Machine.execPortShort n s
  | .shortProbe n limiting => Sys2Proof.Machine.execShortProbe n limiting s
  | .thermal n hot => Sys2Proof.Machine.execThermal n hot s
  | .keeperTimeout d => Sys2Proof.Machine.execKeeperTimeout d s
  | .keeperKick d => Sys2Proof.Machine.execKeeperKick d s
  | .vfieldLow d => Sys2Proof.Machine.execVfieldLow d s
  | .carrier n present => Sys2Proof.Machine.execCarrier n present s
  | .toneFrameReceived n x lost engineReady => Sys2Proof.Machine.execToneFrameReceived n x lost engineReady s
  | .toneResponse n => Sys2Proof.Machine.execToneResponse n s
  | .toneSend n => Sys2Proof.Machine.execToneSend n s
  | .toneTxStart n => Sys2Proof.Machine.execToneTxStart n s
  | .toneTxDone n => Sys2Proof.Machine.execToneTxDone n s
  | .toneQuietTimeout n => Sys2Proof.Machine.execToneQuietTimeout n s
  | .toneRspTimeout n => Sys2Proof.Machine.execToneRspTimeout n s
  | .modemAbort n => Sys2Proof.Machine.execModemAbort n s
  | .rxRelease n => Sys2Proof.Machine.execRxRelease n s
  | .odRead path addr => Sys2Proof.Machine.execOdRead path addr s
  | .odWrite path addr type value => Sys2Proof.Machine.execOdWrite path addr type value s
  | .sessionOpen path level => Sys2Proof.Machine.execSessionOpen path level s
  | .sessionAuth path hmac => Sys2Proof.Machine.execSessionAuth path hmac s
  | .sessionClose path => Sys2Proof.Machine.execSessionClose path s
  | .sessionIdleTimeout path => Sys2Proof.Machine.execSessionIdleTimeout path s
  | .challengeExpiry path => Sys2Proof.Machine.execChallengeExpiry path s
  | .lockoutEnd path => Sys2Proof.Machine.execLockoutEnd path s
  | .laneActivation x => Sys2Proof.Machine.execLaneActivation x s
  | .laneRun n => Sys2Proof.Machine.execLaneRun n s
  | .laneStop n => Sys2Proof.Machine.execLaneStop n s
  | .laneHold n => Sys2Proof.Machine.execLaneHold n s
  | .laneResume n => Sys2Proof.Machine.execLaneResume n s
  | .clearLatch n => Sys2Proof.Machine.execClearLatch n s
  | .resetStats n => Sys2Proof.Machine.execResetStats n s
  | .blkCfgWrite n b v => Sys2Proof.Machine.execBlkCfgWrite n b v s
  | .lotIdWrite j v => Sys2Proof.Machine.execLotIdWrite j v s
  | .lotClear j => Sys2Proof.Machine.execLotClear j s
  | .odCmdRead => Sys2Proof.Machine.execOdCmdRead s
  | .odCmdWrite => Sys2Proof.Machine.execOdCmdWrite s
  | .snapCapture path => Sys2Proof.Machine.execSnapCapture path s
  | .snapCapturePass => Sys2Proof.Machine.execSnapCapturePass s
  | .snapDataWrite path k value => Sys2Proof.Machine.execSnapDataWrite path k value s
  | .snapApply path => Sys2Proof.Machine.execSnapApply path s
  | .applyCommit path => Sys2Proof.Machine.execApplyCommit path s
  | .snapApplyPass => Sys2Proof.Machine.execSnapApplyPass s
  | .snapAbort path => Sys2Proof.Machine.execSnapAbort path s
  | .snapOwnerTimeout => Sys2Proof.Machine.execSnapOwnerTimeout s
  | .keyLoad => Sys2Proof.Machine.execKeyLoad s
  | .keyClear => Sys2Proof.Machine.execKeyClear s
  | .trxEnable t => Sys2Proof.Machine.execTrxEnable t s
  | .selftestEnd t ok => Sys2Proof.Machine.execSelftestEnd t ok s
  | .trxDisable t => Sys2Proof.Machine.execTrxDisable t s
  | .preambleQualify t p => Sys2Proof.Machine.execPreambleQualify t p s
  | .delimiterDetect t syms x shadow => Sys2Proof.Machine.execDelimiterDetect t syms x shadow s
  | .acqTimeout t => Sys2Proof.Machine.execAcqTimeout t s
  | .headerDecision t soft => Sys2Proof.Machine.execHeaderDecision t soft s
  | .codewordDecoded t u q0 q => Sys2Proof.Machine.execCodewordDecoded t u q0 q s
  | .txStart t => Sys2Proof.Machine.execTxStart t s
  | .txEnd t => Sys2Proof.Machine.execTxEnd t s
  | .rxBlankEnd t => Sys2Proof.Machine.execRxBlankEnd t s
  | .linkSilent t => Sys2Proof.Machine.execLinkSilent t s
  | .dpdSolve t ls err => Sys2Proof.Machine.execDpdSolve t ls err s
  | .dpdResetTw => Sys2Proof.Machine.execDpdResetTw s
  | .dpdResetTe => Sys2Proof.Machine.execDpdResetTe s
  | .bypassOpened => Sys2Proof.Machine.execBypassOpened s
  | .bypassClosed => Sys2Proof.Machine.execBypassClosed s
  | .ringMessageAccept t => Sys2Proof.Machine.execRingMessageAccept t s
  | .ringCycle => Sys2Proof.Machine.execRingCycle s
  | .ringTime => Sys2Proof.Machine.execRingTime s
  | .ringOdResp => Sys2Proof.Machine.execRingOdResp s
  | .ringRecord => Sys2Proof.Machine.execRingRecord s
  | .ringEvent => Sys2Proof.Machine.execRingEvent s
  | .ringMailbox => Sys2Proof.Machine.execRingMailbox s
  | .ringLastGasp => Sys2Proof.Machine.execRingLastGasp s
  | .ringCycleBoundary => Sys2Proof.Machine.execRingCycleBoundary s
  | .noCycleTimeout => Sys2Proof.Machine.execNoCycleTimeout s
  | .electionWaitEnd => Sys2Proof.Machine.execElectionWaitEnd s
  | .echoTimeout t => Sys2Proof.Machine.execEchoTimeout t s
  | .codeHuntStep => Sys2Proof.Machine.execCodeHuntStep s
  | .dupEntryExpiry src => Sys2Proof.Machine.execDupEntryExpiry src s
  | .ringSend => Sys2Proof.Machine.execRingSend s
  | .ringPop => Sys2Proof.Machine.execRingPop s
  | .crystalLoss => Sys2Proof.Machine.execCrystalLoss s
  | .xtalRetry => Sys2Proof.Machine.execXtalRetry s
  | .xtalCheckEnd pass => Sys2Proof.Machine.execXtalCheckEnd pass s
  | .pwrRunSetWrite v => Sys2Proof.Machine.execPwrRunSetWrite v s
  | .standby => Sys2Proof.Machine.execStandby s
  | .hibernate => Sys2Proof.Machine.execHibernate s
  | .faultClr => Sys2Proof.Machine.execFaultClr s
  | .padRelease v => Sys2Proof.Machine.execPadRelease v s
  | .wakePin rising => Sys2Proof.Machine.execWakePin rising s
  | .alarm => Sys2Proof.Machine.execAlarm s
  | .trunkActivity => Sys2Proof.Machine.execTrunkActivity s
  | .hcsnWake => Sys2Proof.Machine.execHcsnWake s
  | .vsysReturn => Sys2Proof.Machine.execVsysReturn s
  | .pwrAlarmArm v => Sys2Proof.Machine.execPwrAlarmArm v s
  | .pageAck => Sys2Proof.Machine.execPageAck s
  | .statusWordPoll r => Sys2Proof.Machine.execStatusWordPoll r s
  | .regTimeout => Sys2Proof.Machine.execRegTimeout s
  | .xtalReady pass => Sys2Proof.Machine.execXtalReady pass s
  | .pllLock => Sys2Proof.Machine.execPllLock s
  | .wakeDone => Sys2Proof.Machine.execWakeDone s
  | .wakeRetry => Sys2Proof.Machine.execWakeRetry s
  | .tetherWakeRetry => Sys2Proof.Machine.execTetherWakeRetry s
  | .vcoreChange req x => Sys2Proof.Machine.execVcoreChange req x s
  | .railPoll p x => Sys2Proof.Machine.execRailPoll p x s
  | .pfw holdup => Sys2Proof.Machine.execPfw holdup s
  | .tetherSwitchover => Sys2Proof.Machine.execTetherSwitchover s
  | .vsysLow => Sys2Proof.Machine.execVsysLow s
  | .tetherResult code => Sys2Proof.Machine.execTetherResult code s
  | .governorTick surplus railLow => Sys2Proof.Machine.execGovernorTick surplus railLow s
  | .aonRailLoss => Sys2Proof.Machine.execAonRailLoss s
  | .rstPort n => Sys2Proof.Machine.execRstPort n s
  | .rstModem n => Sys2Proof.Machine.execRstModem n s
  | .rstLane n => Sys2Proof.Machine.execRstLane n s
  | .rstSlice j => Sys2Proof.Machine.execRstSlice j s
  | .rstSeq => Sys2Proof.Machine.execRstSeq s
  | .rstSpool k => Sys2Proof.Machine.execRstSpool k s
  | .rstTw => Sys2Proof.Machine.execRstTw s
  | .rstTe => Sys2Proof.Machine.execRstTe s
  | .rstDec => Sys2Proof.Machine.execRstDec s
  | .rstRing => Sys2Proof.Machine.execRstRing s
  | .rstOd => Sys2Proof.Machine.execRstOd s
  | .rstPmbus => Sys2Proof.Machine.execRstPmbus s
  | .funcResetEnd f => Sys2Proof.Machine.execFuncResetEnd f s
  | .por => Sys2Proof.Machine.execPor s
  | .resetn => Sys2Proof.Machine.execResetn s
  | .fullReset v => Sys2Proof.Machine.execFullReset v s
  | .wdtEnable => Sys2Proof.Machine.execWdtEnable s
  | .wdtKick v => Sys2Proof.Machine.execWdtKick v s
  | .wdtEarly => Sys2Proof.Machine.execWdtEarly s
  | .watchdog => Sys2Proof.Machine.execWatchdog s
  | .logUnfreeze => Sys2Proof.Machine.execLogUnfreeze s
  | .logClear => Sys2Proof.Machine.execLogClear s
  | .testUnlock v => Sys2Proof.Machine.execTestUnlock v s
  | .testEnFall => Sys2Proof.Machine.execTestEnFall s
  | .rxFrameEnd t snr => Sys2Proof.Machine.execRxFrameEnd t snr s
  | .clip t => Sys2Proof.Machine.execClip t s
  | .syncTimeout n => Sys2Proof.Machine.execSyncTimeout n s
  | .bitTimingRecovered n => Sys2Proof.Machine.execBitTimingRecovered n s
  | .pllLockTimeout => Sys2Proof.Machine.execPllLockTimeout s
  | .domainOnTimeout d => Sys2Proof.Machine.execDomainOnTimeout d s
  | .smbusTimeout => Sys2Proof.Machine.execSmbusTimeout s
  | .resetnRelease => Sys2Proof.Machine.execResetnRelease s

end Sys2Proof.Machine
end

