-- ==== Sys2Proof/Machine/Step.lean ====
section
/-! DEFINITION. One step of the part: the command at the front of the queue, or one clock cycle when none waits. -/

namespace Sys2Proof.Machine

/-- One clock cycle passes with no command waiting: TIME counts, a captured load is performed, and the engine takes a request of the host
window (log entries 1 and 53). -/
def State.idle (s : State) : State := (s.windowServe.pass s.cycleLen).settle

/-- One step: the command at the front of the queue acts on the state with the queue's rest. -/
def step (s : State) : Host.Outcome State Fault Refusal :=
  match s.pending with
  | [] => .next s.idle
  | c :: rest => exec c { s with pending := rest }

/-- The state with the command a table word spells at the front of its queue; unchanged where the word spells none. -/
def State.withFetchWord (s : State) (nbits w : Nat) : State :=
  match decodeTableWord nbits w with
  | none => s
  | some c => { s with pending := c :: s.pending }

end Sys2Proof.Machine
end

