-- ==== Sys2Proof/WellFormed.lean ====
section
/-! DEFINITION. Well-formed commands: operands that the wire, the pins and the analogue parts can produce at all. The meanings
are total and ask for none of this; statements may. -/

namespace Sys2Proof

/-- An integer that `n` bits of two's complement hold. -/
def fitsSigned (n : Nat) (i : Int) : Bool := decide (-(2 ^ (n - 1) : Int) ≤ i) && decide (i < (2 ^ (n - 1) : Int))

/-- A tone frame's bytes after its sync word: LEN to CRC, at most 64 of payload (R155). -/
def toneBytesOk (bs : List Byte) : Bool := decide (bs.length ≤ 70)

/-- A dictionary value: at most the 256 bytes of the window (R219). -/
def valueOk (v : List Byte) : Bool := decide (v.length ≤ 256)

/-- Words of a burst: at most 2^LEN, and LEN at most 10 (R28). -/
def burstOk (len : BitVec 4) (n : Nat) : Bool := decide (n ≤ 2 ^ len.toNat)

/-- The four points of a calibration run: one code or more each, 32-bit (R100, R101). -/
def CalPoints.wf (p : CalPoints) : Bool :=
  [p.zero, p.plus, p.minus, p.mid].all fun l => !l.isEmpty && l.all (fitsSigned 32)

/-- A port's sample: the 64 converter samples before the tick, of 31 bits at most, so that LOOP_RB holds their mean (R133). -/
def PortSample.wf (p : PortSample) : Bool := decide (p.adc.length = 96) && p.adc.all (fitsSigned 31)

/-- Well-formed commands. -/
def Instr.wf : Instr → Bool
  | .burstWrite _ len _ ws => burstOk len ws.length
  | .abort _ _ len _ ws _ => burstOk len ws.length
  | .loopTick samples => decide (samples.length = 16) && samples.all PortSample.wf
  | .conversionEnd _ code => fitsSigned 32 code
  | .calRunEnd p => p.wf
  | .toneFrameReceived _ x _ _ => toneBytesOk x.bytes
  | .odWrite _ _ _ v => valueOk v
  | .snapDataWrite _ _ v => valueOk v
  | .preambleQualify _ p => fitsSigned 16 p.level
  | .delimiterDetect _ _ x _ => fitsSigned 16 x.level && fitsSigned 16 x.gain
  | .rxFrameEnd _ snr => fitsSigned 16 snr
  | .headerDecision _ soft => soft.length == 256
  | .codewordDecoded _ u q0 q => (u ++ q0 ++ q).length == 1536 && q0.length == 64
  | .dpdSolve _ ls err => decide (ls.length = 15) && fitsSigned 16 err
  | .tetherResult code => fitsSigned 32 code
  | .pfw holdup => decide (holdup ≤ 16500)
  | _ => true

end Sys2Proof
end

