-- ==== Sys2Proof/Safety.lean ====
section
/-! DEFINITION. What counts as a good state and a safe run, in the terms the statements use. -/

namespace Sys2Proof.Machine

/-- The canonical form of the spool SRAM: addresses strictly rising. No entry can equal what an unlisted address reads as by
design, since that value is open (log entry 3). -/
def Memory.wf (m : List Host.Cell) : Bool := decide ((m.map (·.1)).Pairwise (· < ·))

/-- Addresses inside the SRAM's range (R34). -/
def Memory.inRange (m : List Host.Cell) : Bool := m.all fun c => inSram c.1

/-- The interrupt summary is up to date: while CORE is on, every block with a pending event has its IRQ_STATUS bit set (R52). -/
def State.SummaryHolds (s : State) : Prop := s.on .core = true → s.irqPending &&& ~~~s.reg Reg.IRQ_STATUS = 0

/-! ### What a command leaves alone -/

/-- Every register outside `l` reads as before; IRQ_STATUS, which every command brings up to date (R52), is left out. -/
def State.KeepsRegs (s t : State) (l : List Nat) : Prop := ∀ a, a ∉ Reg.IRQ_STATUS :: l → t.reg a = s.reg a

/-- Every byte of the spool SRAM reads as before. -/
def State.KeepsSram (s t : State) : Prop := ∀ a, t.sramByte a = s.sramByte a

/-- Every register outside `l` and every byte of the spool SRAM read as before. -/
def State.Keeps (s t : State) (l : List Nat) : Prop := s.KeepsRegs t l ∧ s.KeepsSram t

/-- The registers an entry of the Tail log can touch (R308). -/
def logTouches : List Nat := [Reg.LOG_WP, Reg.LOG_LOST, Reg.LOG_EVENT, Reg.LOG_STATUS]

/-- From `s` to `t` an entry went to the Tail log: one that MIN_SEV admits, in a log that is not frozen, stands in the slot of the old WP
with the TIME of `t` and the next sequence number, and WP has advanced (R307, R308). -/
def State.Logs (s t : State) (v : Sev) (code cls idx : Nat) (d0 d1 d2 : Word) : Prop :=
  s.fld Reg.LOG_CTL Fld.LOG_CTL_MIN_SEV ≤ v.code → s.logFrozen = false →
    t.reg Reg.LOG_WP = s.reg Reg.LOG_WP + 1 ∧
    t.logSlot ((s.reg Reg.LOG_WP).toNat % 4096) = logWords t.time t.tbValid s.logSeq v code cls idx d0 d1 d2

/-- The registers that need not read their reset values after a global reset: its cause, the clock's and the power manager's status, and
the log's, which keeps its pointers and takes the reset's own entry (R302, R309). -/
def resetTouches : List Nat := [Reg.RESET_CAUSE, Reg.CLK_STATUS, Reg.PWR_STATUS, Reg.PWR_EVENT, Reg.LOG_RP] ++ logTouches

/-- The host port takes a write of the register at `a`: it is live (R34, R329), and the register can be reached (R16, R38). -/
def State.hostOpen (s : State) (a : Nat) : Bool := s.hostLive && s.reachable a

/-- The register that a command only the host port can send writes (log entry 72); none for any other command. -/
def hostRowReg : Instr → Option Nat
  | .tbLoad | .tbInvalidate => some Reg.TB_CTL
  | .guardLockSet => some Reg.GUARD_CTL
  | .guardUnlock _ => some Reg.GUARD_UNLOCK
  | .bufEn => some Reg.REF_CTL
  | .seqStart | .seqStop => some Reg.SEQ_CTL
  | .injStart => some Reg.INJ_CTL
  | .spoolEnable k => some (Reg.SPOOL_CTL k)
  | .calStart _ => some Reg.REEL_CTL
  | .sliceTrimWrite j _ => some (Reg.SLICE_TRIM j)
  | .loopTrimStart n | .loopTrimApply n => some (Reg.LOOP_TRIM_CTL n)
  | .loopTrimWrite n _ => some (Reg.LOOP_TRIM n)
  | .miswireClr n => some (Reg.PORT_CTL n)
  | .keeperKick d => some (Reg.KEEPER_KICK d)
  | .toneSend n | .modemAbort n | .rxRelease n => some (Reg.MODEM_CTL n)
  | .clearLatch n | .resetStats n => some (Reg.LANE_CTL n)
  | .odCmdRead | .odCmdWrite => some Reg.OD_CMD
  | .keyLoad | .keyClear => some Reg.OD_KEY_CTL
  | .trxEnable t | .trxDisable t => some (Reg.TRX_CTL t.idx)
  | .dpdResetTw | .dpdResetTe => some Reg.DPD_CTL
  | .ringSend => some Reg.RING_TX_CTL
  | .ringPop => some Reg.RING_RX_CTL
  | .xtalRetry => some Reg.CLK_CTL
  | .pwrRunSetWrite _ => some Reg.PWR_RUN_SET
  | .faultClr => some Reg.PWR_CTL
  | .padRelease _ => some Reg.PAD_RELEASE
  | .pwrAlarmArm _ => some Reg.PWR_ALARM_HI
  | .vcoreChange _ _ => some Reg.PWR_VCORE
  | .rstPort _ | .rstModem _ => some Reg.RST_FUNC0
  | .rstLane _ | .rstSlice _ | .rstSeq | .rstSpool _ | .rstTw | .rstTe | .rstDec | .rstRing | .rstOd | .rstPmbus => some Reg.RST_FUNC1
  | .wdtEnable => some Reg.WDT_CTL
  | .wdtKick _ => some Reg.WDT_KICK
  | .logUnfreeze => some Reg.LOG_CTL
  | .logClear => some Reg.LOG_CLEAR
  | .testUnlock _ => some Reg.TEST_UNLOCK
  | _ => none

/-- Whether such a command would change a G field of its register (R49, R51). -/
def State.hostRowGuarded (s : State) : Instr → Bool
  | .bufEn => !s.flag Reg.REF_CTL Fld.REF_CTL_BUF_EN
  | .spoolEnable k => !s.flag (Reg.SPOOL_CTL k) Fld.SPOOL_CTL_EN
  | .trxEnable t => !s.trxOn t
  | .trxDisable t => s.trxOn t
  | .pwrRunSetWrite v => (Fld.PWR_RUN_SET_DOMAINS.get v ||| 1) != s.runSet
  | .vcoreChange req _ => s.fld Reg.PWR_VCORE Fld.PWR_VCORE_REQ_MV != req.toNat
  | .wdtEnable => !s.flag Reg.WDT_CTL Fld.WDT_CTL_EN
  | _ => false

/-- Every regulator page answers VOUT_MODE with the linear format (R285); a first turn-on of another fails its attempt (R290). -/
def State.pagesLinear (s : State) : Prop := ∀ p, p < 3 → voutLinear (s.voutModeOf p) = true

/-- No global reset has come in this very cycle, whose cause a further one would show beside its own (R301). -/
def State.resetPast (s : State) : Prop := ∀ c, s.pwr.resetAt = some c → c < s.ck

/-- A counter register after `n` more events: it saturates at all ones (R45). -/
def satAdd (w : Word) (n : Nat) : Word := if w.toNat + n < 2 ^ 32 then BitVec.ofNat 32 (w.toNat + n) else 0xFFFFFFFF

end Sys2Proof.Machine
end

