-- ==== Sys2Proof/Certificates/Slice0/Obligations.lean ====
section
/-! DEFINITION. The statements for the provers, family by family in the order of spec/opcode_table.json. -/

open Sys2Proof Sys2Proof.Machine

/-! ### The queue and the whole machine -/

/-- A step with a command in front of the queue is that command on the state with the queue's rest. -/
def Obligations.StepRunsFrontCommand : Prop := ∀ (c : Instr) (rest : List Instr) (s : State),
  s.pending = c :: rest → step s = exec c { s with pending := rest }

/-- With no command waiting, one clock cycle passes (the model's choice, log entries 1 and 53): a request of the host window, if one waits,
is served first; elapsed time counts on, TIME in whole steps of the clock (R24), and nothing else but TIME's own register bits changes. -/
def Obligations.IdleStepCounts : Prop := ∀ s : State, s.pending = [] →
  step s = .next (s.windowServe.pass s.cycleLen).settle ∧
  (s.od.window = none →
    ∃ t, step s = .next t ∧ t.ck = s.ck + s.cycleLen ∧ t.pending = [] ∧ s.KeepsRegs t [Reg.TB_EVENT] ∧ s.KeepsSram t ∧
      (s.tbLoad = none →
        let n := ((s.ck + s.cycleLen) / 16 - s.timeAt) / s.tickLen * s.tickLen
        t.tbValid = s.tbValid ∧ t.time = s.time + BitVec.ofNat 64 n ∧ t.timeAt = s.timeAt + n))

/-- What power-on reset leaves (R302, R309, R46): TIME 0 and not valid, no command waiting, CORE alone on of the switched domains, every
summary bit clear, the lock open, one entry in the Tail log. That CORE is on already, its wake past and no deadline armed, is the model's
choice (log entry 39), and so is the list that holds nothing of the spool SRAM (log entry 3). -/
def Obligations.ResetLeaves : Prop :=
  State.reset.pending = [] ∧ State.reset.time = 0 ∧ State.reset.tbValid = false ∧ State.reset.timers = [] ∧
    State.reset.on .core = true ∧ (∀ d ∈ [Domain.meas, .excite, .trunk, .loopA, .loopB], State.reset.on d = false) ∧
    State.reset.holdup = 0 ∧ State.reset.reg Reg.IRQ_STATUS = 0 ∧ State.reset.locked = false ∧ State.reset.sram = [] ∧
    State.reset.reg Reg.LOG_WP = 1 ∧ State.reset.reg Reg.LOG_RP = 0 ∧ State.reset.logFill = 1

/-- The interrupt summary is up to date at reset (R52). -/
def Obligations.ResetSummary : Prop := State.reset.SummaryHolds

/-- Every step of every command, from any state whose summary is up to date, leaves the summary up to date: while CORE is on, a block
with a pending event it admits has its IRQ_STATUS bit set (R52). -/
def Obligations.StepKeepsSummary : Prop := ∀ s t, s.SummaryHolds → step s = .next t → t.SummaryHolds

/-- No command ends the machine: every command, on any operands and in any state, answers a next state whose summary is up to date (R52);
and so does every run of any number of steps. -/
def Obligations.EveryCommandCompletes : Prop :=
  (∀ (c : Instr) (s : State), ∃ t, exec c s = .next t ∧ t.SummaryHolds) ∧
  (∀ (n : Nat) (s : State), ∃ t, core.run n s = .next t ∧ (0 < n → t.SummaryHolds))

/-! ### Fields (R3) and little-endian values (R4) -/

/-- R3: bit 0 is the least significant bit, a field takes in both ends of its range, it reads as an unsigned number, or as two's
complement where it is signed; a write of it changes its bits alone. -/
def Obligations.FieldsReadAndWrite : Prop := ∀ (f : Fld) (w : Word) (x : Nat), f.lo + f.len ≤ 32 →
  (∀ i, (f.get w).testBit i = (decide (i < f.len) && w.getLsbD (f.lo + i))) ∧
  f.get w < 2 ^ f.len ∧
  (0 < f.len → f.sget w = if w.getLsbD (f.lo + f.len - 1) then (f.get w : Int) - 2 ^ f.len else f.get w) ∧
  f.get (f.set w x) = x % 2 ^ f.len ∧
  (∀ g : Fld, g.lo + g.len ≤ 32 → (f.lo + f.len ≤ g.lo ∨ g.lo + g.len ≤ f.lo) → g.get (f.set w x) = g.get w)

/-- Bytes in the SRAM are little-endian (R4): an item stored reads back, its low byte at the lowest address, and no other byte
changes. -/
def Obligations.SramLittleEndian : Prop := ∀ (s : State) (a : Nat) (bs : List Byte),
  (∀ i (h : i < bs.length), (s.setSramBytes a bs).sramByte (a + i) = bs[i]) ∧
  (∀ b, b < a ∨ a + bs.length ≤ b → (s.setSramBytes a bs).sramByte b = s.sramByte b) ∧
  (s.setSramBytes a bs).sramLoad a bs.length = leNat bs

/-! ### Host port -/

/-- A command word's fields pick the transaction (R28). A write of an SRAM item and a read of it give the item back, both with status OK; a
burst write stores every word, and a burst read gives them back (R28, R29, R31, R34). -/
def Obligations.HostSram : Prop :=
  (∀ (z : BitVec 2) (len : BitVec 4) (a : BitVec 24) (v : Word) (ws : List Word) (nr : List Nat),
    hostInstr (hostCommandWord .read z len a) [] nr = .hostRead z len a nr.isEmpty ∧
    hostInstr (hostCommandWord .write z len a) (v :: ws) nr = .hostWrite z len a v ∧
    hostInstr (hostCommandWord .burstRead z len a) [] nr = .burstRead z len a nr ∧
    hostInstr (hostCommandWord .burstWrite z len a) ws nr = .burstWrite z len a ws) ∧
  (∀ (z : BitVec 2) (a : BitVec 24) (v : Word) (s : State),
    s.hostLive = true → s.coreHeld = false → s.pwr.fullReq = false → z ≠ 3 → inSram a.toNat = true → a.toNat % sizeBytes z = 0 →
      ∃ t u, exec (.hostWrite z 0 a v) s = .next t ∧ exec (.hostRead z 0 a true) t = .next u ∧
        t.hostStat.map (·.toNat % 128) = some 0 ∧ u.hostStat.map (·.toNat % 128) = some 0 ∧
        u.hostData = [BitVec.ofNat 32 (v.toNat % 2 ^ (8 * sizeBytes z))] ∧
        (∀ b, b < a.toNat ∨ a.toNat + sizeBytes z ≤ b → t.sramByte b = s.sramByte b) ∧ s.KeepsRegs t [] ∧
        t.KeepsRegs u [] ∧ t.KeepsSram u) ∧
  (∀ (len : BitVec 4) (a : BitVec 24) (ws : List Word) (s : State),
    s.hostLive = true → s.coreHeld = false → s.pwr.fullReq = false → len.toNat ≤ 10 → ws.length = 2 ^ len.toNat →
    a.toNat % 4 = 0 → 0x800000 ≤ a.toNat → a.toNat + 4 * ws.length ≤ 0xC00000 →
      ∃ t u, exec (.burstWrite 2 len a ws) s = .next t ∧ exec (.burstRead 2 len a []) t = .next u ∧
        (∀ i (h : i < ws.length), t.sramLoad (a.toNat + 4 * i) 4 = (ws[i]).toNat) ∧
        (∀ b, b < a.toNat ∨ a.toNat + 4 * ws.length ≤ b → t.sramByte b = s.sramByte b) ∧ u.hostData = ws ∧
        t.hostStat.map (·.toNat % 128) = some 0 ∧ u.hostStat.map (·.toNat % 128) = some 0 ∧
        s.KeepsRegs t [] ∧ t.KeepsRegs u [] ∧ t.KeepsSram u)

/-- An access that fails a check of R32 is answered with that check's code, in the status byte, in HOST_EVENT and in HOST_FAULT; a
read of a domain that is off returns 0x0FF0_0FF0, one that fails another check returns 0, and one that is not ready as the host clocks it
is sent as 0 and sets UNDERRUN, whatever its code (R30; log entry 72 for the code beside it); a refused write changes nothing (R31, R32,
R36, R38). The checks come in the order address, size, alignment, domain. A burst of words that all fail is answered word by word, its status byte
and HOST_FAULT with the first word's code; one of a SIZE or an ADDR that bursts do not allow is such a burst, and one whose LEN is 11 to 15 has no
word and one answer (R28, R29, R31; log entry 72). -/
def Obligations.HostRefusedAccess : Prop :=
  (∀ (z : BitVec 2) (len : BitVec 4) (a : BitVec 24) (v : Word) (s : State),
    s.hostLive = true → s.coreHeld = false → s.pwr.fullReq = false →
      (∀ c, s.hostCheck (hostAccess .read z len a 0) = c → c ≠ .ok →
        ∃ t, exec (.hostRead z len a true) s = .next t ∧ t.hostData = [if c = .domainOff then 0x0FF00FF0 else 0] ∧
          t.hostStat.map (·.toNat % 128) = some c.num ∧ (∀ f, c.event = some f → t.flag Reg.HOST_EVENT f = true) ∧
          t.fld Reg.HOST_FAULT Fld.HOST_FAULT_CODE = c.num ∧ t.fld Reg.HOST_FAULT Fld.HOST_FAULT_ADDR = a.toNat ∧
          s.KeepsRegs t (Reg.HOST_EVENT :: Reg.HOST_FAULT :: logTouches) ∧ s.KeepsSram t) ∧
      (∀ c, s.hostCheck (hostAccess .read z len a 0) = c → c ≠ .ok →
        ∃ t, exec (.hostRead z len a false) s = .next t ∧ t.hostData = [0] ∧
          t.hostStat.map (·.toNat % 128) = some (64 + c.num) ∧ t.flag Reg.HOST_EVENT Fld.HOST_EVENT_UNDERRUN = true ∧ (∀ f, c.event = some f → t.flag Reg.HOST_EVENT f = true) ∧
          t.fld Reg.HOST_FAULT Fld.HOST_FAULT_CODE = c.num ∧ t.fld Reg.HOST_FAULT Fld.HOST_FAULT_ADDR = a.toNat ∧
          s.KeepsRegs t (Reg.HOST_EVENT :: Reg.HOST_FAULT :: logTouches) ∧ s.KeepsSram t) ∧
      (∀ c, s.hostCheck (hostAccess .write z len a 0) = c → c ≠ .ok →
        ∃ t, exec (.hostWrite z len a v) s = .next t ∧ t.hostStat.map (·.toNat % 128) = some c.num ∧
          (∀ f, c.event = some f → t.flag Reg.HOST_EVENT f = true) ∧ t.fld Reg.HOST_FAULT Fld.HOST_FAULT_CODE = c.num ∧
          t.fld Reg.HOST_FAULT Fld.HOST_FAULT_ADDR = a.toNat ∧
          s.KeepsRegs t (Reg.HOST_EVENT :: Reg.HOST_FAULT :: logTouches) ∧ s.KeepsSram t)) ∧
  (∀ (z : BitVec 2) (len : BitVec 4) (a : BitVec 24) (c : Nat → HostCode) (s : State),
    s.hostLive = true → s.coreHeld = false → s.pwr.fullReq = false → len.toNat ≤ 10 →
      ((∀ i, i < 2 ^ len.toNat → s.hostCheck (hostAccess .burstRead z len a i) = c i ∧ c i ≠ .ok) →
        ∃ t, exec (.burstRead z len a []) s = .next t ∧
          t.hostData = (List.range (2 ^ len.toNat)).map (fun i => if c i = .domainOff then 0x0FF00FF0 else 0) ∧
          t.hostStat.map (·.toNat % 128) = some (c 0).num ∧
          (∀ i f, i < 2 ^ len.toNat → (c i).event = some f → t.flag Reg.HOST_EVENT f = true) ∧
          t.fld Reg.HOST_FAULT Fld.HOST_FAULT_CODE = (c 0).num ∧ t.fld Reg.HOST_FAULT Fld.HOST_FAULT_ADDR = a.toNat ∧
          s.KeepsRegs t (Reg.HOST_EVENT :: Reg.HOST_FAULT :: logTouches) ∧ s.KeepsSram t) ∧
      (∀ ws : List Word, ws.length = 2 ^ len.toNat →
        (∀ i, i < 2 ^ len.toNat → s.hostCheck (hostAccess .burstWrite z len a i) = c i ∧ c i ≠ .ok) →
        ∃ t, exec (.burstWrite z len a ws) s = .next t ∧ t.hostData = [] ∧ t.hostStat.map (·.toNat % 128) = some (c 0).num ∧
          (∀ i f, i < 2 ^ len.toNat → (c i).event = some f → t.flag Reg.HOST_EVENT f = true) ∧
          t.fld Reg.HOST_FAULT Fld.HOST_FAULT_CODE = (c 0).num ∧ t.fld Reg.HOST_FAULT Fld.HOST_FAULT_ADDR = a.toNat ∧
          s.KeepsRegs t (Reg.HOST_EVENT :: Reg.HOST_FAULT :: logTouches) ∧ s.KeepsSram t) ∧
      ((z ≠ 2 ∨ a.toNat % 4 ≠ 0) → ∀ (op : HostOp) (i : Nat), (op = .burstRead ∨ op = .burstWrite) →
        s.hostCheck (hostAccess op z len a i) ≠ .ok)) ∧
  (∀ (z : BitVec 2) (len : BitVec 4) (a : BitVec 24) (ws : List Word) (s : State),
    s.hostLive = true → s.coreHeld = false → s.pwr.fullReq = false → 10 < len.toNat →
      ∀ p ∈ [(Instr.burstRead z len a [], false), (.burstWrite z len a ws, true)],
        ∀ c, c = (if hostKnown a.toNat p.2 = true then HostCode.sizeFault else .noReg) →
        ∃ t, exec p.1 s = .next t ∧ t.hostData = [] ∧ t.hostStat.map (·.toNat % 128) = some c.num ∧
          (∀ f, c.event = some f → t.flag Reg.HOST_EVENT f = true) ∧ t.fld Reg.HOST_FAULT Fld.HOST_FAULT_CODE = c.num ∧
          t.fld Reg.HOST_FAULT Fld.HOST_FAULT_ADDR = a.toNat ∧ s.KeepsRegs t (Reg.HOST_EVENT :: Reg.HOST_FAULT :: logTouches) ∧
          s.KeepsSram t) ∧
  (∀ (s : State) (x : Access),
    (s.hostCheck x = .noReg ↔ hostKnown x.addr x.write = false) ∧
    (s.hostCheck x = .sizeFault ↔ hostKnown x.addr x.write = true ∧ x.sizeOk = false) ∧
    (s.hostCheck x = .alignFault ↔ hostKnown x.addr x.write = true ∧ x.sizeOk = true ∧ x.addr % x.bytes ≠ 0) ∧
    (s.hostCheck x = .domainOff ↔ hostKnown x.addr x.write = true ∧ x.sizeOk = true ∧ x.addr % x.bytes = 0 ∧
      inSram x.addr = false ∧ s.reachable (targetReg x.addr) = false) ∧
    s.hostCheck x ≠ .guardLock)

/-- Reads and writes of registers. A read of an RC register clears the bits it sent and leaves those hardware sets in that cycle; one cut
short by HCSn clears none (R33, R39, R44); so for every RC register but IRQ_STATUS, which follows its sources (R52), and HOST_EVENT, which the
transaction itself may set. A write of IRQ_ENABLE, TB_SET_LO, TB_SET_HI, PWR_IRQ_EN, CONV_IRQ_EN, SEQ_CFG, LANE_PERIOD of lane 0 or RING_TX_HDR,
plain registers, stores the bits of its fields, leaves its reserved bits, and a read returns what it holds (R10); a write of LOG_CTL, an M16
register, changes the bits whose mask bit is 1, and its W1P bit UNFREEZE acts where mask and value are both 1 (R42). A read of a pair's low word captures the high word, which the next read of the high word returns, whatever has come between
(R37). A PEEK alias reads the register without clearing it, and a write to it is dropped with NO_REG (R40). -/
def Obligations.RcReadClears : Prop :=
  (∀ (a : BitVec 24) (hw : Word) (s : State),
  s.hostLive = true → s.coreHeld = false → s.pwr.fullReq = false → s.hostCheck (hostAccess .read 2 0 a 0) = .ok →
  inSram a.toNat = false → peekOf a.toNat = none → pairLow a.toNat = false → pairHigh a.toNat = false →
  a.toNat ≠ Reg.IRQ_STATUS → a.toNat ≠ Reg.HOST_EVENT →
    (∃ t, exec (.rcRead a hw true) s = .next t ∧ t.hostData = [s.view a.toNat] ∧ t.hostStat.map (·.toNat % 8) = some 0 ∧
      t.reg a.toNat = (s.reg a.toNat &&& ~~~(s.view a.toNat &&& rcMask a.toNat)) ||| (hw &&& rcMask a.toNat) ∧
      s.KeepsRegs t [a.toNat] ∧ s.KeepsSram t) ∧
    (hw &&& rcMask a.toNat = 0 →
      ∃ t, exec (.rcRead a hw false) s = .next t ∧ t.hostStat = none ∧ t.flag Reg.HOST_EVENT Fld.HOST_EVENT_ABORT = true ∧
        s.KeepsRegs t [Reg.HOST_EVENT] ∧ s.KeepsSram t)) ∧
  (∀ s : State, s.hostLive = true → s.coreHeld = false → s.pwr.fullReq = false → s.locked = false →
    (∀ (v : Word), ∀ x ∈ [(Reg.IRQ_ENABLE, (0x7FFFFF : Word)), (Reg.TB_SET_LO, 0xFFFFFFFF), (Reg.TB_SET_HI, 0xFFFFFFFF),
        (Reg.PWR_IRQ_EN, 0x1FFFF), (Reg.CONV_IRQ_EN, 0x1FFFF), (Reg.SEQ_CFG, 0x3F), (Reg.LANE_PERIOD 0, 0x3FFF3FFF), (Reg.RING_TX_HDR, 0xFFFFFF33)],
      s.reachable x.1 = true → s.laneState 0 = 0 →
      ∃ t u, exec (.registerWrite (BitVec.ofNat 24 x.1) v .none) s = .next t ∧
        exec (.hostRead 2 0 (BitVec.ofNat 24 x.1) true) t = .next u ∧
        t.reg x.1 = (s.reg x.1 &&& ~~~x.2) ||| (v &&& x.2) ∧ u.hostData = [t.reg x.1] ∧
        t.hostStat.map (·.toNat % 128) = some 0 ∧ u.hostStat.map (·.toNat % 128) = some 0 ∧ s.KeepsRegs t [x.1] ∧ s.KeepsSram t ∧
        t.KeepsRegs u [] ∧ t.KeepsSram u) ∧
    (∀ (v : Word), s.reachable Reg.LOG_CTL = true →
      ∃ t, exec (.registerWrite (BitVec.ofNat 24 Reg.LOG_CTL) v .none) s = .next t ∧
        (∀ i, i < 32 → (t.reg Reg.LOG_CTL).getLsbD i =
          if i < 16 ∧ v.getLsbD (16 + i) = true ∧ (0x71D : Word).getLsbD i = true then v.getLsbD i else (s.reg Reg.LOG_CTL).getLsbD i) ∧
        t.logFrozen = (s.logFrozen && !(v.getLsbD 1 && v.getLsbD 17)) ∧ t.hostStat.map (·.toNat % 128) = some 0 ∧
        s.KeepsRegs t [Reg.LOG_CTL, Reg.LOG_STATUS] ∧ s.KeepsSram t)) ∧
  (∀ (a : BitVec 24) (s s' : State), s.hostLive = true → s.coreHeld = false → s.pwr.fullReq = false →
    s'.hostLive = true → s'.coreHeld = false → s'.pwr.fullReq = false → pairLow a.toNat = true → pairHigh a.toNat = false →
    peekOf a.toNat = none → peekOf (a.toNat + 4) = none → inSram a.toNat = false → inSram (a.toNat + 4) = false → rcMask a.toNat = 0 →
    rcMask (a.toNat + 4) = 0 → s.hostCheck (hostAccess .read 2 0 a 0) = .ok → s'.hostCheck (hostAccess .read 2 0 (a + 4) 0) = .ok →
      ∃ t, exec (.hostRead 2 0 a true) s = .next t ∧ t.hostData = [s.view a.toNat] ∧ s.Keeps t [] ∧
        (s'.latches = t.latches → ∃ u, exec (.hostRead 2 0 (a + 4) true) s' = .next u ∧ u.hostData = [s.view (a.toNat + 4)] ∧
          s'.Keeps u [])) ∧
  (∀ (a : BitVec 24) (x : Nat) (v : Word) (s : State), s.hostLive = true → s.coreHeld = false → s.pwr.fullReq = false →
    inSram a.toNat = false → peekOf a.toNat = some x → a.toNat % 4 = 0 → (findReg a.toNat).isSome = false → s.reachable x = true →
      (∃ t, exec (.hostRead 2 0 a true) s = .next t ∧ t.hostData = [s.reg x] ∧ s.Keeps t []) ∧
      (∃ t, exec (.hostWrite 2 0 a v) s = .next t ∧ t.hostStat.map (·.toNat % 128) = some 5 ∧
        t.flag Reg.HOST_EVENT Fld.HOST_EVENT_NO_REG = true ∧ s.Keeps t [Reg.HOST_EVENT, Reg.HOST_FAULT]))

/-- ABORT: a transaction cut short before an item was complete has no effect but HOST_EVENT.ABORT, and a burst write keeps the words
received in full (R33). -/
def Obligations.AbortedTransaction : Prop := ∀ (s : State), s.hostLive = true → s.pwr.fullReq = false →
  (∀ op z len a, hostWords op len ≠ 0 →
    ∃ t, exec (.abort op z len a [] 0) s = .next t ∧ t.hostStat = none ∧
      t.reg Reg.HOST_EVENT = Fld.HOST_EVENT_ABORT.set (s.reg Reg.HOST_EVENT) 1 ∧ s.KeepsRegs t [Reg.HOST_EVENT] ∧ s.KeepsSram t) ∧
  (∀ (len : BitVec 4) (a : BitVec 24) (ws : List Word), len.toNat ≤ 10 → ws.length ≤ 2 ^ len.toNat → a.toNat % 4 = 0 →
    0x800000 ≤ a.toNat → a.toNat + 4 * ws.length ≤ 0xC00000 →
    ∃ t, exec (.abort .burstWrite 2 len a ws 0) s = .next t ∧ t.hostStat = none ∧
      (∀ i (h : i < ws.length), t.sramLoad (a.toNat + 4 * i) 4 = (ws[i]).toNat) ∧
      (∀ b, b < a.toNat ∨ a.toNat + 4 * ws.length ≤ b → t.sramByte b = s.sramByte b) ∧
      t.reg Reg.HOST_EVENT = Fld.HOST_EVENT_ABORT.set (s.reg Reg.HOST_EVENT) 1 ∧ s.KeepsRegs t [Reg.HOST_EVENT])

/-- While the guard is locked, a write of GUARD_CTL leaves ACTION and LOCK as they are, is answered with GUARD_LOCK where it would have
changed ACTION, and still acts on CFG_COMMIT (R42, R51). -/
def Obligations.LockedGuardWrite : Prop := ∀ (v : Word) (s : State),
  s.hostOpen Reg.GUARD_CTL = true → s.coreHeld = false → s.pwr.fullReq = false → s.locked = true →
    ∃ t, exec (.registerWrite 0x60 v .none) s = .next t ∧ t.reg Reg.GUARD_CTL = s.reg Reg.GUARD_CTL ∧ t.locked = true ∧
      t.commitReq = (s.commitReq || (v.getLsbD 3 && v.getLsbD 19)) ∧
      t.hostStat.map (·.toNat % 8) =
        some (if (v >>> 16) &&& (v ^^^ s.reg Reg.GUARD_CTL) &&& Fld.GUARD_CTL_ACTION.mask = 0 then 0 else 4) ∧
      s.KeepsRegs t [Reg.HOST_EVENT, Reg.HOST_FAULT] ∧ s.KeepsSram t

/-- While CORE is off, or VIO is missing, the host port executes nothing (R34, R329; that the model then shows no data and no status is its
choice, log entry 16), and a command that only the host port can send does nothing; nor does it in STANDBY, HIBERNATE or WAKE_FAIL where the
fall of HCSn is a wake source, and there the part wakes (R34, R288). Such a command of a register that cannot be reached is
answered with DOMAIN_OFF (R16, R38), one that would change a G field under the guard lock with GUARD_LOCK (R51): its code stands in the
status byte, HOST_EVENT and HOST_FAULT, and nothing else changes. That such a command is a transaction of its own is log entry 72. -/
def Obligations.HostPortWithoutCore : Prop := ∀ (c : Instr) (s : State),
  (s.hcsnWakes = true → s.pwr.wake = none → s.pagesLinear → (hostRowReg c).isSome = true ∨ (match c with
      | .hostRead .. | .hostWrite .. | .burstRead .. | .burstWrite .. | .abort .. | .rcRead .. | .registerWrite .. => True
      | _ => False) →
    ∃ t, exec c s = .next t ∧ t.pwrState = 6 ∧ t.reg Reg.PWR_WAKE_CAUSE = s.pwr.latched ||| oneBit 3 ∧ t.pwr.latched = 0 ∧
      t.flag Reg.PWR_STATUS Fld.PWR_STATUS_BUSY = true ∧
      t.pwr.wake.map (fun w => (w.target, w.runSet, w.attempts)) = some (s.runSet, false, 1)) ∧
  (s.hostLive = false → s.hcsnWakes = false →
    (match c with
      | .hostRead .. | .hostWrite .. | .burstRead .. | .burstWrite .. | .abort .. | .rcRead .. | .registerWrite .. => True
      | _ => False) →
      ∃ t, exec c s = .next t ∧ t.hostData = [] ∧ t.hostStat = none ∧ s.KeepsRegs t [] ∧ s.KeepsSram t) ∧
  (∀ a, hostRowReg c = some a →
    (s.hostLive = false → s.hcsnWakes = false → exec c s = .next s.settle) ∧
    (s.hostLive = true → s.coreHeld = false → s.reachable a = false →
      ∃ t, exec c s = .next t ∧ t.hostData = [] ∧ t.hostStat.map (·.toNat % 128) = some 1 ∧ t.hostNo = s.hostNo + 1 ∧
        t.flag Reg.HOST_EVENT Fld.HOST_EVENT_DOMAIN_OFF = true ∧ t.fld Reg.HOST_FAULT Fld.HOST_FAULT_CODE = 1 ∧
        t.fld Reg.HOST_FAULT Fld.HOST_FAULT_ADDR = a ∧ s.Keeps t (Reg.HOST_EVENT :: Reg.HOST_FAULT :: logTouches)) ∧
    (s.hostOpen a = true → s.coreHeld = false → s.locked = true → s.hostRowGuarded c = true →
      ∃ t, exec c s = .next t ∧ t.hostData = [] ∧ t.hostStat.map (·.toNat % 128) = some 4 ∧ t.hostNo = s.hostNo + 1 ∧
        t.flag Reg.HOST_EVENT Fld.HOST_EVENT_GUARD_LOCK = true ∧ t.fld Reg.HOST_FAULT Fld.HOST_FAULT_CODE = 4 ∧
        t.fld Reg.HOST_FAULT Fld.HOST_FAULT_ADDR = a ∧ s.Keeps t [Reg.HOST_EVENT, Reg.HOST_FAULT]))

/-! ### Dies and timebase -/

/-- A failed send is counted for its word and repeated; the 16th in a row of one word declares the die's link down; a write carried past its
boundary is kept and marked LATE (R15, R16). So it is with CORE off too, when the keeper core uses the links (R198, R283), but SYS_LINK_RETRY and
SYS_DIE_EVENT are CORE's. A die without power or link, and CD itself, gets no words; a die whose Tether island alone works does. The model's choice: the count of a word
is its own, whatever other words do, and the writes that waited for a boundary at the die are lost with its link (log entry 20, DEDUCED); BD's
DIE_UP too reads 0 while its link is down (log entry 64). -/
def Obligations.LinkWordFail : Prop := ∀ (d : Die) (word : Nat) (late : Option (BitVec 24 × Word)) (s : State),
  ((d = .cd ∨ s.dieClocked d = false ∨ s.linkIsDown d = true) →
    ∃ t, exec (.linkWordFail d ⟨word, late⟩) s = .next t ∧ t.linkFails = s.linkFails ∧ t.linkDown = s.linkDown ∧ t.late = s.late ∧
      s.KeepsRegs t [] ∧ s.KeepsSram t) ∧
  (d ≠ .cd → s.dieClocked d = true → s.linkIsDown d = false →
    (s.failsOf d word + 1 < 16 →
      ∃ t, exec (.linkWordFail d ⟨word, late⟩) s = .next t ∧ t.failsOf d word = s.failsOf d word + 1 ∧
        (∀ w, w ≠ word → t.failsOf d w = s.failsOf d w) ∧
        (s.on .core = true → t.reg Reg.SYS_LINK_RETRY = satAdd (s.reg Reg.SYS_LINK_RETRY) 1) ∧ t.linkIsDown d = false ∧
        (t.late.map fun w => (w.addr, w.v)) = (s.late.map fun w => (w.addr, w.v)) ++ (late.map fun w => (w.1.toNat, w.2)).toList ∧
        (late.isSome = true → s.on .core = true → t.flag Reg.SYS_DIE_EVENT (Fld.SYS_DIE_EVENT_LATE.bit d.bit) = true) ∧
        s.KeepsRegs t ((if s.on .core then [Reg.SYS_LINK_RETRY, Reg.SYS_DIE_EVENT] else []) ++ logTouches) ∧ s.KeepsSram t) ∧
    (16 ≤ s.failsOf d word + 1 →
      ∃ t, exec (.linkWordFail d ⟨word, late⟩) s = .next t ∧ (∀ w, t.failsOf d w = 0) ∧ t.linkIsDown d = true ∧ t.dieUp d = false ∧
        (s.on .core = true → t.flag Reg.SYS_DIE_EVENT (Fld.SYS_DIE_EVENT_LINK_DOWN.bit d.bit) = true) ∧
        t.late = s.late.filter (fun w => regDie w.addr != some d) ∧
        s.KeepsRegs t ((if s.on .core then [Reg.SYS_DIE_EVENT] else []) ++ logTouches) ∧ s.KeepsSram t))

/-- A die that loses CK enters its safe state until CK returns (R17): the working ports of a loop die in an OUT role drive the level that
FS_SELECT selects, no port supplies its device, and the modems neither send nor hear; MD abandons its conversions, and excitation and the
reference buffer stay as they are; both transmitters of TD go quiet; BD works on. On its return time passes to the next boundary strobe, and
CK_LOSS for the die is set, while CORE can hold it, and logged at FATAL with code 0x0013 (R17, R310; the log's own rules are R308's). That MD's
island starts a frame at that strobe is the model's choice (log entry 72). -/
def Obligations.DieClock : Prop := ∀ (d : Die) (s : State),
  (d ≠ .cd → s.dieClocked d = true → s.ckIsLost d = false →
    ∃ t, exec (.ckLoss d) s = .next t ∧ t.ckIsLost d = true ∧ t.ckOk d = false ∧ (d ≠ .bd → t.runs d = false) ∧
      (∀ e, e ≠ d → t.ckIsLost e = s.ckIsLost e) ∧
      (∀ n, n < 16 → d = ldDie (ldOf n) → s.portRuns n = true →
        t.portRuns n = false ∧ t.supplyOn n = false ∧ t.flag (Reg.MODEM_STATUS n) Fld.MODEM_STATUS_TX_ACTIVE = false ∧
        t.flag (Reg.MODEM_STATUS n) Fld.MODEM_STATUS_CARRIER = false ∧ (t.modem n).hearing = false ∧
        (isOut (s.roleActive n) = true → s.switchesOpen n = false →
          t.target n = s.driveCap n (s.fsLevel n) ∧ t.flag (Reg.PORT_STATUS n) Fld.PORT_STATUS_FAILSAFE = true)) ∧
      (d = .md → t.tether.conv = none ∧ (s.on .meas = true → ∀ i, i < 5 → (t.slice i).conv = none) ∧
        t.reg Reg.REF_STATUS = s.reg Reg.REF_STATUS ∧ t.reg Reg.EXC_STATUS = s.reg Reg.EXC_STATUS) ∧
      (d = .td → (t.trunk .tw).sending = none ∧ (t.trunk .te).sending = none) ∧
      (d = .bd → s.bypassed = true ∨ s.bypassCause = false → s.Keeps t [])) ∧
  ((d = .cd ∨ s.dieClocked d = false ∨ s.ckIsLost d = true) →
    ∃ t, exec (.ckLoss d) s = .next t ∧ t.ckLost = s.ckLost ∧ s.KeepsRegs t [] ∧ s.KeepsSram t) ∧
  (s.ckIsLost d = true → ∃ t, exec (.ckReturn d) s = .next t ∧ s.Logs t .fatal 0x0013 0x02 d.bit 0 0 0) ∧
  (s.ckIsLost d = true → s.on .core = true →
    ∃ t, exec (.ckReturn d) s = .next t ∧ t.ckIsLost d = false ∧ t.ck = max s.ck s.nextStrobe ∧
      t.reg Reg.SYS_DIE_EVENT = (Fld.SYS_DIE_EVENT_CK_LOSS.bit d.bit).set (s.reg Reg.SYS_DIE_EVENT) 1 ∧
      s.KeepsRegs t (Reg.SYS_DIE_EVENT :: Reg.TB_EVENT :: Reg.BD_STATUS :: logTouches) ∧
      (d ≠ .ld0 → t.reg Reg.BD_STATUS = s.reg Reg.BD_STATUS) ∧ s.KeepsSram t) ∧
  (s.ckIsLost d = true → s.on .core = false →
    ∃ t, exec (.ckReturn d) s = .next t ∧ t.ckIsLost d = false ∧ t.ck = max s.ck s.nextStrobe ∧
      s.KeepsRegs t (Reg.TB_EVENT :: Reg.BD_STATUS :: logTouches) ∧ s.KeepsSram t) ∧
  (s.ckIsLost d = false →
    ∃ t, exec (.ckReturn d) s = .next t ∧ t.ckLost = s.ckLost ∧ s.KeepsRegs t [] ∧ s.KeepsSram t)

/-- A load puts TB_SET into TIME at the first tick at least 24 CK later and sets TB_VALID and SET; INVALIDATE clears TB_VALID alone; a
wrap gives 0, or a value within the first step of a divided clock (R24), sets WRAP and leaves TB_VALID (R45, R46). A load or a wrap that takes
TIME into another second closes the mains tracker's second (R58). -/
def Obligations.Timebase : Prop := ∀ s : State,
  (s.hostOpen Reg.TB_CTL = true →
    ∃ t, exec .tbLoad s = .next t ∧ t.time = pair64 (s.reg Reg.TB_SET_HI) (s.reg Reg.TB_SET_LO) ∧ t.tbValid = true ∧
      t.tbLoad = none ∧ t.ck = 16 * tickAfter (s.ck + 24) ∧ t.flag Reg.TB_EVENT Fld.TB_EVENT_SET = true ∧ t.mains.second = t.secondNo ∧
      s.KeepsRegs t [Reg.TB_EVENT, Reg.MAINS_PERIOD, Reg.MAINS_STATUS, Reg.CONV_EVENT] ∧ s.KeepsSram t) ∧
  (s.hostOpen Reg.TB_CTL = true →
    ∃ t, exec .tbInvalidate s = .next t ∧ t.tbValid = false ∧ t.time = s.time ∧ s.KeepsRegs t [] ∧ s.KeepsSram t) ∧
  (s.hostLive = false → s.hcsnWakes = false → ∀ c ∈ [Instr.tbLoad, .tbInvalidate],
    ∃ t, exec c s = .next t ∧ t.tbValid = s.tbValid ∧ t.time = s.time ∧ t.tbLoad = s.tbLoad ∧ s.KeepsRegs t [] ∧ s.KeepsSram t) ∧
  (s.tbLoad = none → s.ck < s.ckAtTick (2 ^ 64 - s.time.toNat) →
    ∃ t, exec .timeWrap s = .next t ∧ t.time.toNat < s.tickLen ∧ t.tbValid = s.tbValid ∧ t.mains.second = t.secondNo ∧
      t.ck = s.ckAtTick (2 ^ 64 - s.time.toNat) ∧ t.reg Reg.TB_EVENT = Fld.TB_EVENT_WRAP.set (s.reg Reg.TB_EVENT) 1 ∧
      s.KeepsRegs t [Reg.TB_EVENT, Reg.MAINS_PERIOD, Reg.MAINS_STATUS, Reg.CONV_EVENT] ∧ s.KeepsSram t)

/-! ### Guard and Tail log -/

/-- CFG_COMMIT asks for a commit scan; LOCK, once written, is set; only the second key in the very next transaction within 1 ms clears it;
the two keys, one transaction after the other, open the lock (R48, R51). The scan of a loop tick (R47, R50): every domain that is on with a valid
reference shows whether its CRC differs, each that does is counted, and where one passes from match to mismatch MISMATCH sets and ACTION acts:
from 1 on every lane in RUN enters HOLD with HOLD_CAUSE 1, from 2 on every port in an OUT role drives its fail-safe level, the guard's cause
latched; else no lane and no port changes. -/
def Obligations.GuardCommands : Prop :=
  (∀ s : State,
    (s.on .core = true →
      ∃ t, exec .cfgCommit s = .next t ∧ t.commitReq = true ∧ t.commitRun = false ∧ s.KeepsRegs t [] ∧ s.KeepsSram t) ∧
    (s.hostOpen Reg.GUARD_CTL = true →
      ∃ t, exec .guardLockSet s = .next t ∧ t.locked = true ∧
        t.reg Reg.GUARD_CTL = Fld.GUARD_CTL_LOCK.set (s.reg Reg.GUARD_CTL) 1 ∧ s.KeepsRegs t [Reg.GUARD_CTL] ∧ s.KeepsSram t) ∧
    (s.hostOpen Reg.GUARD_UNLOCK = true →
      ∀ key, ∃ t, exec (.guardUnlock key) s = .next t ∧
        t.reg Reg.GUARD_UNLOCK = Fld.GUARD_UNLOCK_KEY.put (Fld.GUARD_UNLOCK_KEY.get key) ∧
        (t.reg Reg.GUARD_CTL = if Fld.GUARD_UNLOCK_KEY.get key = 0x9581 ∧
            (s.guardKey.any fun p => p.1 == s.hostNo && decide (s.ck ≤ p.2 + msCk 1)) = true
          then Fld.GUARD_CTL_LOCK.set (s.reg Reg.GUARD_CTL) 0 else s.reg Reg.GUARD_CTL) ∧
        s.KeepsRegs t [Reg.GUARD_CTL, Reg.GUARD_UNLOCK] ∧ s.KeepsSram t) ∧
    (s.on .core = false → ∀ c ∈ [Instr.cfgCommit, .guardLockSet],
      ∃ t, exec c s = .next t ∧ t.commitReq = s.commitReq ∧ s.KeepsRegs t [] ∧ s.KeepsSram t)) ∧
  (∀ s : State, s.hostOpen Reg.GUARD_UNLOCK = true →
    ∃ t u, exec (.guardUnlock 0x6A7E) s = .next t ∧ exec (.guardUnlock 0x9581) t = .next u ∧ u.locked = false ∧
      s.KeepsRegs u [Reg.GUARD_CTL, Reg.GUARD_UNLOCK]) ∧
  (∀ s t : State, s.commitReq = false → t = s.guardScan →
    let was (d : Domain) : Bool := s.flag Reg.GUARD_STATUS (mismatchFld d)
    let bad (d : Domain) : Bool := s.on d && s.flag Reg.GUARD_STATUS (refFld d) && s.guardCrc d != s.guardRef d
    let act := s.fld Reg.GUARD_CTL Fld.GUARD_CTL_ACTION
    (∀ d, s.on d = true → s.flag Reg.GUARD_STATUS (refFld d) = true → t.flag Reg.GUARD_STATUS (mismatchFld d) = bad d) ∧
    (∀ d, (s.on d = false ∨ s.flag Reg.GUARD_STATUS (refFld d) = false) → t.flag Reg.GUARD_STATUS (mismatchFld d) = was d) ∧
    t.reg Reg.GUARD_MISMATCH_COUNT = satAdd (s.reg Reg.GUARD_MISMATCH_COUNT) (allDomains.countP bad) ∧
    ((∀ d, bad d = true → was d = true) → t.ports = s.ports ∧ s.Keeps t [Reg.GUARD_STATUS, Reg.GUARD_MISMATCH_COUNT, Reg.GUARD_EVENT]) ∧
    (∀ d, bad d = true → was d = false →
      t.flag Reg.GUARD_EVENT Fld.GUARD_EVENT_MISMATCH = true ∧
      (∀ n : LaneId, s.on .core = true → act ≠ 0 → s.laneState n = 1 →
        t.laneState n = 2 ∧ t.flag (Reg.LANE_STATUS n) Fld.LANE_STATUS_HOLD_CAUSE = true) ∧
      (∀ n : LaneId, (act = 0 ∨ s.laneState n ≠ 1) → t.laneState n = s.laneState n) ∧
      (∀ n : PortId, 2 ≤ act → s.on (portDomain n) = true → isOut (s.roleActive n) = true → s.switchesOpen n = false →
        t.target n = s.driveCap n (s.fsLevel n) ∧ t.flag (Reg.PORT_STATUS n) Fld.PORT_STATUS_FAILSAFE = true ∧
        (t.port n).guardLat = true) ∧
      (act ≤ 1 → t.ports = s.ports)))

/-- LOG_CLEAR drains the log without counting a loss, and UNFREEZE ends a freeze. A log entry that arises: below MIN_SEV nothing; in a frozen
log it is lost and counted; else it is written at WP, WP and the sequence number advance, its check word holds, and one that meets 4096
undrained entries counts the oldest as lost (R307, R308). -/
def Obligations.TailLog : Prop :=
  (∀ s : State,
    (s.hostOpen Reg.LOG_CLEAR = true → ∃ t, exec .logClear s = .next t ∧ t.reg Reg.LOG_RP = s.reg Reg.LOG_WP ∧ t.logFill = 0 ∧ t.logMem = s.logMem ∧
      s.KeepsRegs t [Reg.LOG_RP] ∧ s.KeepsSram t) ∧
    (s.hostOpen Reg.LOG_CTL = true → ∃ t, exec .logUnfreeze s = .next t ∧ t.logFrozen = false ∧
      t.reg Reg.LOG_STATUS = Fld.LOG_STATUS_FROZEN.set (s.reg Reg.LOG_STATUS) 0 ∧ t.logMem = s.logMem ∧
      s.KeepsRegs t [Reg.LOG_STATUS] ∧ s.KeepsSram t)) ∧
  (∀ (s : State) (v : Sev) (c k i : Nat) (x y z : Word),
    (v.code < s.fld Reg.LOG_CTL Fld.LOG_CTL_MIN_SEV → s.log v c k i x y z = s) ∧
    (s.fld Reg.LOG_CTL Fld.LOG_CTL_MIN_SEV ≤ v.code → s.logFrozen = true →
      (s.log v c k i x y z).reg Reg.LOG_LOST = satAdd (s.reg Reg.LOG_LOST) 1 ∧ (s.log v c k i x y z).logMem = s.logMem ∧
      (s.log v c k i x y z).reg Reg.LOG_WP = s.reg Reg.LOG_WP) ∧
    (s.fld Reg.LOG_CTL Fld.LOG_CTL_MIN_SEV ≤ v.code → s.logFrozen = false →
      (s.log v c k i x y z).reg Reg.LOG_WP = s.reg Reg.LOG_WP + 1 ∧ (s.log v c k i x y z).logSeq = s.logSeq + 1 ∧
      (s.log v c k i x y z).logSlot ((s.reg Reg.LOG_WP).toNat % 4096) = logWords s.time s.tbValid s.logSeq v c k i x y z ∧
      (∀ q, q ≠ (s.reg Reg.LOG_WP).toNat % 4096 → (s.log v c k i x y z).logSlot q = s.logSlot q) ∧
      (s.log v c k i x y z).reg Reg.LOG_LOST = (if s.logFill = 4096 then satAdd (s.reg Reg.LOG_LOST) 1 else s.reg Reg.LOG_LOST)) ∧
    (∀ a, a ∉ logTouches → (s.log v c k i x y z).reg a = s.reg a))

/-! ### Loop tick and frame boundary -/

/-- LOOP_TICK and FRAME_BOUNDARY in their stages, whose order is the model's choice (log entry 40, DEDUCED): a waiting request of the host
window is served (log entry 53), a captured calibration block is given to the host (R121), time passes to the boundary, a commit scan ends
(R48), late writes go in force (R15), then at a loop tick CD's part, the sixteen ports, the keepers, what the samples feed (R128, R145, R98),
the power manager's part, the guard's scan (R47), a snapshot's pass and the capture of an export; at a frame boundary the frame that ends is
closed, the trims, the Reel and the excitation take their turn, and injected work takes slices before the regular sequence does (R53, R78):
what they do there is stated with the Reel and with the sequences. Where MEAS and the Tether island both work, in the wake out of Tether
mode, the frame that ends first has the boundary (log entry 81, DESIGN CHOICE); the loop tick comes again 1 ms later. A commit scan
restarted by a write since (R48) has not ended; one begun at the tick before has: the scan's steps at the ticks, and the boundary of each late
write by its die, are the model's choice (log entries 21 and 26). A set-point that has missed its boundary is stored at the next one where its
port's die works and its link is up: P0's too while LOOP_A is off and the LD0 island holds P0 (R15, R198, R291). -/
def Obligations.BoundaryStages : Prop := ∀ s : State,
  (∀ xs : List PortSample, ∃ r u v w,
    r = (if s.on .core = true then s.windowServe else s).calSave.passTo s.tickAt ∧
    u = (({ r with tickAt := r.ck + msCk 1 } : State).scanEnd.lateWrites tickAddr).tickCore ∧
    v = iterate 4 (fun d s => s.keeperTick d) (iterate 16 (fun n s => s.portTick n (nth xs n ⟨[], 0, 0, false, false⟩)) u) ∧
    w = v.armTether.tickAfterPorts.xtalReturn.stateReqTick.wakeGo ∧
    exec (.loopTick xs) s = .next (if w.on .core = true then w.guardScan else w).snapTick.calCapture.settle) ∧
  (s.commitReq = true →
    (s.commitRun = false → s.scanEnd = s ∧ s.guardScan = { s with commitRun := true }) ∧
    (s.commitRun = true → s.scanEnd.commitReq = false ∧ s.scanEnd.flag Reg.GUARD_EVENT Fld.GUARD_EVENT_COMMIT_DONE = true ∧
      (∀ d ∈ allDomains, s.on d = true → vget s.scanEnd.refCrc d.bit 0 = s.guardCrc d) ∧
      s.KeepsRegs s.scanEnd [Reg.GUARD_STATUS, Reg.GUARD_EVENT])) ∧
  (s.islandFirst = false → s.measRuns = true → exec .frameBoundary s =
    .next (s.toFrameEnd.lateWrites frameAddr).framePrepare.injBoundary.seqBoundary.standbyConv.calRecapture.settle) ∧
  (s.islandFirst = true → exec .frameBoundary s = .next s.tetherBoundary.settle) ∧
  (∀ (n : PortId) (v : Word), (s.on (portDomain n) = true ∨ n.val = 0 ∧ s.islandOn = true) → s.ckIsLost (ldDie (ldOf n)) = false →
    s.linkIsDown (ldDie (ldOf n)) = false →
    (s.lateWrite ⟨Reg.LOOP_SET n, v, 0⟩).fld (Reg.LOOP_SET n) Fld.LOOP_SET_VALUE = min 48000 (Fld.LOOP_SET_VALUE.get v) ∧
      ((s.lateWrite ⟨Reg.LOOP_SET n, v, 0⟩).port n).released = true ∧
      s.KeepsRegs (s.lateWrite ⟨Reg.LOOP_SET n, v, 0⟩) [Reg.LOOP_SET n, Reg.PORT_EVENT n]) ∧
  (s.islandRuns = false → s.islandFirst = false) ∧ (s.measRuns = false → s.islandFirst = s.islandRuns) ∧
  (s.measRuns = false → s.islandRuns = false →
    ∃ t, exec .frameBoundary s = .next t ∧ s.KeepsRegs t [] ∧ s.KeepsSram t)

/-- The target of a tick by the precedence of R149: none outside the OUT roles or with the switches open; the fail-safe level while a cause
holds; the trim's points while one runs, then the way back; slewed to the held target while parked; else to the set-point. A probe limits it to 8000
counts (R140); in Tether mode P0 drives no less than its supply's allotment (R294) and goes to its held target at FROZEN (R296). The slewed target
(R128) moves toward the set-point by no more than STEP a tick, never past it, and STEP 0 takes it at once. A tick of a port whose die works
(`u` below: the state before its target) leaves LOOP_TARGET at that target, and takes the sample: LOOP_RB, the rounded mean of the last 32 readings (R133; log
entry 66 for the rounding), of which those from before a reset of the port do not count (R299; what is then averaged is the model's choice, log
entry 88), FS_FORCE as the tick finds it being a cause from then on (R143), MARGIN and LOW_MARGIN (R137); LOOP_MISMATCH after TIME samples outside TOL of the target of the tick before, the
timer stopped while targets change, LOOP_HEADROOM after 2 ticks of saturation, TONE_CLIP at once, each cleared by 10 good ones (R135 to R137; a
clipping tick with the mean outside TOL is none of them, log entry 88). In LOOP_MISMATCH's clauses the comparison with the target of the tick
before, the hold of three ticks (mmHold) and `moved`, a change of the target made since the tick before, are the model's reading of R135
(log entry 41, DEDUCED); SLEWING while the slew limit keeps the target off the set-point. -/
def Obligations.LoopTarget : Prop :=
  (∀ (s : State) (n : Nat),
    let tether := n = 0 ∧ s.inTether = true
    let limited (x : Nat) : Nat := max (if tether then 6600 else 0) (if (s.port n).probing = true then min 8000 x else x)
    let slewed (x : Nat) : Nat := limited (slewTo (s.target n) x (s.fld (Reg.LOOP_SLEW n) Fld.LOOP_SLEW_STEP))
    ((isOut (s.roleActive n) = false ∨ s.switchesOpen n = true) → s.tickTarget n = 0) ∧
    (isOut (s.roleActive n) = true → s.switchesOpen n = false →
      (s.fsCause n = true → s.tickTarget n = limited (s.fsLevel n)) ∧
      (s.fsCause n = false → ∀ r, (s.port n).trimRun = some r →
        s.tickTarget n = if r.back = true then slewed (s.loopSetValue n) else limited (if r.high = true then 40000 else 8000)) ∧
      (s.fsCause n = false → (s.port n).trimRun = none →
        (((s.port n).parked = true ∨ tether ∧ s.fld Reg.TETHER_STATUS Fld.TETHER_STATUS_SHED = 3) →
          s.tickTarget n = slewed (s.port n).held) ∧
        ((s.port n).parked = false → ¬ (tether ∧ s.fld Reg.TETHER_STATUS Fld.TETHER_STATUS_SHED = 3) →
          s.tickTarget n = slewed (s.loopSetValue n))))) ∧
  (∀ prev set step : Nat,
    (step = 0 → slewTo prev set step = set) ∧
    (step ≠ 0 → slewTo prev set step ≤ prev + step ∧ prev ≤ slewTo prev set step + step) ∧
    (min prev set ≤ slewTo prev set step ∧ slewTo prev set step ≤ max prev set) ∧
    (step ≠ 0 → prev ≠ set → (slewTo prev set step = set ∨ slewTo prev set step = prev + step ∨ slewTo prev set step + step = prev))) ∧
  (∀ (s : State) (n : PortId) (x : PortSample) (rb : Int), s.readback n x = rb → s.portRuns n = true →
    ∀ u t, u = s.tickReady n → t = s.portTick n x →
    let p := u.port n
    let out := isOut (u.roleActive n)
    let drives := out = true ∧ u.switchesOpen n = false
    let flag (f : Fld) : Bool := t.flag (Reg.PORT_STATUS n) f
    let off := u.tol n < (rb - p.openT).natAbs
    let moved := u.tol n < ((s.target n : Int) - p.openT).natAbs
    (p.held < 0x10000 → t.target n = u.tickTarget n) ∧ t.roleActive n = u.roleActive n ∧
    (flag Fld.PORT_STATUS_FAILSAFE = true ↔ drives ∧ u.fsCause n = true) ∧
    (flag Fld.PORT_STATUS_SLEWING = true ↔ drives ∧ u.fsCause n = false ∧ p.parked = false ∧ u.frozenAt n = false ∧
      (∀ r, p.trimRun = some r → r.back = true) ∧ u.tickTarget n ≠ u.driveCap n (u.loopSetValue n)) ∧
    t.reg (Reg.LOOP_RB n) = ofInt32 rb ∧
    (∀ k w, k = s.windowCount n → w = (x.adc.reverse.drop ((s.ck - s.windowEnd n) / 2560)).take k → s.roleActive n ≠ 0 →
      s.switchesOpen n = false → 2 * (k * rb - sumInt w).natAbs ≤ k ∧ (k = 0 → rb = 0)) ∧
    ((s.port n).winFrom = none → s.windowCount n = 32) ∧
    ((s.modem n).hearing = false → (s.modem n).bitEnd = none → s.windowEnd n = s.bitLast s.ck) ∧
    ((s.modem n).hearing = true → s.flag (Reg.MODEM_STATUS n) Fld.MODEM_STATUS_TIMING = true →
      (s.ck < (s.modem n).bitAt + bitCk → s.gridAt ≤ s.ck → s.windowEnd n = s.bitLast s.ck) ∧
      (s.gridAt < (s.modem n).bitAt → (s.modem n).bitAt + bitCk ≤ s.ck →
        s.windowEnd n = (s.modem n).bitAt + (s.ck - (s.modem n).bitAt) / bitCk * bitCk)) ∧
    (∀ e, (s.modem n).hearing = false → (s.modem n).bitEnd = some e → s.gridAt < (s.modem n).bitAt → (s.modem n).bitAt < e → e + bitCk ≤ s.ck →
      ((s.bitLast s.ck < e + bitCk → s.windowEnd n = (s.modem n).bitAt + (e - 1 - (s.modem n).bitAt) / bitCk * bitCk + bitCk) ∧
      (e + bitCk ≤ s.bitLast s.ck → s.windowEnd n = s.bitLast s.ck))) ∧
    (∀ at_, (s.port n).winFrom = some at_ → (s.windowEnd n ≤ at_ → s.windowCount n = 0) ∧
      (at_ + 32 * 2560 ≤ s.windowEnd n → s.windowCount n = 32)) ∧
    ((u.port n).fsForced = s.flag (Reg.PORT_CTL n) Fld.PORT_CTL_FS_FORCE) ∧
    ((s.roleActive n = 0 ∨ s.switchesOpen n = true) → rb.natAbs ≤ 20) ∧
    t.fld (Reg.PORT_VTERM n) Fld.PORT_VTERM_MARGIN = (if out = true then min 0xFFFF x.margin else 0) ∧
    (flag Fld.PORT_STATUS_LOW_MARGIN = true ↔ out = true ∧ x.margin < 50) ∧
    -- LOOP_MISMATCH
    (out = false → flag Fld.PORT_STATUS_LOOP_MISMATCH = false) ∧
    (out = true → off → p.mmHold = 0 → ¬ moved → (t.port n).mmBad = p.mmBad + 1 ∧ (t.port n).mmGood = 0 ∧
      (clampNat 4 1000 (u.fld (Reg.LOOP_TOL n) Fld.LOOP_TOL_TIME) ≤ p.mmBad + 1 →
        flag Fld.PORT_STATUS_LOOP_MISMATCH = true ∧ (u.flag (Reg.PORT_STATUS n) Fld.PORT_STATUS_LOOP_MISMATCH = false →
          t.flag (Reg.PORT_EVENT n) Fld.PORT_EVENT_LOOP_MISMATCH = true))) ∧
    (out = true → off → (p.mmHold ≠ 0 ∨ moved) → (t.port n).mmBad = p.mmBad) ∧
    (out = true → u.tol n < ((t.target n : Int) - s.target n).natAbs → (t.port n).mmHold = 3) ∧
    (out = true → ¬ off → (t.port n).mmBad = 0 ∧ (t.port n).mmGood = p.mmGood + 1 ∧
      (10 ≤ p.mmGood + 1 → flag Fld.PORT_STATUS_LOOP_MISMATCH = false)) ∧
    -- LOOP_HEADROOM and TONE_CLIP
    (drives → x.sat = true → (t.port n).satRun = p.satRun + 1 ∧ (2 ≤ p.satRun + 1 → flag Fld.PORT_STATUS_LOOP_HEADROOM = true ∧
      (u.flag (Reg.PORT_STATUS n) Fld.PORT_STATUS_LOOP_HEADROOM = false →
        t.flag (Reg.PORT_EVENT n) Fld.PORT_EVENT_LOOP_HEADROOM = true))) ∧
    ((¬ drives ∨ x.sat = false) → (t.port n).satRun = 0 ∧ (10 ≤ p.satFree + 1 → flag Fld.PORT_STATUS_LOOP_HEADROOM = false)) ∧
    (drives → x.clip = true → (t.port n).clipFree = 0 ∧ (¬ off → flag Fld.PORT_STATUS_TONE_CLIP = true ∧
      (u.flag (Reg.PORT_STATUS n) Fld.PORT_STATUS_TONE_CLIP = false → t.flag (Reg.PORT_EVENT n) Fld.PORT_EVENT_TONE_CLIP = true))) ∧
    ((¬ drives ∨ x.clip = false) → (t.port n).clipFree = p.clipFree + 1 ∧
      (10 ≤ p.clipFree + 1 → flag Fld.PORT_STATUS_TONE_CLIP = false)))

/-! ### Converter -/

/-- The mains tracker (R57 to R59): an edge of the selected kind, on pads that are free, joins its source's run, a ripple edge at twice its
period, and a period outside 45 to 66 Hz starts the run afresh; a second that ends before an edge closes first; the second's update takes a
run of 30 periods or more into M, S and MAINS_PERIOD and locks, a second without one shows NO_SIGNAL, and the third in a row while locked
unlocks; R58's example: M = 49 and S = 193 449 639 give frames of 3 947 952 CK at 1 PLC and 39 479 518 CK at 10 PLC. In Tether mode the island
counts whole cycles of its divided clock in a tracker of its own, from MAINS_SYNC alone, held pads or not, and beside MEAS in the wake that ends
the mode (R284, R292, R297). The model's choice: that a second whose longest run is under 30 shows NO_SIGNAL, whatever periods it accepted beside it,
and that M counts each ripple period (log entry 73), that the period which spans two seconds counts for neither (log entry 27, DEDUCED), and
which source a second's update takes (log entry 28, DEDUCED). -/
def Obligations.MainsTracker : Prop :=
  (∀ (rising : Bool) (wait : Nat) (s u : State), u = (s.pass wait).closeSecond →
    ((s.pass wait).secondNo = s.mains.second → u.mains = s.mains) ∧
    (s.measRuns = true →
      ((rising = s.flag Reg.MAINS_CTL Fld.MAINS_CTL_EDGE ∨ (Fld.PAD_STATUS_DOMAIN.bit 1).on (s.reg Reg.PAD_STATUS) = true) →
        ∃ t, exec (.mainsEdge .sync rising wait) s = .next t ∧ t.mains = u.mains ∧ t.ck = s.ck + wait ∧
          s.KeepsRegs t [Reg.TB_EVENT, Reg.MAINS_PERIOD, Reg.MAINS_STATUS, Reg.CONV_EVENT] ∧ s.KeepsSram t) ∧
      (rising ≠ s.flag Reg.MAINS_CTL Fld.MAINS_CTL_EDGE → (Fld.PAD_STATUS_DOMAIN.bit 1).on (s.reg Reg.PAD_STATUS) = false →
        ∃ t, exec (.mainsEdge .sync rising wait) s = .next t ∧
          t.mains.sync = u.mains.sync.edge ((s.ck + wait) / s.cycleLen * s.cycleLen) 1 ∧
          t.mains.ripple = u.mains.ripple ∧ t.ck = s.ck + wait ∧
          s.KeepsRegs t [Reg.TB_EVENT, Reg.MAINS_PERIOD, Reg.MAINS_STATUS, Reg.CONV_EVENT] ∧ s.KeepsSram t) ∧
      (∃ t, exec (.mainsEdge .ripple rising wait) s = .next t ∧
        t.mains.ripple = u.mains.ripple.edge (s.ck + wait) (if s.flag Reg.MAINS_CTL Fld.MAINS_CTL_RIPPLE_DIV then 1 else 2) ∧
        t.mains.sync = u.mains.sync ∧ s.KeepsRegs t [Reg.TB_EVENT, Reg.MAINS_PERIOD, Reg.MAINS_STATUS, Reg.CONV_EVENT] ∧
        s.KeepsSram t)) ∧
    ((s.pass wait).secondNo = s.tether.mains.second → u.tether.mains = s.tether.mains) ∧
    (s.islandRuns = true →
      ∃ t, exec (.mainsEdge .sync rising wait) s = .next t ∧ t.ck = s.ck + wait ∧
        t.tether.mains.sync = (if rising = s.flag Reg.MAINS_CTL Fld.MAINS_CTL_EDGE then u.tether.mains.sync
          else u.tether.mains.sync.edge ((s.ck + wait) / s.cycleLen * s.cycleLen) 1) ∧
        s.KeepsRegs t [Reg.TB_EVENT, Reg.MAINS_PERIOD, Reg.MAINS_STATUS, Reg.CONV_EVENT] ∧
        (s.measRuns = false → t.mains.sync = u.mains.sync ∧ s.KeepsRegs t [Reg.TB_EVENT]) ∧ s.KeepsSram t)) ∧
  (∀ s : State, s.islandRuns = true → s.secondNo ≠ s.tether.mains.second → ∀ x, s.tether.mains.sync = x →
    ∃ t, exec .mainsSecondUpdate s = .next t ∧ t.tether.mains.second = s.secondNo ∧
      t.tether.mains.m = (if 30 ≤ x.bestM then x.bestM else s.tether.mains.m) ∧
      t.tether.mains.s = (if 30 ≤ x.bestM then x.bestS else s.tether.mains.s) ∧
      s.KeepsRegs t [Reg.MAINS_PERIOD, Reg.MAINS_STATUS, Reg.CONV_EVENT] ∧ (s.measRuns = false → s.KeepsRegs t []) ∧ s.KeepsSram t) ∧
  (∀ (x : Track) (now mul e : Nat), x.last = some e →
    (periodOk (mul * (now - e)) = true → (x.edge now mul).runLen = x.runLen + 1 ∧
      (x.edge now mul).runSpan = x.runSpan + mul * (now - e) ∧ x.runLen + 1 ≤ max x.bestM (x.edge now mul).bestM ∧
      x.bestM ≤ (x.edge now mul).bestM) ∧
    (periodOk (mul * (now - e)) = false → (x.edge now mul).runLen = 0 ∧ (x.edge now mul).bestM = x.bestM) ∧
    (x.edge now mul).last = some now) ∧
  (∀ s : State, s.measRuns = true →
    (s.secondNo ≠ s.mains.second ∨
      s.secondDue = false ∧ s.tbLoad = none ∧ s.tickLen = 1 ∧ s.ck < s.ckAtTick (12288000 - s.time.toNat % 12288000)) →
    ∀ (m sp : Nat) (rip : Bool), s.mainsRun = (m, sp, rip) →
    (30 ≤ m →
      ∃ t, exec .mainsSecondUpdate s = .next t ∧ t.mains.m = m ∧ t.mains.s = sp ∧ t.mains.missed = 0 ∧
        t.reg Reg.MAINS_PERIOD = BitVec.ofNat 32 (roundDiv (256 * sp) m).toNat ∧
        t.flag Reg.MAINS_STATUS Fld.MAINS_STATUS_LOCKED = true ∧ t.flag Reg.MAINS_STATUS Fld.MAINS_STATUS_NO_SIGNAL = false ∧
        t.mains.second = t.secondNo ∧
        s.KeepsRegs t [Reg.TB_EVENT, Reg.MAINS_PERIOD, Reg.MAINS_STATUS, Reg.CONV_EVENT] ∧ s.KeepsSram t) ∧
    (m < 30 →
      ∃ t, exec .mainsSecondUpdate s = .next t ∧ t.mains.m = s.mains.m ∧ t.mains.s = s.mains.s ∧
        t.reg Reg.MAINS_PERIOD = s.reg Reg.MAINS_PERIOD ∧ t.flag Reg.MAINS_STATUS Fld.MAINS_STATUS_NO_SIGNAL = true ∧
        t.flag Reg.MAINS_STATUS Fld.MAINS_STATUS_LOCKED =
          (s.flag Reg.MAINS_STATUS Fld.MAINS_STATUS_LOCKED && decide (s.mains.missed + 1 < 3)) ∧
        (s.flag Reg.MAINS_STATUS Fld.MAINS_STATUS_LOCKED = true → 2 ≤ s.mains.missed →
          t.flag Reg.CONV_EVENT Fld.CONV_EVENT_MAINS_LOST = true) ∧ t.mains.second = t.secondNo ∧
        s.KeepsRegs t [Reg.TB_EVENT, Reg.MAINS_STATUS, Reg.CONV_EVENT] ∧ s.KeepsSram t)) ∧
  (∀ s : State, s.mains.m = 49 → s.mains.s = 193449639 →
    s.mainsLen 1 = 3947952 ∧ s.mainsLen 10 = 39479518)

/-- The protection of a slice (R73, R74): a clamp stops the slice's integration with a clamp result due, counted and shown once, and the
recovery hold waits for its release, from which a fresh one lasts 39 322 CK cycles; the hold's end frees the slice. That a hold which a renewed
clamp meets waits and then counts on from what was left of it is the model's choice (log entry 33, DEDUCED). In Tether mode the protection of
S4 acts on the island's integration alone, with a hold of its own in divided cycles (R12, R74, R292), also beside MEAS in the wake that ends the
mode (R297). -/
def Obligations.InputProtection : Prop := ∀ (i : SliceId) (neg : Bool) (s : State),
  ((s.measRuns = false ∨ s.inTether = true ∧ i = 4) →
    ∃ t u, exec (.clamp i neg) s = .next t ∧ exec (.clampRelease i) s = .next u ∧ t.slices = s.slices ∧ u.slices = s.slices ∧
      (s.inTether = true → i = 4 → t.tether.clamped = some neg ∧ u.tether.clamped = none ∧ t.tether.holding = true ∧
        t.dueOf .tetherHold = none ∧ (s.tether.holding = false → t.tether.holdLeft = 39322 * s.cycleLen) ∧
        (∀ due, s.tether.holding = true → s.dueOf .tetherHold = some due → t.tether.holdLeft = due - s.ck) ∧
        (s.tether.clamped ≠ none → u.dueOf .tetherHold = some (s.ck + s.tether.holdLeft)) ∧
        t.tether.conv = s.tether.conv.map (fun c => { c with clamp := some (c.clamp.getD neg) })) ∧
      ((s.inTether = false ∨ i ≠ 4) → t.tether = s.tether ∧ u.tether = s.tether) ∧
      s.KeepsRegs t [] ∧ s.KeepsSram t ∧ s.KeepsRegs u [] ∧ s.KeepsSram u) ∧
  (∀ due, s.inTether = true → s.dueOf .tetherHold = some due →
    ∃ t, exec (.recoveryHoldEnd 4) s = .next t ∧ t.tether.holding = false ∧ t.dueOf .tetherHold = none ∧ t.ck = max s.ck due ∧
      t.slices = s.slices ∧ s.KeepsRegs t [Reg.TB_EVENT] ∧ s.KeepsSram t) ∧
  (s.inTether = true → s.dueOf .tetherHold = none →
    ∃ t, exec (.recoveryHoldEnd 4) s = .next t ∧ t.tether = s.tether ∧ t.slices = s.slices ∧ s.KeepsRegs t [] ∧ s.KeepsSram t) ∧
  (s.measRuns = true → (s.inTether = false ∨ i ≠ 4) →
  (∃ t, exec (.clamp i neg) s = .next t ∧ (t.slice i).conducting = true ∧ (t.slice i).overNeg = neg ∧ (t.slice i).holding = true ∧
    t.dueOf (.recovery i) = none ∧ ((s.slice i).holding = false → (t.slice i).holdLeft = 39322) ∧
    (∀ due, (s.slice i).holding = true → s.dueOf (.recovery i) = some due → (t.slice i).holdLeft = due - s.ck) ∧
    (t.slice i).conv = (s.slice i).conv.map (fun c => { c with clamp := some (c.clamp.getD neg) }) ∧
    (∀ c, (s.slice i).conv = some c → c.clamp = none →
      t.flag Reg.CONV_EVENT (Fld.CONV_EVENT_CLAMP.bit i) = true ∧
      t.reg (Reg.CLAMP_COUNT i) = satAdd (s.reg (Reg.CLAMP_COUNT i)) 1) ∧
    (∀ j : SliceId, j ≠ i → t.slice j = s.slice j) ∧ s.KeepsRegs t [Reg.CONV_EVENT, Reg.CLAMP_COUNT i] ∧ s.KeepsSram t) ∧
  ((s.slice i).conducting = true →
    ∃ t, exec (.clampRelease i) s = .next t ∧ (t.slice i).conducting = false ∧
      t.dueOf (.recovery i) = some (s.ck + (s.slice i).holdLeft) ∧ s.KeepsRegs t [] ∧ s.KeepsSram t) ∧
  ((s.slice i).conducting = false →
    ∃ t, exec (.clampRelease i) s = .next t ∧ t.slices = s.slices ∧ t.timers = s.timers ∧ s.KeepsRegs t [] ∧ s.KeepsSram t) ∧
  (∀ due, s.dueOf (.recovery i) = some due → (s.slice i).injDue = false →
    ∃ t, exec (.recoveryHoldEnd i) s = .next t ∧ (t.slice i).holding = false ∧ t.dueOf (.recovery i) = none ∧
      t.ck = max s.ck due ∧ s.KeepsRegs t [Reg.TB_EVENT] ∧ s.KeepsSram t) ∧
  (s.dueOf (.recovery i) = none →
    ∃ t, exec (.recoveryHoldEnd i) s = .next t ∧ t.slices = s.slices ∧ s.KeepsRegs t [] ∧ s.KeepsSram t))

/-- Faults of the excitation (R65): a CURRENT source out of compliance shows OPEN, a driving BRIDGE source at its limit shows LIMIT, and each
sets EXC_FAULT; a group in another mode shows neither. The reference buffer (R68, R69): enabling it with EXCITE on starts a settle count of
(SETTLE + 1) × 10 ms; its end gives REF_READY, or BUF_FAULT and REF_LOST; a fault while ready clears REF_READY; with the buffer enabled already the command does
nothing. -/
def Obligations.ExcitationAndReference : Prop :=
  (∀ (g : GroupId) (s : State), s.measRuns = true → s.on .excite = true →
    (vget s.excMode g 0 = 1 →
      ∃ t, exec (.excOpen g) s = .next t ∧ t.reg Reg.EXC_STATUS = (Fld.EXC_STATUS_OPEN.bit g).set (s.reg Reg.EXC_STATUS) 1 ∧
        t.reg Reg.CONV_EVENT = Fld.CONV_EVENT_EXC_FAULT.set (s.reg Reg.CONV_EVENT) 1 ∧
        s.KeepsRegs t [Reg.EXC_STATUS, Reg.CONV_EVENT] ∧ s.KeepsSram t) ∧
    (vget s.excMode g 0 ≠ 1 → ∃ t, exec (.excOpen g) s = .next t ∧ s.KeepsRegs t [] ∧ s.KeepsSram t) ∧
    (vget s.excMode g 0 = 2 → (Fld.EXC_STATUS_ON.bit g).on (s.reg Reg.EXC_STATUS) = true →
      ∃ t, exec (.excLimit g) s = .next t ∧ t.reg Reg.EXC_STATUS = (Fld.EXC_STATUS_LIMIT.bit g).set (s.reg Reg.EXC_STATUS) 1 ∧
        t.reg Reg.CONV_EVENT = Fld.CONV_EVENT_EXC_FAULT.set (s.reg Reg.CONV_EVENT) 1 ∧
        s.KeepsRegs t [Reg.EXC_STATUS, Reg.CONV_EVENT] ∧ s.KeepsSram t) ∧
    ((vget s.excMode g 0 ≠ 2 ∨ (Fld.EXC_STATUS_ON.bit g).on (s.reg Reg.EXC_STATUS) = false) →
      ∃ t, exec (.excLimit g) s = .next t ∧ s.KeepsRegs t [] ∧ s.KeepsSram t)) ∧
  (∀ s : State, s.measRuns = true →
    (s.hostOpen Reg.REF_CTL = true → s.locked = false → s.flag Reg.REF_CTL Fld.REF_CTL_BUF_EN = false →
      ∃ t, exec .bufEn s = .next t ∧ t.reg Reg.REF_CTL = Fld.REF_CTL_BUF_EN.set (s.reg Reg.REF_CTL) 1 ∧
        (s.on .excite = true → t.flag Reg.REF_STATUS Fld.REF_STATUS_SETTLING = true ∧
          t.dueOf .refSettle = some (s.ck + msCk ((s.fld Reg.REF_CTL Fld.REF_CTL_SETTLE + 1) * 10))) ∧
        s.KeepsRegs t [Reg.REF_CTL, Reg.REF_STATUS] ∧ s.KeepsSram t) ∧
    (s.hostOpen Reg.REF_CTL = true → s.flag Reg.REF_CTL Fld.REF_CTL_BUF_EN = true →
      ∃ t, exec .bufEn s = .next t ∧ t.timers = s.timers ∧ s.KeepsRegs t [] ∧ s.KeepsSram t) ∧
    (∀ due inTol, s.dueOf .refSettle = some due →
      ∃ t, exec (.refSettleEnd inTol) s = .next t ∧ t.flag Reg.REF_STATUS Fld.REF_STATUS_SETTLING = false ∧
        (inTol = true → t.refReady = true ∧ t.flag Reg.CONV_EVENT Fld.CONV_EVENT_REF_UP = true) ∧
        (inTol = false → t.refReady = s.refReady ∧ t.flag Reg.REF_STATUS Fld.REF_STATUS_BUF_FAULT = true ∧
          t.flag Reg.CONV_EVENT Fld.CONV_EVENT_REF_LOST = true) ∧
        t.dueOf .refSettle = none ∧ t.ck = max s.ck due ∧
        s.KeepsRegs t [Reg.TB_EVENT, Reg.REF_STATUS, Reg.CONV_EVENT, Reg.EXC_STATUS] ∧ s.KeepsSram t) ∧
    (s.refReady = true →
      ∃ t, exec .bufFault s = .next t ∧ t.refReady = false ∧ t.flag Reg.REF_STATUS Fld.REF_STATUS_BUF_FAULT = true ∧
        t.flag Reg.CONV_EVENT Fld.CONV_EVENT_REF_LOST = true ∧
        s.KeepsRegs t [Reg.REF_STATUS, Reg.CONV_EVENT, Reg.EXC_STATUS] ∧ s.KeepsSram t) ∧
    (s.refReady = false → ∃ t, exec .bufFault s = .next t ∧ s.KeepsRegs t [] ∧ s.KeepsSram t))

/-- No result lies outside ±0x7800_0000 but the two clamp codes, whether single, paired or averaged (R55, R67, R71, R90). -/
def Obligations.ResultRange : Prop :=
  (∀ (c : Conv) (code : Int), (convCode c code).natAbs ≤ 0x78000000 ∨ convCode c code = 0x7FFFFFFF ∨ convCode c code = -0x80000000) ∧
  (∀ (p m : Int) (f : Flags), p.natAbs ≤ 0x78000000 → m.natAbs ≤ 0x78000000 →
    (pairCode p m f).natAbs ≤ 0x78000000 ∨ pairCode p m f = 0x7FFFFFFF ∨ pairCode p m f = -0x80000000) ∧
  (∀ (sum : Int) (k : Nat) (f : Flags),
    (averaged sum k f).1.natAbs ≤ 0x78000000 ∨ (averaged sum k f).1 = 0x7FFFFFFF ∨ (averaged sum k f).1 = -0x80000000)

/-- A conversion that ends as the first half of a reversal pair is held on its slice (R67); one on a slice with nothing in progress changes
nothing; a regular one, neither paired nor averaged, is numbered, stamped with the TIME of its integration's end 24 CK after the frame's
strobe, and becomes its channel's newest result; an injected one ends once its own length has passed and is stamped with the TIME then
(R53, R71, R72, R85). Of a conversion that ends now or that a boundary has ended, single or the second half of a pair, with code `w` and clamp
`k` below: the pair's code is half the difference, or the later clamp's; without averaging it is the channel's result; with averaging it joins
the channel's sum, and the 2^K-th delivers the shifted sum within ±0x7800_0000, or the last clamp's code, and clears it (R67, R90, R91); a
second half without its partner is counted. Without CORE results go nowhere but that of the Tether channel to the keeper core (R283). -/
def Obligations.ConversionEnds : Prop := ∀ (i : SliceId) (code : Int) (s : State), s.measRuns = true →
  (∀ (c : Conv) (time : BitVec 64) (tbv : Bool), ((s.slice i).ended = some c ∧ c.endStamp.getD (s.time, s.tbValid) = (time, tbv) ∨
      (s.slice i).ended = none ∧ (s.slice i).conv = some c ∧ s.toFrameEnd.endTime = (time, tbv)) → c.inj = false →
    (∀ (w : Int) (k : Option Bool) (a : Acc), s.on .core = true →
      (c.half = 0 ∧ k = c.clamp.map (· != c.reversed) ∧ w = convCode c code ∨
        c.half = 2 ∧ ∃ p f, (s.slice i).half = some (p, f) ∧ k = (if c.clamp.isSome then c.clamp.map (· != c.reversed) else f.clamp) ∧
          w = (match k with | some neg => clampCode neg | none => floorDiv (p - linearCode code) 2)) →
      a = (s.accs.find? fun x => x.ch == c.ch).getD { ch := c.ch } →
      (∀ (z up : Int), (c.avgK = 0 ∧ z = w ∧ up = 0 ∨ c.avgK ≠ 0 ∧ 2 ^ c.avgK ≤ a.n + 1 ∧ up = (c.avgK : Int) - c.avgShift ∧
          z = (match (if k.isSome then k else a.flags.clamp) with
            | some neg => clampCode neg
            | none => clampInt (-codeMax) codeMax (floorDiv (a.sum + w) (2 ^ c.avgShift)))) →
        ∃ t y, exec (.conversionEnd i code) s = .next t ∧ t.newReg.head? = some y ∧ y.ch = c.ch ∧ y.w0 = ofInt32 z ∧ y.time = time ∧
          y.tbv = tbv ∧ y.gain = c.gain ∧ y.shiftUp = up ∧ t.seqReg = s.seqReg + 1 ∧ (c.half = 2 → (t.slice i).half = none) ∧
          (c.avgK ≠ 0 → ∀ b ∈ t.accs, b.ch ≠ c.ch) ∧
          (s.spoolOn 0 = true → vget s.spoolRst 0 false = false → s.spoolFill 0 < 2 ^ (s.spoolGeom 0).2 →
            t.reg (Reg.SPOOL_WP 0) = s.reg (Reg.SPOOL_WP 0) + 1)) ∧
      (c.avgK ≠ 0 → a.n + 1 < 2 ^ c.avgK →
        ∃ t, exec (.conversionEnd i code) s = .next t ∧ t.newReg = s.newReg ∧ t.seqReg = s.seqReg ∧
          (s.flag Reg.SEQ_CTL Fld.SEQ_CTL_MODE = true → c.closes = false →
            ∃ b ∈ t.accs, b.ch = c.ch ∧ b.sum = a.sum + w ∧ b.n = a.n + 1))) ∧
    ((c.half = 2 ∧ (s.slice i).half = none ∨ 3 ≤ c.half) →
      ∃ t, exec (.conversionEnd i code) s = .next t ∧ t.reg Reg.EXC_UNPAIRED = satAdd (s.reg Reg.EXC_UNPAIRED) 1 ∧
        t.newReg = s.newReg ∧ t.seqReg = s.seqReg)) ∧
  ((s.slice i).ended = none → (s.slice i).conv = none →
    ∃ t, exec (.conversionEnd i code) s = .next t ∧ t.slices = s.slices ∧ s.KeepsRegs t [] ∧ s.KeepsSram t) ∧
  (∀ c, (s.slice i).ended = none → (s.slice i).conv = some c → c.inj = false → c.half = 1 →
    ∃ t, exec (.conversionEnd i code) s = .next t ∧ (t.slice i).conv = none ∧
      (t.slice i).half.map (·.1) = some (linearCode code) ∧ t.ck = s.toFrameEnd.ck ∧ s.KeepsRegs t [Reg.TB_EVENT] ∧
      s.KeepsSram t) ∧
  (∀ c, (s.slice i).ended = none → (s.slice i).conv = some c → c.inj = false → c.half = 0 → c.avgK = 0 → s.on .core = true →
    ∃ t, exec (.conversionEnd i code) s = .next t ∧ (t.slice i).conv = none ∧ t.seqReg = s.seqReg + 1 ∧ t.ck = s.toFrameEnd.ck ∧
      ∃ y, t.newReg.head? = some y ∧ y.ch = c.ch ∧ y.w0 = ofInt32 (convCode c code) ∧ y.time = (s.toFrameEnd.pass 24).time ∧
        y.tbv = (s.toFrameEnd.pass 24).tbValid ∧ y.gain = c.gain) ∧
  (∀ c, ((s.slice i).ended = some c ∨ (s.slice i).ended = none ∧ (s.slice i).conv = some c) → s.on .core = false →
    ∃ t, exec (.conversionEnd i code) s = .next t ∧ t.newReg = s.newReg ∧ t.newInj = s.newInj ∧ t.seqReg = s.seqReg ∧ t.seqInj = s.seqInj ∧
      ((c.ch ≠ s.tetherCh ∨ s.keeperCore.active = false) → t.keeperCore = s.keeperCore)) ∧
  (∀ c, (s.slice i).ended = none → (s.slice i).conv = some c → c.inj = true → s.on .core = true →
    ∃ t, exec (.conversionEnd i code) s = .next t ∧ t.seqInj = s.seqInj + 1 ∧ t.ck = max s.ck c.due ∧
      (t.slice i).conv = none ∧
      ∃ y, t.newInj.head? = some y ∧ y.ch = c.ch ∧ y.w0 = ofInt32 (convCode c code) ∧ y.time = (s.passTo c.due).time ∧
        y.tbv = (s.passTo c.due).tbValid ∧ y.gain = c.gain)

/-! ### Sequences and spools -/

/-- Starts and stops of the regular sequence (R70, R80, R82), from the host or by a TRIG0 edge of the selected kind: ignored and counted while
running, refused without a reference, else accepted with the sums cleared; STOP waits for its boundary. That a start in the sequencer's reset
and in STANDBY is neither counted nor shown is the model's choice (log entries 73 and 82). At a frame boundary (`u` below: the state when the sequences' turn comes, after
injected work), a slice reserved for a pair takes the second half, and the lowest free slice the first entry in order: one that kept its place
for an even boundary, a requeued one, or the working list's next, of which entry 0 begins a pass with the list copied afresh (R77 to R79, R83). -/
def Obligations.RegularSequence : Prop := ∀ s : State,
  (∀ c, (c = .seqStart ∧ s.hostOpen Reg.SEQ_CTL = true ∨ ∃ rising, c = .trig0Edge rising ∧
      edgeTaken (s.fld Reg.SEQ_CTL Fld.SEQ_CTL_TRIG0_EDGE) rising = true ∧
      (Fld.PAD_STATUS_DOMAIN.bit 1).on (s.reg Reg.PAD_STATUS) = false) →
  (s.measRuns = true → s.on .core = true → s.seq.inReset = false → s.seqRunning = true →
    ∃ t, exec c s = .next t ∧ t.reg Reg.TRIG_OVERRUN_COUNT = satAdd (s.reg Reg.TRIG_OVERRUN_COUNT) 1 ∧
      t.flag Reg.SEQ_EVENT Fld.SEQ_EVENT_OVERRUN = true ∧ t.seq = s.seq ∧
      s.KeepsRegs t [Reg.TRIG_OVERRUN_COUNT, Reg.SEQ_EVENT] ∧ s.KeepsSram t) ∧
  (s.measRuns = true → s.on .core = true → s.seq.inReset = false → s.seqRunning = false → s.refUsable = false →
    ∃ t, exec c s = .next t ∧ t.reg Reg.SEQ_STATUS = Fld.SEQ_STATUS_REF_NOT_READY.set (s.reg Reg.SEQ_STATUS) 1 ∧
      t.seq = s.seq ∧ s.KeepsRegs t [Reg.SEQ_STATUS] ∧ s.KeepsSram t) ∧
  (s.measRuns = true → s.on .core = true → s.seq.inReset = false → s.seqRunning = false → s.refUsable = true →
    ∃ t, exec c s = .next t ∧ t.seqRunning = true ∧ t.flag Reg.SEQ_STATUS Fld.SEQ_STATUS_REF_NOT_READY = false ∧
      t.accs = [] ∧ t.seq.next = 0 ∧ t.seq.fresh = true ∧ t.seq.stopReq = false ∧
      s.KeepsRegs t [Reg.SEQ_STATUS, Reg.SEQ_EVENT, Reg.AVG_DISCARD_COUNT] ∧ s.KeepsSram t) ∧
  ((s.measRuns = false ∨ s.on .core = false ∨ s.seq.inReset = true) →
    ∃ t, exec c s = .next t ∧ t.seq = s.seq ∧ s.KeepsRegs t [] ∧ s.KeepsSram t)) ∧
  (s.hostOpen Reg.SEQ_CTL = true → s.measRuns = true → s.seqRunning = true →
    ∃ t, exec .seqStop s = .next t ∧ t.seq = { s.seq with stopReq := true } ∧ s.KeepsRegs t [] ∧ s.KeepsSram t) ∧
  (s.hostOpen Reg.SEQ_CTL = true → (s.measRuns = false ∨ s.seqRunning = false) →
    ∃ t, exec .seqStop s = .next t ∧ t.seq = s.seq ∧ s.KeepsRegs t [] ∧ s.KeepsSram t) ∧
  (∀ rising, (edgeTaken (s.fld Reg.SEQ_CTL Fld.SEQ_CTL_TRIG0_EDGE) rising = false ∨
      (Fld.PAD_STATUS_DOMAIN.bit 1).on (s.reg Reg.PAD_STATUS) = true) →
      ∃ t, exec (.trig0Edge rising) s = .next t ∧ t.seq = s.seq ∧ s.KeepsRegs t [] ∧ s.KeepsSram t) ∧
  (s.measRuns = true → s.islandFirst = false → ∀ u, u = (s.toFrameEnd.lateWrites frameAddr).framePrepare.injBoundary →
    u.on .core = true → u.seqRunning = true → u.seq.inReset = false →
    (∀ i e ch, i < 5 → (u.slice i).resv = some (e, ch) → u.groupReverses ch = true → u.holdCase i ≠ none →
      ∃ t, exec .frameBoundary s = .next t ∧ (t.slice i).resv = none ∧
        ∃ c, (t.slice i).conv = some c ∧ c.ch = ch ∧ c.entry = e ∧ c.half = 2 ∧ c.inj = false) ∧
    (∀ i rest e ch, u.freeSlices = i :: rest → (∀ j, j < 5 → (u.slice j).resv = none) → channelOk ch = true → u.muxFree i ch = true →
      u.holdCase i ≠ none → (u.groupReverses ch = true → u.frameOdd = false) →
      ((∃ l, u.seq.deferred = (e, ch) :: l ∧ (e ≠ 0 ∨ u.flag Reg.SEQ_CTL Fld.SEQ_CTL_MODE = false)) ∨ (u.seq.deferred = [] ∧ ∃ l, u.seq.requeued = (e, ch) :: l) ∨
        (u.seq.deferred = [] ∧ u.seq.requeued = [] ∧
          (u.seq.fresh = false ∧ u.seq.list[e]? = some ch ∧ u.seq.next = e ∨
            (u.seq.fresh = true ∨ u.seq.list.length ≤ u.seq.next ∧ u.flag Reg.SEQ_CTL Fld.SEQ_CTL_MODE = true) ∧ e = 0 ∧
              u.listNow.head? = some ch))) →
      ∃ t, exec .frameBoundary s = .next t ∧
        (t.slice i).resv = (if u.groupReverses ch = true then some (e, ch) else none) ∧
        (∃ c, (t.slice i).conv = some c ∧ c.ch = ch ∧ c.entry = e ∧ c.half = (if u.groupReverses ch = true then 1 else 0) ∧ c.inj = false) ∧
        (u.seq.deferred = [] → u.seq.requeued = [] → (u.seq.fresh = true ∨ u.seq.list.length ≤ u.seq.next) →
          t.seq.list = u.listNow ∧ t.seq.fresh = false ∧
          (u.flag Reg.SEQ_CTL Fld.SEQ_CTL_MODE = true → t.flag Reg.SEQ_EVENT Fld.SEQ_EVENT_PASS = true))))

/-- Starts of the injected sequence (R70, R84, R88), from the host or by a TRIG1 edge of the selected kind: ignored and counted without a
reference or while one is pending or running; under AFTER it waits for its boundary with its list copied; under ABORT it runs at once. An injected integration starts on
a slice taken for it, with the entry's channel, the polarity in force (R66) and its own length of one PLC or TINT_MS; a recovery hold delays it
unless FAST_SEQ cuts the hold short, and then its result carries DIRTY; an internal channel for which both muxes are taken waits (R62, R75,
R85, R87). The model's choice: a start that meets a missing reference and a running sequence counts as the first alone, and one in the
sequencer's reset or in STANDBY counts nowhere (log entries 73 and 82); a list with no valid channel ends at once with BAD_ENTRY and INJ_DONE (log entry 31, DEDUCED);
the wait for a mux ends with the row of the integration's start (log entries 30 and 65). Under AFTER the highest free slice takes the first entry
at the frame boundary and integrates on the edge on which the regular slices do, 24 CK after it (R78, R88); a boundary without a free slice
starts nothing (the model's choice, log entry 73). -/
def Obligations.Injected : Prop :=
  (∀ s : State,
    let list := (List.range (clampNat 1 8 (s.fld Reg.INJ_CFG Fld.INJ_CFG_LEN))).map fun i => s.fld (Reg.INJ_ENTRY i)
      Fld.INJ_ENTRY_CHANNEL
    (∀ c, (c = .injStart ∧ s.hostOpen Reg.INJ_CTL = true ∨ ∃ rising, c = .trig1Edge rising ∧
        edgeTaken (s.fld Reg.INJ_CTL Fld.INJ_CTL_TRIG1_EDGE) rising = true ∧
        (Fld.PAD_STATUS_DOMAIN.bit 1).on (s.reg Reg.PAD_STATUS) = false) → s.measRuns = true → s.on .core = true → s.seq.inReset = false →
      (s.refUsable = false →
        ∃ t, exec c s = .next t ∧ t.reg Reg.REF_TRIG_IGNORED = satAdd (s.reg Reg.REF_TRIG_IGNORED) 1 ∧
          t.flag Reg.CONV_EVENT Fld.CONV_EVENT_TRIG_IGNORED = true ∧ t.inj = s.inj ∧
          s.KeepsRegs t [Reg.REF_TRIG_IGNORED, Reg.CONV_EVENT] ∧ s.KeepsSram t) ∧
      (s.refUsable = true → s.inj.phase ≠ .idle →
        ∃ t, exec c s = .next t ∧ t.reg Reg.TRIG_OVERRUN_COUNT = satAdd (s.reg Reg.TRIG_OVERRUN_COUNT) 1 ∧
          t.flag Reg.SEQ_EVENT Fld.SEQ_EVENT_OVERRUN = true ∧ t.inj = s.inj ∧
          s.KeepsRegs t [Reg.TRIG_OVERRUN_COUNT, Reg.SEQ_EVENT] ∧ s.KeepsSram t) ∧
      (s.refUsable = true → s.inj.phase = .idle → s.flag Reg.INJ_CTL Fld.INJ_CTL_PREEMPT = false → list.any channelOk = true →
        ∃ t, exec c s = .next t ∧ t.inj.phase = .waitBoundary ∧ t.inj.list = list ∧ t.slices = s.slices ∧
          s.KeepsRegs t [] ∧ s.KeepsSram t) ∧
      (s.refUsable = true → s.inj.phase = .idle → s.flag Reg.INJ_CTL Fld.INJ_CTL_PREEMPT = true → list.any channelOk = true →
        ∃ t, exec c s = .next t ∧ t.inj.phase = .running ∧ t.inj.list = list) ∧
      (s.refUsable = true → s.inj.phase = .idle → list.any channelOk = false →
        ∃ t, exec c s = .next t ∧ t.inj.phase = .idle ∧ t.flag Reg.SEQ_EVENT Fld.SEQ_EVENT_BAD_ENTRY = true ∧
          t.flag Reg.SEQ_EVENT Fld.SEQ_EVENT_INJ_DONE = true ∧ s.KeepsRegs t [Reg.SEQ_EVENT] ∧ s.KeepsSram t)) ∧
    (∀ rising, (edgeTaken (s.fld Reg.INJ_CTL Fld.INJ_CTL_TRIG1_EDGE) rising = false ∨
        (Fld.PAD_STATUS_DOMAIN.bit 1).on (s.reg Reg.PAD_STATUS) = true ∨ s.on .core = false) →
        ∃ t, exec (.trig1Edge rising) s = .next t ∧ t.inj = s.inj ∧ s.KeepsRegs t [] ∧ s.KeepsSram t)) ∧
  (∀ (i : SliceId) (s : State), s.measRuns = true →
    ∀ e, (s.slice i).injNext = some e → (s.slice i).injRole = true → (s.slice i).conv = none → (s.slice i).inReset = false →
      (((s.slice i).conducting = true ∨ (s.slice i).holding = false) → s.muxFree i (nth s.inj.list e 0) = true →
        ∃ t, exec (.injIntegrationStart i) s = .next t ∧
          (∃ c, (t.slice i).conv = some c ∧ c.ch = nth s.inj.list e 0 ∧ c.inj = true ∧ c.due = s.ck + s.injLen ∧
            c.reversed = s.polarity c.ch) ∧
          (t.slice i).injNext = none ∧ s.KeepsRegs t [Reg.CONV_EVENT, Reg.CLAMP_COUNT i] ∧ s.KeepsSram t) ∧
      ((s.slice i).conducting = false → (s.slice i).holding = true → s.flag Reg.CONV_CTL Fld.CONV_CTL_FAST_SEQ = false →
        ∃ t, exec (.injIntegrationStart i) s = .next t ∧ (t.slice i).injDue = true ∧ (t.slice i).conv = none ∧
          s.KeepsRegs t [] ∧ s.KeepsSram t) ∧
      (((s.slice i).conducting = true ∨ (s.slice i).holding = false ∨ s.flag Reg.CONV_CTL Fld.CONV_CTL_FAST_SEQ = true) →
        s.muxFree i (nth s.inj.list e 0) = false →
        ∃ t, exec (.injIntegrationStart i) s = .next t ∧ t.slices = s.slices ∧ s.KeepsRegs t [] ∧ s.KeepsSram t) ∧
      ((s.slice i).conducting = false → (s.slice i).holding = true → s.flag Reg.CONV_CTL Fld.CONV_CTL_FAST_SEQ = true →
        s.muxFree i (nth s.inj.list e 0) = true →
        ∃ t, exec (.injIntegrationStart i) s = .next t ∧
          (∃ c, (t.slice i).conv = some c ∧ c.ch = nth s.inj.list e 0 ∧ c.dirty = true) ∧
          (t.slice i).holding = false ∧ t.dueOf (.recovery i) = none ∧ s.KeepsRegs t [] ∧ s.KeepsSram t)) ∧
  (∀ s : State, s.measRuns = true → s.islandFirst = false → ∀ u, u = (s.toFrameEnd.lateWrites frameAddr).framePrepare →
    u.inj.phase = .waitBoundary →
    (u.freeSlices = [] → ∃ t, exec .frameBoundary s = .next t ∧ t.inj = u.inj) ∧
    (∀ i rest e es, u.on .core = true → u.freeSlices.reverse = i :: rest → 0 < u.inj.want → u.inj.pool = e :: es →
      channelOk (nth u.inj.list e 0) = true → u.holdCase i ≠ none → u.muxFree i (nth u.inj.list e 0) = true →
      ∃ t, exec .frameBoundary s = .next t ∧ t.inj.phase = .running ∧ (t.slice i).injRole = true ∧
        ∃ c, (t.slice i).conv = some c ∧ c.ch = nth u.inj.list e 0 ∧ c.inj = true ∧ c.due = u.ck + 24 + u.injLen))

/-- Enabling a spool (R93): base and size are sampled and WP starts at RP; a region that is misaligned, outside the SRAM or overlapping an
enabled spool's is refused with CFG_ERR. An entry that reaches a spool (R94 to R96): with room its bytes stand in slot WP of the region, its tag
bit in the region's tag bytes, and WP has advanced by one; into a full spool it is counted as lost with OVERFLOW, dropped under STOP, written
under OVERWRITE, over the oldest entry; a spool that is disabled takes nothing; every other byte stays. Spool 2's schedule and entries (R98): at a
tick whose count is a multiple of DIV every port that is enabled and whose readback runs takes one sequence number, at another tick none; an
entry holds LOOP_RB, the port, its conditions, the sequence number and TIME. -/
def Obligations.Spools : Prop :=
  (∀ (k : SpoolId) (s : State),
    (s.hostOpen (Reg.SPOOL_CTL k) = true → s.locked = false → s.flag (Reg.SPOOL_CTL k) Fld.SPOOL_CTL_EN = false →
      (s.spoolRefuses k = false →
        ∃ t, exec (.spoolEnable k) s = .next t ∧ t.flag (Reg.SPOOL_CTL k) Fld.SPOOL_CTL_EN = true ∧
          t.reg (Reg.SPOOL_WP k) = s.reg (Reg.SPOOL_RP k) ∧ t.spoolFill k = 0 ∧
          t.spoolGeom k = (s.fld (Reg.SPOOL_BASE k) Fld.SPOOL_BASE_ADDR,
            clampNat 4 16 (s.fld (Reg.SPOOL_SIZE k) Fld.SPOOL_SIZE_LOG2)) ∧
          s.KeepsRegs t [Reg.SPOOL_CTL k, Reg.SPOOL_WP k, Reg.SPOOL_STATUS k] ∧ s.KeepsSram t) ∧
      (s.spoolRefuses k = true →
        ∃ t, exec (.spoolEnable k) s = .next t ∧ t.flag (Reg.SPOOL_CTL k) Fld.SPOOL_CTL_EN = false ∧
          t.flag (Reg.SPOOL_STATUS k) Fld.SPOOL_STATUS_CFG_ERR = true ∧ t.flag (Reg.SPOOL_EVENT k) Fld.SPOOL_EVENT_CFG_ERR = true ∧
          t.spoolSet = s.spoolSet ∧ s.KeepsRegs t [Reg.SPOOL_CTL k, Reg.SPOOL_STATUS k, Reg.SPOOL_EVENT k] ∧ s.KeepsSram t)) ∧
    (s.hostOpen (Reg.SPOOL_CTL k) = true → s.flag (Reg.SPOOL_CTL k) Fld.SPOOL_CTL_EN = true →
      ∃ t, exec (.spoolEnable k) s = .next t ∧ t.spoolSet = s.spoolSet ∧ s.KeepsRegs t [] ∧ s.KeepsSram t)) ∧
  (∀ (k : SpoolId) (bs : List Byte) (tag : Bool) (s : State),
    let p := (s.reg (Reg.SPOOL_WP k)).toNat % 2 ^ (s.spoolGeom k).2
    let slot := (s.spoolGeom k).1 + p * spoolEntryLen k
    let tags := (s.spoolGeom k).1 + 2 ^ (s.spoolGeom k).2 * spoolEntryLen k + p / 8
    (s.spoolOn k = false → s.spoolWrite k bs tag = s) ∧
    (s.spoolOn k = true → vget s.spoolRst k false = false →
      (s.spoolFill k < 2 ^ (s.spoolGeom k).2 →
        (s.spoolWrite k bs tag).reg (Reg.SPOOL_WP k) = s.reg (Reg.SPOOL_WP k) + 1 ∧
        (s.spoolWrite k bs tag).reg (Reg.SPOOL_LOST k) = s.reg (Reg.SPOOL_LOST k)) ∧
      (2 ^ (s.spoolGeom k).2 ≤ s.spoolFill k →
        (s.spoolWrite k bs tag).reg (Reg.SPOOL_LOST k) = satAdd (s.reg (Reg.SPOOL_LOST k)) 1 ∧
        (s.spoolWrite k bs tag).flag (Reg.SPOOL_EVENT k) Fld.SPOOL_EVENT_OVERFLOW = true ∧
        (s.flag (Reg.SPOOL_CTL k) Fld.SPOOL_CTL_POLICY = false →
          (s.spoolWrite k bs tag).reg (Reg.SPOOL_WP k) = s.reg (Reg.SPOOL_WP k) ∧ (s.spoolWrite k bs tag).sram = s.sram) ∧
        (s.flag (Reg.SPOOL_CTL k) Fld.SPOOL_CTL_POLICY = true →
          (s.spoolWrite k bs tag).reg (Reg.SPOOL_WP k) = s.reg (Reg.SPOOL_WP k) + 1)) ∧
      ((s.spoolFill k < 2 ^ (s.spoolGeom k).2 ∨ s.flag (Reg.SPOOL_CTL k) Fld.SPOOL_CTL_POLICY = true) → bs.length = spoolEntryLen k →
        (∀ i (h : i < bs.length), (s.spoolWrite k bs tag).sramByte (slot + i) = bs[i]) ∧
        (∀ i, i < 8 → ((s.spoolWrite k bs tag).sramByte tags).getLsbD i = if i = p % 8 then tag else (s.sramByte tags).getLsbD i))) ∧
    (∀ b, (b < slot ∨ slot + spoolEntryLen k ≤ b) → b ≠ tags → (s.spoolWrite k bs tag).sramByte b = s.sramByte b) ∧
    (∀ a, a ∉ [Reg.SPOOL_WP k, Reg.SPOOL_LOST k, Reg.SPOOL_EVENT k] → (s.spoolWrite k bs tag).reg a = s.reg a)) ∧
  (∀ (n : PortId) (s : State) (e : List Byte), s.loopEntry n = e →
    e.length = spoolEntryLen 2 ∧ leAt e 0 4 = (s.reg (Reg.LOOP_RB n)).toNat ∧ leAt e 4 2 = s.seqLoop.toNat ∧ leAt e 6 1 % 4 = 0 ∧
    (∀ p ∈ [(2, Fld.PORT_STATUS_KEEPER), (3, Fld.PORT_STATUS_FAILSAFE), (4, Fld.PORT_STATUS_MISWIRE), (5, Fld.PORT_STATUS_TONE_CLIP),
        (6, Fld.PORT_STATUS_LOOP_HEADROOM), (7, Fld.PORT_STATUS_LOOP_MISMATCH)],
      (leAt e 6 1).testBit p.1 = s.flag (Reg.PORT_STATUS n) p.2) ∧
    leAt e 7 1 = 0x80 + n ∧ leAt e 8 8 = s.time.toNat) ∧
  (∀ (s : State) (k : Nat),
    let on (n : Nat) : Bool := (Fld.SPOOL2_SRC_PORT_EN.bit n).on (s.reg Reg.SPOOL2_SRC) && s.portPowered n
    let div := clampNat 1 1000 (s.fld Reg.SPOOL2_SRC Fld.SPOOL2_SRC_DIV)
    (k % div ≠ 0 → s.spool2Log k = s) ∧
    (k % div = 0 → (s.spool2Log k).seqLoop = s.seqLoop + BitVec.ofNat 16 ((List.range 16).countP on) ∧
      s.KeepsRegs (s.spool2Log k) [Reg.SPOOL_WP 2, Reg.SPOOL_LOST 2, Reg.SPOOL_EVENT 2] ∧
      (s.spoolOn 2 = true → vget s.spoolRst 2 false = false →
        s.spoolFill 2 + (List.range 16).countP on ≤ 2 ^ (s.spoolGeom 2).2 →
        (s.spool2Log k).reg (Reg.SPOOL_WP 2) = s.reg (Reg.SPOOL_WP 2) + BitVec.ofNat 32 ((List.range 16).countP on))) ∧
    (∀ n : PortId, k % div = 0 → (∀ m, m < 16 → (on m = true ↔ m = n.val)) →
      s.spool2Log k = { s.spoolWrite 2 (s.loopEntry n) s.tbValid with seqLoop := s.seqLoop + 1 }) ∧
    (s.on .core = true → s.tickAfterPorts.seqLoop = (s.spool2Log (s.tick - 1)).seqLoop ∧
      s.tickAfterPorts.sram = (s.spool2Log (s.tick - 1)).sram))

/-! ### Calibration -/

/-- R109: when MEAS powers up, both banks of every slice hold its fuse values and the pointer selects bank A; the step reference is the fuse
values, FIRST is 1, the counts and SLICE_CAL_TIME are 0; S4 is the offline slice, its run waits for REF_READY, and S0 to S3 are active. -/
def Obligations.MeasPowersUp : Prop := ∀ s : State, s.on .meas = false →
  (∀ i : SliceId,
    ((s.domainOn .meas).slice i).bankA = vget s.fuses.sliceTrim i 0 ∧
    ((s.domainOn .meas).slice i).bankB = vget s.fuses.sliceTrim i 0 ∧
    (s.domainOn .meas).flag (Reg.SLICE_CAL_STATUS i) Fld.SLICE_CAL_STATUS_BANK = false ∧
    (s.domainOn .meas).trimInForce i = vget s.fuses.sliceTrim i 0 ∧
    ((s.domainOn .meas).slice i).stepRef = vget s.fuses.sliceTrim i 0 ∧
    (s.domainOn .meas).flag (Reg.SLICE_CAL_STATUS i) Fld.SLICE_CAL_STATUS_FIRST = true ∧
    (s.domainOn .meas).reg (Reg.SLICE_CAL_COUNT i) = 0 ∧ (s.domainOn .meas).reg (Reg.SLICE_REJECT_COUNT i) = 0 ∧
    (s.domainOn .meas).reg (Reg.SLICE_CAL_TIME_LO i) = 0 ∧ (s.domainOn .meas).reg (Reg.SLICE_CAL_TIME_HI i) = 0 ∧
    ((s.domainOn .meas).offline = i ↔ i = 4)) ∧
  (s.domainOn .meas).reel.run = some false

/-- Runs of the Reel (R100 to R103, R105): one that waits starts once the reference is ready and lasts its cycles; its end either stages the
new trims or records, counts and logs the rejection; the automatic step takes an active slice that it need not skip, and skips none before
it that it could take. At a frame boundary it is taken, or that of a manual request, where all its conditions hold: the offline slice rejoins with
its staged trims swapped in, counted, stamped and made the step reference, or with its old ones, and the candidate leaves service with its
conversion ended (R104 to R107); where one does not hold, everything stays as it is. -/
def Obligations.CalibrationRuns : Prop :=
  (∀ s : State, s.offline < 5 →
    (s.measRuns = true → s.reel.run = some false → s.refReady = true →
      ∃ t, exec .calRunStart s = .next t ∧ t.reel.run = some true ∧ t.dueOf .calRun = some (s.ck + msCk s.runMs) ∧
        s.KeepsRegs t [] ∧ s.KeepsSram t) ∧
    ((s.measRuns = false ∨ s.reel.run ≠ some false ∨ s.refReady = false) →
      ∃ t, exec .calRunStart s = .next t ∧ t.reel = s.reel ∧ t.timers = s.timers ∧ s.KeepsRegs t [] ∧ s.KeepsSram t) ∧
    (∀ p due, s.dueOf .calRun = some due → s.reel.run = some true →
      (s.runTest s.offline p (offsetNew (Fld.SLICE_TRIM_OFFSET.sget (s.trimInForce s.offline)) p)
          (gainNew (Fld.SLICE_TRIM_GAIN.sget (s.trimInForce s.offline)) p) = none → (s.slice s.offline).trimReq = none →
        ∃ t, exec (.calRunEnd p) s = .next t ∧ t.flag Reg.REEL_STATUS Fld.REEL_STATUS_RUN_DONE = true ∧ t.reel.run = none ∧
          t.trimStaged s.offline = true ∧
          t.reg (Reg.SLICE_TRIM_STAGED s.offline) = trimWord (offsetNew (Fld.SLICE_TRIM_OFFSET.sget (s.trimInForce s.offline)) p)
            (gainNew (Fld.SLICE_TRIM_GAIN.sget (s.trimInForce s.offline)) p) ∧
          t.trimInForce s.offline = s.trimInForce s.offline ∧
          s.KeepsRegs t [Reg.TB_EVENT, Reg.REEL_STATUS, Reg.SLICE_CAL_STATUS s.offline, Reg.SLICE_TRIM_STAGED s.offline] ∧
          s.KeepsSram t) ∧
      (∀ r, s.runTest s.offline p (offsetNew (Fld.SLICE_TRIM_OFFSET.sget (s.trimInForce s.offline)) p)
          (gainNew (Fld.SLICE_TRIM_GAIN.sget (s.trimInForce s.offline)) p) = some r →
        ∃ t, exec (.calRunEnd p) s = .next t ∧ t.flag Reg.REEL_STATUS Fld.REEL_STATUS_RUN_DONE = true ∧ t.reel.run = none ∧
          t.fld (Reg.SLICE_CAL_STATUS s.offline) Fld.SLICE_CAL_STATUS_REASON = r ∧
          t.reg (Reg.SLICE_REJECT_COUNT s.offline) = satAdd (s.reg (Reg.SLICE_REJECT_COUNT s.offline)) 1 ∧
          t.flag Reg.CAL_EVENT (Fld.CAL_EVENT_SLICE_REJECT.bit s.offline) = true ∧
          s.KeepsRegs t ([Reg.TB_EVENT, Reg.REEL_STATUS, Reg.SLICE_CAL_STATUS s.offline, Reg.SLICE_REJECT_COUNT s.offline,
            Reg.CAL_EVENT] ++ logTouches) ∧ s.KeepsSram t ∧
          s.Logs t .warning 0x0030 0x10 s.offline (BitVec.ofNat 32 r)
            (ofInt32 (offsetNew (Fld.SLICE_TRIM_OFFSET.sget (s.trimInForce s.offline)) p))
            (ofInt32 (gainNew (Fld.SLICE_TRIM_GAIN.sget (s.trimInForce s.offline)) p))))) ∧
  (∀ (s : State) (c k : Nat), s.offline < 5 → s.candidate = some (c, k) →
    c < 5 ∧ c ≠ s.offline ∧ s.reelSkips c = false ∧ c = (s.offline + 1 + k) % 5 ∧
      ∀ j, j < k → s.reelSkips ((s.offline + 1 + j) % 5) = true) ∧
  (∀ (s : State) (o : Nat), s.measRuns = true → s.islandFirst = false → s.late = [] → s.offline = o → o < 5 → s.seq.inReset = false →
    s.reel.restart = false → s.cal.restoreFrame = false →
    (∀ i, i < 5 → (s.slice i).inReset = false ∧ (s.slice i).trimReq = none ∧ (s.slice i).restore = none) →
    let done := s.flag Reg.REEL_STATUS Fld.REEL_STATUS_RUN_DONE
    let due := s.flag Reg.REEL_CTL Fld.REEL_CTL_EN = true ∧ done = true ∧ s.reel.offlineSince / 16 + s.reelPeriod * 12288000 ≤ s.toFrameEnd.ck / 16
    (∀ c k, (s.reel.requests = [] ∧ due ∧ s.candidate = some (c, k) ∧ (s.slice c).resv = none ∨
        s.reel.requests = [c] ∧ c < 5 ∧ c ≠ o ∧ s.requestWaits c = false ∧ k = 0) →
      ∃ t, exec .frameBoundary s = .next t ∧ t.offline = c ∧ t.reel.run = some false ∧
        t.flag Reg.REEL_STATUS Fld.REEL_STATUS_RUN_DONE = false ∧ c ∉ t.reel.requests ∧ t.reel.offlineSince = s.toFrameEnd.ck ∧
        t.fld Reg.REEL_STATUS Fld.REEL_STATUS_NEXT = (c + 1) % 5 ∧
        t.reg Reg.REEL_SKIP_COUNT = satAdd (s.reg Reg.REEL_SKIP_COUNT) k ∧ t.trimStaged o = false ∧
        (s.trimStaged o = true → done = true →
          t.trimInForce o = (if s.flag (Reg.SLICE_CAL_STATUS o) Fld.SLICE_CAL_STATUS_BANK then (s.slice o).bankA else (s.slice o).bankB) ∧
          (t.slice o).stepRef = t.trimInForce o ∧ t.flag (Reg.SLICE_CAL_STATUS o) Fld.SLICE_CAL_STATUS_FIRST = false ∧
          t.reg (Reg.SLICE_CAL_COUNT o) = satAdd (s.reg (Reg.SLICE_CAL_COUNT o)) 1 ∧
          pair64 (t.reg (Reg.SLICE_CAL_TIME_HI o)) (t.reg (Reg.SLICE_CAL_TIME_LO o)) = s.toFrameEnd.time ∧
          t.flag (Reg.SLICE_CAL_STATUS o) Fld.SLICE_CAL_STATUS_TB_VALID = s.toFrameEnd.tbValid) ∧
        ((s.trimStaged o = false ∨ done = false) →
          t.trimInForce o = s.trimInForce o ∧ t.reg (Reg.SLICE_CAL_COUNT o) = s.reg (Reg.SLICE_CAL_COUNT o)) ∧
        (∀ x, (s.slice c).conv = some x → x.inj = false →
          (t.slice c).conv = none ∧ (t.slice c).ended.map (·.ch) = some x.ch)) ∧
    (s.reel.requests = [] → (¬ due ∨ s.candidate = none ∨ ∃ c k, s.candidate = some (c, k) ∧ (s.slice c).resv ≠ none) →
      ∃ t, exec .frameBoundary s = .next t ∧ t.offline = o ∧ t.reel = s.reel ∧ t.trimStaged o = s.trimStaged o ∧
        t.trimInForce o = s.trimInForce o ∧ t.reg Reg.REEL_SKIP_COUNT = s.reg Reg.REEL_SKIP_COUNT ∧
        t.flag Reg.REEL_STATUS Fld.REEL_STATUS_RUN_DONE = done))

/-- Manual requests and software trims (R106, R107, R111): a request is kept once; a written trim waits in the inactive bank with staged values
discarded, and the trim in force stays. -/
def Obligations.SliceTrimCommands : Prop := ∀ (i : SliceId) (v : Word) (s : State),
  (s.hostOpen Reg.REEL_CTL = true → s.measRuns = true →
    ∃ t, exec (.calStart i) s = .next t ∧
      t.reel.requests = (if i.val ∈ s.reel.requests then s.reel.requests else s.reel.requests ++ [i.val]) ∧
      (s.reel.requests.Nodup → t.reel.requests.Nodup) ∧ s.KeepsRegs t [] ∧ s.KeepsSram t) ∧
  (s.hostOpen Reg.REEL_CTL = true → s.measRuns = false →
    ∃ t, exec (.calStart i) s = .next t ∧ t.reel = s.reel ∧ s.KeepsRegs t [] ∧ s.KeepsSram t) ∧
  (s.hostOpen (Reg.SLICE_TRIM i) = true → s.measRuns = true →
    ∃ t, exec (.sliceTrimWrite i v) s = .next t ∧
      (t.slice i).trimReq = some (v &&& (Fld.SLICE_TRIM_OFFSET.mask ||| Fld.SLICE_TRIM_GAIN.mask)) ∧
      t.trimInForce i = s.trimInForce i ∧ t.trimStaged i = false ∧ t.reg (Reg.SLICE_TRIM_STAGED i) = 0 ∧
      s.KeepsRegs t [Reg.SLICE_CAL_STATUS i, Reg.SLICE_TRIM_STAGED i] ∧ s.KeepsSram t) ∧
  (s.hostOpen (Reg.SLICE_TRIM i) = true → s.measRuns = false →
    ∃ t, exec (.sliceTrimWrite i v) s = .next t ∧ t.slices = s.slices ∧ s.KeepsRegs t [] ∧ s.KeepsSram t)

/-- Output trims (R114 to R118): START is kept for its tick and discards a staged trim, and is ignored while RUNNING; APPLY needs a staged
trim; a written trim is clamped to its limits, and ignored while RUNNING. The samples of ticks 51 to 150 and 201 to 300 count, from the
first tick of the run, its tick 0, on. The steps of a run: 20 mA from 150 ms on, back under the slew limit from 300 ms on, and at 301 ms the
result, in force, staged under COMMIT, or rejected with its reason and count; a port that a MISWIRE has opened since the last tick drives neither
point. -/
def Obligations.OutputTrims : Prop :=
  (∀ (n : PortId) (v : Word) (s : State), s.hostOpen (Reg.LOOP_TRIM_CTL n) = true → s.hostOpen (Reg.LOOP_TRIM n) = true →
    (s.portRuns n = true → s.trimRunning n = false →
      (∃ t, exec (.loopTrimStart n) s = .next t ∧ (t.port n).trimReq = true ∧ (t.port n).applyReq = false ∧
        t.reg (Reg.LOOP_TRIM_STAGED n) = 0 ∧ t.flag (Reg.LOOP_TRIM_STATUS n) Fld.LOOP_TRIM_STATUS_STAGED = false ∧
        s.KeepsRegs t [Reg.LOOP_TRIM_STATUS n, Reg.LOOP_TRIM_STAGED n] ∧ s.KeepsSram t) ∧
      (∃ t, exec (.loopTrimWrite n v) s = .next t ∧
        t.reg (Reg.LOOP_TRIM n) = loopTrimWord (clampInt (-8000) 8000 (Fld.LOOP_TRIM_OFFSET.sget v))
          (clampInt (-2000) 2000 (Fld.LOOP_TRIM_GAIN.sget v)) ∧ s.KeepsRegs t [Reg.LOOP_TRIM n] ∧ s.KeepsSram t)) ∧
    ((s.portRuns n = false ∨ s.trimRunning n = true) → ∀ c ∈ [Instr.loopTrimStart n, .loopTrimWrite n v],
      ∃ t, exec c s = .next t ∧ t.ports = s.ports ∧ s.KeepsRegs t [] ∧ s.KeepsSram t) ∧
    (s.portRuns n = true → s.flag (Reg.LOOP_TRIM_STATUS n) Fld.LOOP_TRIM_STATUS_STAGED = true →
      ∃ t, exec (.loopTrimApply n) s = .next t ∧ (t.port n).applyReq = true ∧ s.KeepsRegs t [] ∧ s.KeepsSram t) ∧
    ((s.portRuns n = false ∨ s.flag (Reg.LOOP_TRIM_STATUS n) Fld.LOOP_TRIM_STATUS_STAGED = false) →
      ∃ t, exec (.loopTrimApply n) s = .next t ∧ t.ports = s.ports ∧ s.KeepsRegs t [] ∧ s.KeepsSram t)) ∧
  (∀ (n : PortId) (s : State) (r : TrimRun) (rb : Int), (s.port n).trimRun = some r →
    (r.begun = false → ∃ q, ((s.trimSample n rb).port n).trimRun = some q ∧ q.begun = true ∧ q.tick = 0 ∧ q.lo = r.lo ∧ q.hi = r.hi) ∧
    (r.begun = true → ∃ q, ((s.trimSample n rb).port n).trimRun = some q ∧ q.tick = r.tick + 1 ∧
      q.lo = (if 51 ≤ q.tick ∧ q.tick ≤ 150 then r.lo ++ [rb] else r.lo) ∧
      q.hi = (if 201 ≤ q.tick ∧ q.tick ≤ 300 then r.hi ++ [rb] else r.hi) ∧
      q.upset = (r.upset || s.flag (Reg.PORT_STATUS n) Fld.PORT_STATUS_LOOP_HEADROOM)) ∧
    ((s.port n).cutDue = true → ∀ c ∈ [Instr.loopTrimHighPoint n, .loopTrimReturn n],
      ∃ t, exec c s = .next t ∧ t.ports = s.ports ∧ s.KeepsRegs t [] ∧ s.KeepsSram t) ∧
    (150 ≤ r.tick → r.high = false → (s.port n).cutDue = false →
      ∃ t, exec (.loopTrimHighPoint n) s = .next t ∧ t.target n = 40000 ∧ s.KeepsRegs t [Reg.LOOP_TARGET n] ∧ s.KeepsSram t) ∧
    (300 ≤ r.tick → r.back = false → (s.port n).cutDue = false →
      ∃ t, exec (.loopTrimReturn n) s = .next t ∧
        t.target n = slewTo (s.target n) (s.loopSetValue n) (s.fld (Reg.LOOP_SLEW n) Fld.LOOP_SLEW_STEP) ∧
        s.KeepsRegs t [Reg.LOOP_TARGET n] ∧ s.KeepsSram t) ∧
    (301 ≤ r.tick →
      ∃ t, exec (.loopTrimResult n) s = .next t ∧ (t.port n).trimRun = none ∧ t.trimRunning n = false ∧
        t.reg (Reg.LOOP_TRIM_POINTS_LO n) = ofInt32 (sumInt r.lo) ∧ t.reg (Reg.LOOP_TRIM_POINTS_HI n) = ofInt32 (sumInt r.hi) ∧
        t.flag Reg.LOOP_TRIM_EVENT (Fld.LOOP_TRIM_EVENT_DONE.bit n) = true ∧
        (∀ c, trimTest r (trimOffset (Fld.LOOP_TRIM_OFFSET.sget (s.port n).trim) (sumInt r.lo) (sumInt r.hi))
            (trimGain (Fld.LOOP_TRIM_GAIN.sget (s.port n).trim) (sumInt r.lo) (sumInt r.hi)) = some c →
          t.fld (Reg.LOOP_TRIM_STATUS n) Fld.LOOP_TRIM_STATUS_REASON = c % 2 ^ Fld.LOOP_TRIM_STATUS_REASON.len ∧
          t.reg (Reg.LOOP_REJECT_COUNT n) = satAdd (s.reg (Reg.LOOP_REJECT_COUNT n)) 1 ∧
          t.reg (Reg.LOOP_TRIM n) = s.reg (Reg.LOOP_TRIM n) ∧ s.Logs t .warning 0x0031 0x20 n (BitVec.ofNat 32 c) 0 0) ∧
        (∀ w, loopTrimWord (trimOffset (Fld.LOOP_TRIM_OFFSET.sget (s.port n).trim) (sumInt r.lo) (sumInt r.hi))
            (trimGain (Fld.LOOP_TRIM_GAIN.sget (s.port n).trim) (sumInt r.lo) (sumInt r.hi)) = w →
          trimTest r (trimOffset (Fld.LOOP_TRIM_OFFSET.sget (s.port n).trim) (sumInt r.lo) (sumInt r.hi))
            (trimGain (Fld.LOOP_TRIM_GAIN.sget (s.port n).trim) (sumInt r.lo) (sumInt r.hi)) = none →
          (s.flag (Reg.LOOP_TRIM_CTL n) Fld.LOOP_TRIM_CTL_COMMIT = true →
            t.reg (Reg.LOOP_TRIM_STAGED n) = w ∧ t.reg (Reg.LOOP_TRIM n) = s.reg (Reg.LOOP_TRIM n)) ∧
          (s.flag (Reg.LOOP_TRIM_CTL n) Fld.LOOP_TRIM_CTL_COMMIT = false →
            t.reg (Reg.LOOP_TRIM n) = w ∧ (t.port n).trim = w ∧
            t.reg (Reg.LOOP_CAL_COUNT n) = satAdd (s.reg (Reg.LOOP_CAL_COUNT n)) 1)) ∧ s.KeepsSram t))

/-- The band-gap check of a loop die (R119): the difference, held to the field, and VALID; DISAGREE follows the limit, and its rise is an event and
a log entry. -/
def Obligations.BandGapCheck : Prop := ∀ (d : LdId) (diff : Int) (s : State),
  (∀ due, s.dueOf (.bgCheck d) = some due →
    ∃ t, exec (.bgCheckEnd d diff) s = .next t ∧ t.flag (Reg.BG_CHECK d) Fld.BG_CHECK_VALID = true ∧
      Fld.BG_CHECK_DIFF.sget (t.reg (Reg.BG_CHECK d)) = clampInt (-32767) 32767 diff ∧
      t.flag (Reg.BG_CHECK d) Fld.BG_CHECK_DISAGREE =
        decide (s.fld Reg.CAL_BG_LIM Fld.CAL_BG_LIM_LIMIT < (clampInt (-32767) 32767 diff).natAbs) ∧
      (s.flag (Reg.BG_CHECK d) Fld.BG_CHECK_DISAGREE = false → t.flag (Reg.BG_CHECK d) Fld.BG_CHECK_DISAGREE = true →
        t.flag Reg.CAL_EVENT (Fld.CAL_EVENT_REF_DISAGREE.bit d) = true ∧
        s.Logs t .error 0x0032 0x22 d (ofInt32 (clampInt (-32767) 32767 diff)) 0 0) ∧
      s.KeepsRegs t ([Reg.TB_EVENT, Reg.BG_CHECK d, Reg.CAL_EVENT] ++ logTouches) ∧ s.KeepsSram t) ∧
  (s.dueOf (.bgCheck d) = none → ∃ t, exec (.bgCheckEnd d diff) s = .next t ∧ s.KeepsRegs t [] ∧ s.KeepsSram t)

/-- The calibration block (R120 to R122): EXPORT sets BUSY, or completes at once with BUSY; the first loop tick, once it has acted, captures the values,
and a frame boundary on the same edge is in it too; the capture given to the host counts CAL_GEN on, and the block laid into the staging area has
the result as its GENERATION; RESTORE refuses a block that fails a check, with its reason, or sets BUSY. -/
def Obligations.CalibrationBlock : Prop := ∀ s : State,
  (s.on .core = true → s.calBusy = false → s.anyTrim = false →
    ∃ t, exec .calExport s = .next t ∧ t.calBusy = true ∧ t.cal.exportReq = true ∧ s.KeepsRegs t [Reg.CAL_BLOCK_STATUS] ∧
      s.KeepsSram t) ∧
  (s.on .core = true → (s.calBusy = true ∨ s.anyTrim = true) →
    ∃ t, exec .calExport s = .next t ∧ t.fld Reg.CAL_BLOCK_STATUS Fld.CAL_BLOCK_STATUS_RESULT = 0x25 ∧
      t.flag Reg.CAL_EVENT Fld.CAL_EVENT_EXPORT_DONE = true ∧ t.cal = s.cal ∧
      s.KeepsRegs t [Reg.CAL_BLOCK_STATUS, Reg.CAL_EVENT] ∧ s.KeepsSram t) ∧
  (s.cal.exportReq = true → s.calCapture.cal.exportReq = false ∧
    s.calCapture.cal.image = some (s.ck, s.calBody) ∧ s.Keeps s.calCapture []) ∧
  (s.cal.exportReq = false → s.calCapture = s) ∧
  (∀ at_ old, s.cal.image = some (at_, old) →
    (at_ = s.ck → s.calRecapture.cal.image = some (s.ck, s.calBody) ∧ s.Keeps s.calRecapture []) ∧
    (at_ ≠ s.ck → s.calRecapture = s)) ∧
  (∀ at_ body, s.cal.image = some (at_, body) →
    ∃ t, exec .calExportCapture s = .next t ∧ t.reg Reg.CAL_GEN = s.reg Reg.CAL_GEN + 1 ∧ t.cal.image = none ∧
      t.calBusy = false ∧ t.flag Reg.CAL_EVENT Fld.CAL_EVENT_EXPORT_DONE = true ∧
      (∀ w, w < 135 → t.reg (Reg.CAL_STAGE w) = wordOfBytes (sliceBytes (calBlock body (s.reg Reg.CAL_GEN + 1)) (4 * w) 4)) ∧
      (∀ a, a ∉ [Reg.IRQ_STATUS, Reg.CAL_GEN, Reg.CAL_BLOCK_STATUS, Reg.CAL_EVENT] → (∀ w, w < 135 → a ≠ Reg.CAL_STAGE w) →
        t.reg a = s.reg a) ∧ s.KeepsSram t) ∧
  (s.cal.image = none → ∃ t, exec .calExportCapture s = .next t ∧ t.cal = s.cal ∧ s.KeepsRegs t [] ∧ s.KeepsSram t) ∧
  (s.on .core = true → ∀ r, s.calRefusal s.calStage = some r →
    ∃ t, exec .calRestore s = .next t ∧ t.fld Reg.CAL_BLOCK_STATUS Fld.CAL_BLOCK_STATUS_RESULT = r ∧
      t.flag Reg.CAL_EVENT Fld.CAL_EVENT_RESTORE_REFUSED = true ∧ t.slices = s.slices ∧ t.cal = s.cal ∧
      s.KeepsRegs t (Reg.CAL_BLOCK_STATUS :: Reg.CAL_EVENT :: logTouches) ∧ s.KeepsSram t) ∧
  (s.on .core = true → s.calRefusal s.calStage = none →
    ∃ t, exec .calRestore s = .next t ∧ t.calBusy = true ∧ t.cal.gen = word32At s.calStage 8 ∧
      s.KeepsRegs t [Reg.CAL_BLOCK_STATUS] ∧ s.KeepsSram t)

/-! ### Process ports -/

/-- Writes that configure a port (R124, R125, R127, R143, R144): a role it may take, with ROLE_ERR for another; a set-point, clamped to 48000 with
SET_RANGE, which is a release write; FS_FORCE. P0 is no longer ready for Tether mode once its role is another (R148); a role written while
MISWIRE has a port open for good, RETRY being 0, ends that: OFF clears MISWIRE, another role starts a probe (R140; the model's reading, log
entry 66, as is what a write of the role in force does, log entry 44). A port whose die cannot be reached takes none of them; that one whose
die has lost CK takes none either is the model's choice (log entry 64). The guard lock refuses a change of ROLE. -/
def Obligations.PortWrites : Prop := ∀ (n : PortId) (s : State),
  (s.portWritable n = true →
    (∀ r : BitVec 4, (s.locked = false ∨ s.fld (Reg.PORT_CTL n) Fld.PORT_CTL_ROLE = r.toNat) →
      ((4 < r.toNat ∨ (r.toNat = 4 ∧ n ≠ 0)) →
        ∃ t, exec (.roleWrite n r) s = .next t ∧ t.reg (Reg.PORT_EVENT n) = Fld.PORT_EVENT_ROLE_ERR.set (s.reg (Reg.PORT_EVENT n)) 1 ∧
          t.ports = s.ports ∧ s.KeepsRegs t [Reg.PORT_EVENT n] ∧ s.KeepsSram t) ∧
      ((r.toNat < 4 ∨ (r.toNat = 4 ∧ n = 0)) →
        ∃ t, exec (.roleWrite n r) s = .next t ∧ t.fld (Reg.PORT_CTL n) Fld.PORT_CTL_ROLE = r.toNat ∧
          (t.port n).trimRun = none ∧
          (s.fld (Reg.PORT_CTL n) Fld.PORT_CTL_ROLE ≠ r.toNat → (t.port n).roleStep ≠ 0) ∧
          (n = 0 → r.toNat ≠ 4 → t.flag (Reg.PORT_STATUS n) Fld.PORT_STATUS_TETHER_READY = false) ∧
          (r = 0 → t.flag (Reg.PORT_STATUS n) Fld.PORT_STATUS_MISWIRE = false ∧ (t.port n).probing = false) ∧
          (r ≠ 0 → s.switchesOpen n = true → s.fld (Reg.PORT_PROT n) Fld.PORT_PROT_MISWIRE_RETRY = 0 → (t.port n).probing = true) ∧
          t.reg (Reg.LOOP_TARGET n) = s.reg (Reg.LOOP_TARGET n))) ∧
    (∀ v : Word, ∃ t, exec (.loopSetWrite n v) s = .next t ∧
      t.fld (Reg.LOOP_SET n) Fld.LOOP_SET_VALUE = min 48000 (Fld.LOOP_SET_VALUE.get v) ∧ (t.port n).released = true ∧
      (48000 < Fld.LOOP_SET_VALUE.get v → t.flag (Reg.PORT_EVENT n) Fld.PORT_EVENT_SET_RANGE = true) ∧
      (Fld.LOOP_SET_VALUE.get v ≤ 48000 → t.reg (Reg.PORT_EVENT n) = s.reg (Reg.PORT_EVENT n)) ∧
      s.KeepsRegs t [Reg.LOOP_SET n, Reg.PORT_EVENT n] ∧ s.KeepsSram t) ∧
    (∀ b : Bool, ∃ t, exec (.fsForce n b) s = .next t ∧
      t.reg (Reg.PORT_CTL n) = Fld.PORT_CTL_FS_FORCE.set (s.reg (Reg.PORT_CTL n)) (b2n b) ∧ s.KeepsRegs t [Reg.PORT_CTL n] ∧
      s.KeepsSram t)) ∧
  (∀ r : BitVec 4, s.locked = true → s.fld (Reg.PORT_CTL n) Fld.PORT_CTL_ROLE ≠ r.toNat →
    ∃ t, exec (.roleWrite n r) s = .next t ∧ t.ports = s.ports ∧ s.KeepsRegs t [] ∧ s.KeepsSram t) ∧
  (s.portWritable n = false → ∀ (r : BitVec 4) (v : Word) (b : Bool), ∀ c ∈ [Instr.roleWrite n r, .loopSetWrite n v, .fsForce n b],
    ∃ t, exec c s = .next t ∧ t.ports = s.ports ∧ s.KeepsRegs t [] ∧ s.KeepsSram t)

/-- Mis-wiring (R139, R140): a port in a role, with CK or without, opens both switches, counts the event, drops its target to 0, is not ready
for Tether mode (R148) and upsets a trim run (R116); what it was sending or trimming ends at the next tick; MISWIRE_CLR, or the retry RETRY ×
100 ms after the opening, begins a 2 ms probe; a probe without recurrence clears MISWIRE and leaves the target at 8000, or at the fail-safe
level while a cause of it stands (R143), one with it opens the switches again. -/
def Obligations.Miswiring : Prop := ∀ (n : PortId) (s : State),
  (s.portPowered n = true → s.roleActive n ≠ 0 → s.switchesOpen n = false →
    ∃ t, exec (.miswire n) s = .next t ∧ t.switchesOpen n = true ∧ t.flag (Reg.PORT_STATUS n) Fld.PORT_STATUS_DRIVING = false ∧
      t.target n = 0 ∧ t.flag (Reg.PORT_EVENT n) Fld.PORT_EVENT_MISWIRE = true ∧ (t.port n).cutDue = true ∧
      t.flag (Reg.PORT_STATUS n) Fld.PORT_STATUS_TETHER_READY = false ∧
      (∀ r, (s.port n).trimRun = some r → ∃ q, (t.port n).trimRun = some q ∧ (r.tick < 301 → q.upset = true)) ∧
      t.reg (Reg.MISWIRE_COUNT n) = satAdd (s.reg (Reg.MISWIRE_COUNT n)) 1 ∧
      (t.port n).openAt = some s.ck ∧ t.dueOf (.miswireProbe n) = none ∧
      (s.on .core = true → s.KeepsRegs t ([Reg.PORT_STATUS n, Reg.LOOP_TARGET n, Reg.MISWIRE_COUNT n, Reg.PORT_EVENT n, Reg.BD_STATUS] ++
        logTouches)) ∧ (n ≠ 0 → t.reg Reg.BD_STATUS = s.reg Reg.BD_STATUS ∨ s.on .core = false) ∧ s.KeepsSram t) ∧
  ((s.portPowered n = false ∨ s.roleActive n = 0 ∨ s.switchesOpen n = true) →
    ∃ t, exec (.miswire n) s = .next t ∧ t.ports = s.ports ∧ s.KeepsRegs t [] ∧ s.KeepsSram t) ∧
  (s.hostOpen (Reg.PORT_CTL n) = true → s.portWritable n = true → s.switchesOpen n = true →
    ∃ t, exec (.miswireClr n) s = .next t ∧ (t.port n).probing = true ∧ t.switchesOpen n = false ∧ t.dueOf (.miswireProbe n) = some (s.ck + msCk 2) ∧
      s.KeepsRegs t [Reg.PORT_STATUS n] ∧ s.KeepsSram t) ∧
  (s.hostOpen (Reg.PORT_CTL n) = true → (s.portWritable n = false ∨ s.switchesOpen n = false) →
    ∃ t, exec (.miswireClr n) s = .next t ∧ t.ports = s.ports ∧ s.KeepsRegs t [] ∧ s.KeepsSram t) ∧
  (∀ opened retry, (s.port n).openAt = some opened → s.fld (Reg.PORT_PROT n) Fld.PORT_PROT_MISWIRE_RETRY = retry →
    (s.switchesOpen n = true → retry ≠ 0 →
      ∃ t, exec (.miswireProbe n) s = .next t ∧ (t.port n).probing = true ∧
        t.dueOf (.miswireProbe n) = some (max s.ck (opened + msCk (100 * retry)) + msCk 2) ∧
        s.KeepsRegs t [Reg.TB_EVENT, Reg.PORT_STATUS n] ∧ s.KeepsSram t) ∧
    ((s.switchesOpen n = false ∨ retry = 0) → ∃ t, exec (.miswireProbe n) s = .next t ∧ t.ports = s.ports ∧ s.KeepsRegs t [] ∧
      s.KeepsSram t)) ∧
  (∀ due, s.dueOf (.miswireProbe n) = some due →
    ∃ t, exec (.miswireProbeEnd n false) s = .next t ∧ t.flag (Reg.PORT_STATUS n) Fld.PORT_STATUS_MISWIRE = false ∧
      (t.port n).probing = false ∧ (t.port n).openAt = none ∧
      (isOut (s.roleActive n) = true → s.fsCause n = true → t.target n = t.driveCap n (s.fsLevel n)) ∧
      (s.fsCause n = false → (isOut (s.roleActive n) = true → t.target n = 8000) ∧
        s.KeepsRegs t [Reg.TB_EVENT, Reg.PORT_STATUS n, Reg.LOOP_TARGET n, Reg.BD_STATUS] ∧
        (n ≠ 0 → t.reg Reg.BD_STATUS = s.reg Reg.BD_STATUS)) ∧ s.KeepsSram t) ∧
  (∀ due, s.dueOf (.miswireProbe n) = some due → s.portPowered n = true → s.roleActive n ≠ 0 → s.switchesOpen n = false →
    ∃ t, exec (.miswireProbeEnd n true) s = .next t ∧ t.switchesOpen n = true ∧ (t.port n).probing = false ∧
      t.reg (Reg.MISWIRE_COUNT n) = satAdd (s.reg (Reg.MISWIRE_COUNT n)) 1 ∧
      t.flag (Reg.PORT_EVENT n) Fld.PORT_EVENT_MISWIRE = true ∧ s.KeepsSram t) ∧
  (s.dueOf (.miswireProbe n) = none → ∀ b, ∃ t, exec (.miswireProbeEnd n b) s = .next t ∧ t.ports = s.ports ∧ s.KeepsRegs t [] ∧ s.KeepsSram t)

/-- Protection of a port's stage (R141, R142): a short on an IN port whose supply switch is closed shows SHORT and is probed 1 s on; a probe that still limits tries again
after 1 s, one that does not clears SHORT; heat shows and clears THERMAL. That the first probe ends 1020 ms after the opening and a further one
1000 ms after the last is the model's reading (log entry 42, DEDUCED). -/
def Obligations.PortProtection : Prop := ∀ (n : PortId) (s : State),
  (s.portRuns n = true → s.roleActive n = 3 → s.flag (Reg.PORT_CTL n) Fld.PORT_CTL_SUPPLY_EN = true → s.switchesOpen n = false →
      s.flag (Reg.PORT_STATUS n) Fld.PORT_STATUS_SHORT = false → (s.port n).ckLat = false →
    ∃ t, exec (.portShort n) s = .next t ∧ t.flag (Reg.PORT_STATUS n) Fld.PORT_STATUS_SHORT = true ∧
      t.flag (Reg.PORT_EVENT n) Fld.PORT_EVENT_SHORT = true ∧ t.flag (Reg.MODEM_STATUS n) Fld.MODEM_STATUS_SUSPENDED = true ∧
      t.dueOf (.shortRetry n) = some (s.ck + msCk 1020) ∧
      s.KeepsRegs t [Reg.PORT_STATUS n, Reg.PORT_EVENT n, Reg.MODEM_STATUS n, Reg.MODEM_EVENT n] ∧ s.KeepsSram t) ∧
  ((s.portRuns n = false ∨ s.supplyOn n = false) →
    ∃ t, exec (.portShort n) s = .next t ∧ t.ports = s.ports ∧ s.KeepsRegs t [] ∧ s.KeepsSram t) ∧
  (∀ due, s.dueOf (.shortRetry n) = some due →
    (∃ t, exec (.shortProbe n true) s = .next t ∧ t.dueOf (.shortRetry n) = some (max s.ck due + msCk 1000) ∧
      s.KeepsRegs t [Reg.TB_EVENT] ∧ s.KeepsSram t) ∧
    (s.flag (Reg.PORT_STATUS n) Fld.PORT_STATUS_SHORT = true →
      ∃ t, exec (.shortProbe n false) s = .next t ∧ t.flag (Reg.PORT_STATUS n) Fld.PORT_STATUS_SHORT = false ∧
        t.flag (Reg.MODEM_STATUS n) Fld.MODEM_STATUS_SUSPENDED = false ∧
        s.KeepsRegs t [Reg.TB_EVENT, Reg.PORT_STATUS n, Reg.MODEM_STATUS n] ∧ s.KeepsSram t)) ∧
  (s.portPowered n = true → s.on .core = true →
    (s.flag (Reg.PORT_STATUS n) Fld.PORT_STATUS_THERMAL = false →
      ∃ t, exec (.thermal n true) s = .next t ∧ t.reg (Reg.PORT_STATUS n) = Fld.PORT_STATUS_THERMAL.set (s.reg (Reg.PORT_STATUS n)) 1 ∧
        t.reg (Reg.PORT_EVENT n) = Fld.PORT_EVENT_THERMAL.set (s.reg (Reg.PORT_EVENT n)) 1 ∧
        s.KeepsRegs t [Reg.PORT_STATUS n, Reg.PORT_EVENT n] ∧ s.KeepsSram t) ∧
    (∃ t, exec (.thermal n false) s = .next t ∧ t.reg (Reg.PORT_STATUS n) = Fld.PORT_STATUS_THERMAL.set (s.reg (Reg.PORT_STATUS n)) 0 ∧
      s.KeepsRegs t [Reg.PORT_STATUS n] ∧ s.KeepsSram t))

/-- The loop keeper (R145) and the field supply: after TIMEOUT ms without a counted heartbeat every port of the die has the keeper's cause latched,
HELD and KEEPER_TIMEOUT set, sooner nothing happens; a kick is kept for the next heartbeat; a low field supply shows VFIELD_LOW. -/
def Obligations.KeeperCommands : Prop := ∀ (d : LdId) (s : State), s.runs (ldDie d) = true →
  (s.keeperTmo d ≤ (s.keeper d).sinceTake →
    ∃ t, exec (.keeperTimeout d) s = .next t ∧ t.flag (Reg.LD_EVENT d) Fld.LD_EVENT_KEEPER_TIMEOUT = true ∧
      t.flag (Reg.KEEPER_STATUS d) Fld.KEEPER_STATUS_HELD = true ∧ (t.keeper d).sinceTake = 0 ∧
      (∀ i, i < 4 → (t.port (4 * d + i)).keeperLat = true) ∧ s.KeepsSram t) ∧
  ((s.keeper d).sinceTake < s.keeperTmo d →
    ∃ t, exec (.keeperTimeout d) s = .next t ∧ t.ports = s.ports ∧ s.KeepsRegs t [] ∧ s.KeepsSram t) ∧
  (s.hostOpen (Reg.KEEPER_KICK d) = true →
    ∃ t, exec (.keeperKick d) s = .next t ∧ (t.keeper d).kicked = true ∧ s.KeepsRegs t [] ∧ s.KeepsSram t) ∧
  (∃ t, exec (.vfieldLow d) s = .next t ∧ t.reg (Reg.LD_EVENT d) = Fld.LD_EVENT_VFIELD_LOW.set (s.reg (Reg.LD_EVENT d)) 1 ∧
    s.KeepsRegs t [Reg.LD_EVENT d] ∧ s.KeepsSram t)

/-! ### Elvan tone -/

/-- A frame reads back as it was built (R155, R156, R158): LEN, DST, SRC, CTL, payload and CRC give every field again; with a bit lost, or a byte
of its check changed, it is dropped. -/
def Obligations.ToneFrameReads : Prop := ∀ (dst src ctl : Byte) (payload : List Byte),
  payload.length ≤ 64 → src ≠ 0 → src ≠ 0xFF → dst ≠ 0 → ctl.toNat / 16 % 8 < 3 →
    (∃ crc, readTone (toneFrame dst src ctl payload) false = some ⟨dst, src, ctl, payload, crc⟩ ∧
      crc = crc16 (BitVec.ofNat 8 payload.length :: dst :: src :: ctl :: payload)) ∧
    readTone (toneFrame dst src ctl payload) true = none ∧
    (∀ x y : Byte, [x, y] ≠ (toneFrame dst src ctl payload).drop (payload.length + 4) →
      readTone ((toneFrame dst src ctl payload).take (payload.length + 4) ++ [x, y]) false = none) ∧
    toneBits (toneFrame dst src ctl payload) = 80 + 8 * payload.length

/-- Reception (R154, R158, R159, R161, R162, R165): carrier and bit timing show; a tone that begins while the receiver is blanked is not received;
no sync word, a carrier that falls within a frame, or a frame that fails a check counts an error; a message to this device fills the free buffer and is stamped with the TIME of its
last sync bit; a request is answered only while CORE, or in Tether mode the keeper core, can answer it (R168, R169); a repeated one gets its
stored response again, which goes out after the turn-around (a wait that ABORT ends at the same boundary ends first, R164); one the engine has no answer to in time is answered BUSY. The model's readings: the instant of
BIT_TIMING_RECOVERED is a boundary of the received bits (log entry 48, DEDUCED), and the row of a frame says how long ago its last sync bit
came (log entry 47, DEDUCED). In Tether mode the keeper core answers READ of the objects of area 0, P0 and lane 0 at level 0, one whose register is
lost with a free value (the model's choice, log entry 91), and everything else with BUSY (R169). -/
def Obligations.ToneReception : Prop := ∀ (n : PortId) (s : State),
  (s.modemLive n = true →
    (s.flag (Reg.MODEM_STATUS n) Fld.MODEM_STATUS_CARRIER = true →
      ∃ t, exec (.carrier n false) s = .next t ∧ t.flag (Reg.MODEM_STATUS n) Fld.MODEM_STATUS_CARRIER = false ∧
        t.flag (Reg.MODEM_STATUS n) Fld.MODEM_STATUS_TIMING = false ∧ (t.modem n).quietSince = s.ck ∧ (t.modem n).hearing = false ∧
        (s.canReceive n = true → (s.modem n).hearing = true →
          t.reg (Reg.MODEM_ERR_COUNT n) = satAdd (s.reg (Reg.MODEM_ERR_COUNT n)) 1 ∧
          t.flag (Reg.MODEM_EVENT n) Fld.MODEM_EVENT_FRAME_ERR = true) ∧
        ((s.canReceive n = false ∨ (s.modem n).hearing = false) → s.Keeps t [Reg.MODEM_STATUS n]) ∧
        s.Keeps t [Reg.MODEM_STATUS n, Reg.MODEM_ERR_COUNT n, Reg.MODEM_EVENT n]) ∧
    (s.flag (Reg.MODEM_STATUS n) Fld.MODEM_STATUS_CARRIER = false → s.canReceive n = false →
      ∃ t, exec (.carrier n true) s = .next t ∧ (t.modem n).deafTone = true ∧ s.Keeps t [])) ∧
  (s.canReceive n = true →
    (s.flag (Reg.MODEM_STATUS n) Fld.MODEM_STATUS_CARRIER = false →
      ∃ t, exec (.carrier n true) s = .next t ∧
        t.reg (Reg.MODEM_STATUS n) = Fld.MODEM_STATUS_CARRIER.set (s.reg (Reg.MODEM_STATUS n)) 1 ∧
        (t.modem n).hearing = !((s.modem n).deafTone || (s.modem n).txEnd.any fun e => decide (s.ck ≤ e + 3 * bitCk)) ∧
        t.dueOf (.modemSync n) = some (s.ck + 32 * bitCk) ∧ s.Keeps t [Reg.MODEM_STATUS n]) ∧
    (s.flag (Reg.MODEM_STATUS n) Fld.MODEM_STATUS_CARRIER = true →
      ∃ t, exec (.bitTimingRecovered n) s = .next t ∧ (t.modem n).bitAt = s.ck ∧ (t.modem n).bitEnd = (s.modem n).bitEnd ∧
        t.reg (Reg.MODEM_STATUS n) = Fld.MODEM_STATUS_TIMING.set (s.reg (Reg.MODEM_STATUS n)) 1 ∧ s.Keeps t [Reg.MODEM_STATUS n]) ∧
    (∀ due, s.dueOf (.modemSync n) = some due →
      ∃ t, exec (.syncTimeout n) s = .next t ∧ t.reg (Reg.MODEM_ERR_COUNT n) = satAdd (s.reg (Reg.MODEM_ERR_COUNT n)) 1 ∧
        t.flag (Reg.MODEM_EVENT n) Fld.MODEM_EVENT_FRAME_ERR = true ∧ t.dueOf (.modemSync n) = none ∧ (t.modem n).hearing = false ∧
        s.Keeps t [Reg.TB_EVENT, Reg.MODEM_ERR_COUNT n, Reg.MODEM_EVENT n])) ∧
  (s.canReceive n = true → (s.modem n).hearing = true → ∀ ago : Nat,
    (∀ bs lost ready, readTone bs lost = none →
      ∃ t, exec (.toneFrameReceived n ⟨bs, ago⟩ lost ready) s = .next t ∧
        t.reg (Reg.MODEM_ERR_COUNT n) = satAdd (s.reg (Reg.MODEM_ERR_COUNT n)) 1 ∧
        t.flag (Reg.MODEM_EVENT n) Fld.MODEM_EVENT_FRAME_ERR = true ∧ t.od = s.od ∧ (t.modem n).hearing = false ∧
        (s.flag (Reg.MODEM_STATUS n) Fld.MODEM_STATUS_TIMING = true → (t.modem n).bitEnd = some s.ck) ∧
        s.Keeps t [Reg.MODEM_ERR_COUNT n, Reg.MODEM_EVENT n]) ∧
    (∀ bs lost ready f, readTone bs lost = some f → f.typ = 2 → (f.dst.toNat = s.toneAddr n ∨ f.dst = 0xFF) →
      s.flag (Reg.MODEM_STATUS n) Fld.MODEM_STATUS_RX_FULL = false →
      ∃ t, exec (.toneFrameReceived n ⟨bs, ago⟩ lost ready) s = .next t ∧
        t.reg (Reg.MODEM_RX_COUNT n) = satAdd (s.reg (Reg.MODEM_RX_COUNT n)) 1 ∧
        t.flag (Reg.MODEM_STATUS n) Fld.MODEM_STATUS_RX_FULL = true ∧
        t.flag (Reg.MODEM_STATUS n) Fld.MODEM_STATUS_RX_TB_VALID = (s.stampAt (s.ck - ago)).2 ∧
        t.flag (Reg.MODEM_EVENT n) Fld.MODEM_EVENT_RX_FRAME = true ∧
        t.reg (Reg.MODEM_RX_HDR n) =
          BitVec.ofNat 32 (f.ctl.toNat * 0x1000000 + f.src.toNat * 0x10000 + f.dst.toNat * 0x100 + f.payload.length) ∧
        (∀ w, w < 16 → t.reg (Reg.MODEM_RX_DATA n w) = wordOfBytes (sliceBytes f.payload (4 * w) 4)) ∧
        pair64 (t.reg (Reg.MODEM_RX_TIME_HI n)) (t.reg (Reg.MODEM_RX_TIME_LO n)) = (s.stampAt (s.ck - ago)).1 ∧
        s.Keeps t ([Reg.MODEM_STATUS n, Reg.MODEM_EVENT n, Reg.MODEM_RX_COUNT n, Reg.MODEM_RX_HDR n, Reg.MODEM_RX_TIME_LO n,
          Reg.MODEM_RX_TIME_HI n] ++ (List.range 16).map (Reg.MODEM_RX_DATA n))) ∧
    (∀ bs lost ready f, readTone bs lost = some f → s.toneAddrOk n = true → f.typ = 0 → f.dir = false →
      f.dst.toNat = s.toneAddr n → s.flag (Reg.MODEM_CTL n) Fld.MODEM_CTL_MASTER = false →
      (∀ frame, (s.on .core = true ∨ s.inTether = true) → (s.modem n).stored = some (f.src, f.seq, f.crc, frame) →
        ∃ t, exec (.toneFrameReceived n ⟨bs, ago⟩ lost ready) s = .next t ∧ (t.modem n).answer = some (f.src, f.seq, f.crc, frame) ∧
          t.dueOf (.modemTa n) = some (s.ck + s.turnAround n) ∧ t.od.answer = s.od.answer ∧
          s.Keeps t [Reg.MODEM_STATUS n, Reg.MODEM_EVENT n, Reg.MODEM_RX_COUNT n, Reg.MODEM_RX_TIME_LO n, Reg.MODEM_RX_TIME_HI n]) ∧
      (s.on .core = true → s.inTether = false → ready = false →
        (∀ x, (s.modem n).stored = some x → (x.1, x.2.1, x.2.2.1) ≠ (f.src, f.seq, f.crc)) →
        ∃ t, exec (.toneFrameReceived n ⟨bs, ago⟩ lost ready) s = .next t ∧
          (t.modem n).answer = some (f.src, f.seq, f.crc, toneFrame f.src (BitVec.ofNat 8 (s.toneAddr n)) (BitVec.ofNat 8 (0x90 + f.seq))
            [byteAt f.payload 0 + 0x80, 5]) ∧
          t.dueOf (.modemTa n) = some (s.ck + s.turnLate n) ∧
          s.Keeps t [Reg.MODEM_STATUS n, Reg.MODEM_EVENT n, Reg.MODEM_RX_COUNT n, Reg.MODEM_RX_TIME_LO n, Reg.MODEM_RX_TIME_HI n]) ∧
      (s.inTether = true → (∀ x, (s.modem n).stored = some x → (x.1, x.2.1, x.2.2.1) ≠ (f.src, f.seq, f.crc)) → byteAt f.payload 0 ≠ 0x01 →
        ∃ t, exec (.toneFrameReceived n ⟨bs, ago⟩ lost ready) s = .next t ∧
          (t.modem n).answer = some (f.src, f.seq, f.crc, toneFrame f.src (BitVec.ofNat 8 (s.toneAddr n)) (BitVec.ofNat 8 (0x90 + f.seq))
            [byteAt f.payload 0 + 0x80, 5]) ∧
          s.Keeps t [Reg.MODEM_STATUS n, Reg.MODEM_EVENT n, Reg.MODEM_RX_COUNT n, Reg.MODEM_RX_TIME_LO n, Reg.MODEM_RX_TIME_HI n]) ∧
      (s.on .core = false → s.inTether = false →
        ∃ t, exec (.toneFrameReceived n ⟨bs, ago⟩ lost ready) s = .next t ∧ (t.modem n).answer = (s.modem n).answer ∧ t.od = s.od ∧
          s.Keeps t [Reg.MODEM_STATUS n, Reg.MODEM_EVENT n, Reg.MODEM_RX_COUNT n, Reg.MODEM_RX_TIME_LO n, Reg.MODEM_RX_TIME_HI n]))) ∧
  (∀ (a : BitVec 24) (o : Obj), (a.toNat / 0x100000 = 0 ∨ a.toNat / 0x100 = 0x4000 ∨ a.toNat / 0x10000 = 0x60) → s.object 0 a.toNat = some o →
    let r := s.keeperAnswer [1, BitVec.ofNat 8 (a.toNat / 0x10000), BitVec.ofNat 8 (a.toNat / 0x100), BitVec.ofNat 8 a.toNat]
    r.1.code = (if o.prv then .level else if o.cls = .wo then .access else .ok) ∧
      (r.1.code = .ok → a.toNat / 0x100 = 0x4000 → r.1.typ = o.typ.num ∧ r.1.value = o.value)) ∧
  (∀ (lost ready : Bool) (ago : Nat) (bs : List Byte),
    ((s.canReceive n = false ∨ (s.modem n).hearing = false) →
      ∃ t, exec (.toneFrameReceived n ⟨bs, ago⟩ lost ready) s = .next t ∧ t.modems = s.modems ∧ s.Keeps t []) ∧
    ((s.canReceive n = false ∨ s.flag (Reg.MODEM_STATUS n) Fld.MODEM_STATUS_CARRIER = false) →
      ∃ t, exec (.bitTimingRecovered n) s = .next t ∧ t.modems = s.modems ∧ s.Keeps t [])) ∧
  (s.modemLive n = false → ∀ p, ∃ t, exec (.carrier n p) s = .next t ∧ t.modems = s.modems ∧ s.Keeps t []) ∧
  (∀ due, s.dueOf (.modemTa n) = some due → ∀ src seq crc frame, (s.modem n).answer = some (src, seq, crc, frame) →
    s.canTransmit n = true → s.flag (Reg.MODEM_STATUS n) Fld.MODEM_STATUS_TX_ACTIVE = false →
    ∃ t, exec (.toneResponse n) s = .next t ∧ (t.modem n).line = toneHead ++ frame ∧ (t.modem n).response = true ∧ (t.modem n).answer = none ∧
      (t.modem n).stored = some (src, seq, crc, frame) ∧ t.flag (Reg.MODEM_STATUS n) Fld.MODEM_STATUS_TX_ACTIVE = true ∧
      t.dueOf (.modemTx n) = some (max s.ck due + toneBits frame * bitCk) ∧
      ((s.modem n).cut = false → s.Keeps t [Reg.TB_EVENT, Reg.MODEM_STATUS n]) ∧
      ((s.modem n).cut = true → (s.modem n).response = false → (t.modem n).phase = .idle ∧ (t.modem n).cut = false ∧
        t.flag (Reg.MODEM_STATUS n) Fld.MODEM_STATUS_TX_BUSY = false ∧ t.flag (Reg.MODEM_EVENT n) Fld.MODEM_EVENT_ABORTED = true ∧
        s.Keeps t [Reg.TB_EVENT, Reg.MODEM_STATUS n, Reg.MODEM_EVENT n])) ∧
  (s.hostOpen (Reg.MODEM_CTL n) = true → s.portRuns n = true →
    ∃ t, exec (.rxRelease n) s = .next t ∧
      t.reg (Reg.MODEM_STATUS n) = Fld.MODEM_STATUS_RX_FULL.set (s.reg (Reg.MODEM_STATUS n)) 0 ∧ s.Keeps t [Reg.MODEM_STATUS n]) ∧
  (s.hostOpen (Reg.MODEM_CTL n) = true → s.portRuns n = false → ∃ t, exec (.rxRelease n) s = .next t ∧ s.Keeps t [])

/-- Sending (R150, R155, R163, R164): SEND takes the staged frame and waits for quiet, or is refused; the frame, preamble and sync word first,
starts on the first boundary of the bit grid after the quiet time; its end waits for a response or ends the transaction; no quiet within 1 s
ends it with SEND_ERR; no response repeats the frame, or ends with TIMEOUT; ABORT ends everything at the next bit boundary (for a wait the
model's choice, log entry 49), until which a SEND is refused as ever. -/
def Obligations.ToneSending : Prop := ∀ (n : PortId) (s : State),
  let uncut := s.hostOpen (Reg.MODEM_CTL n) = true ∧ ((s.modem n).cut = false ∨ ∀ due, s.dueOf (.modemTx n) = some due → s.ck < due)
  (uncut → s.sendRefused n = false → s.portRuns n = true ∧
    ∃ t, exec (.toneSend n) s = .next t ∧ (t.modem n).phase = .quiet ∧ (t.modem n).frame = s.stagedFrame n ∧
      (t.modem n).quietSince = s.ck ∧ (t.modem n).retries = s.fld (Reg.MODEM_TIMING n) Fld.MODEM_TIMING_RETRIES ∧
      (t.modem n).expect = s.flag (Reg.MODEM_TX_HDR n) Fld.MODEM_TX_HDR_EXPECT ∧
      t.dueOf (.modemQuiet n) = some (s.ck + secCk 1) ∧
      t.reg (Reg.MODEM_STATUS n) = Fld.MODEM_STATUS_TX_BUSY.set (s.reg (Reg.MODEM_STATUS n)) 1 ∧ s.Keeps t [Reg.MODEM_STATUS n]) ∧
  (s.portRuns n = false → s.sendRefused n = true) ∧
  (uncut → s.sendRefused n = true →
    ∃ t, exec (.toneSend n) s = .next t ∧ t.modems = s.modems ∧
      t.reg (Reg.MODEM_EVENT n) = Fld.MODEM_EVENT_SEND_ERR.set (s.reg (Reg.MODEM_EVENT n)) 1 ∧ s.Keeps t [Reg.MODEM_EVENT n]) ∧
  (s.hostOpen (Reg.MODEM_CTL n) = true → s.portRuns n = false → ∃ t, exec (.modemAbort n) s = .next t ∧ t.modems = s.modems ∧ s.Keeps t []) ∧
  ((s.modem n).phase = .quiet → s.quietLate n = true → ∃ t, exec (.toneTxStart n) s = .next t ∧ t.modems = s.modems ∧ s.Keeps t []) ∧
  ((s.modem n).phase = .quiet → (s.modem n).cut = false → s.quietLate n = false → s.flag (Reg.MODEM_STATUS n) Fld.MODEM_STATUS_CARRIER = false → s.canTransmit n = true →
    s.flag (Reg.MODEM_STATUS n) Fld.MODEM_STATUS_TX_ACTIVE = false →
    ∃ t, exec (.toneTxStart n) s = .next t ∧ t.ck = s.bitNext (max s.ck ((s.modem n).quietSince + s.quietBits n * bitCk)) ∧
      (t.modem n).phase = .sending ∧ (t.modem n).line = toneHead ++ (s.modem n).frame ∧ t.dueOf (.modemQuiet n) = none ∧
      t.dueOf (.modemTx n) = some (t.ck + toneBits (s.modem n).frame * bitCk) ∧
      t.flag (Reg.MODEM_STATUS n) Fld.MODEM_STATUS_TX_ACTIVE = true ∧ s.Keeps t [Reg.TB_EVENT, Reg.MODEM_STATUS n]) ∧
  (∀ due, s.dueOf (.modemTx n) = some due → (s.modem n).cut = true →
    ∃ t, exec (.toneTxDone n) s = .next t ∧ t.ck = max s.ck due ∧ (t.modem n).line = [] ∧ (t.modem n).cut = false ∧
      (((s.modem n).response = false ∨
          (s.modem n).phase ≠ .idle ∧ s.dueOf (.modemQuiet n) = none ∧ s.dueOf (.modemRsp n) = none) →
        (t.modem n).phase = .idle ∧ t.flag (Reg.MODEM_STATUS n) Fld.MODEM_STATUS_TX_BUSY = false) ∧
      t.flag (Reg.MODEM_STATUS n) Fld.MODEM_STATUS_TX_ACTIVE = false ∧ t.flag (Reg.MODEM_EVENT n) Fld.MODEM_EVENT_ABORTED = true ∧
      s.Keeps t [Reg.TB_EVENT, Reg.MODEM_STATUS n, Reg.MODEM_EVENT n]) ∧
  (∀ due, s.dueOf (.modemTx n) = some due → (s.modem n).cut = false →
    ((s.modem n).response = true →
      ∃ t, exec (.toneTxDone n) s = .next t ∧ (t.modem n).phase = (s.modem n).phase ∧ (t.modem n).line = [] ∧
        t.flag (Reg.MODEM_STATUS n) Fld.MODEM_STATUS_TX_ACTIVE = false ∧ s.Keeps t [Reg.TB_EVENT, Reg.MODEM_STATUS n]) ∧
    ((s.modem n).response = false → (s.modem n).expect = true →
      ∃ t, exec (.toneTxDone n) s = .next t ∧ (t.modem n).phase = .waiting ∧
        t.flag (Reg.MODEM_STATUS n) Fld.MODEM_STATUS_TX_ACTIVE = false ∧
        t.dueOf (.modemRsp n) = some (max s.ck due + s.rspBits n * bitCk) ∧ s.Keeps t [Reg.TB_EVENT, Reg.MODEM_STATUS n]) ∧
    ((s.modem n).response = false → (s.modem n).expect = false →
      ∃ t, exec (.toneTxDone n) s = .next t ∧ (t.modem n).phase = .idle ∧
        t.flag (Reg.MODEM_STATUS n) Fld.MODEM_STATUS_TX_ACTIVE = false ∧ t.flag (Reg.MODEM_STATUS n) Fld.MODEM_STATUS_TX_BUSY = false ∧
        t.reg (Reg.MODEM_EVENT n) = Fld.MODEM_EVENT_TX_DONE.set (s.reg (Reg.MODEM_EVENT n)) 1 ∧
        s.Keeps t [Reg.TB_EVENT, Reg.MODEM_STATUS n, Reg.MODEM_EVENT n])) ∧
  (∀ due, s.dueOf (.modemQuiet n) = some due →
    ∃ t, exec (.toneQuietTimeout n) s = .next t ∧ (t.modem n).phase = .idle ∧
      t.flag (Reg.MODEM_STATUS n) Fld.MODEM_STATUS_TX_BUSY = false ∧ t.flag (Reg.MODEM_EVENT n) Fld.MODEM_EVENT_SEND_ERR = true ∧
      t.dueOf (.modemQuiet n) = none ∧ s.Keeps t [Reg.TB_EVENT, Reg.MODEM_STATUS n, Reg.MODEM_EVENT n]) ∧
  (∀ due, s.dueOf (.modemRsp n) = some due →
    ((s.modem n).retries = 0 →
      ∃ t, exec (.toneRspTimeout n) s = .next t ∧ (t.modem n).phase = .idle ∧
        t.reg (Reg.MODEM_TMO_COUNT n) = satAdd (s.reg (Reg.MODEM_TMO_COUNT n)) 1 ∧
        t.flag (Reg.MODEM_EVENT n) Fld.MODEM_EVENT_TIMEOUT = true ∧ t.flag (Reg.MODEM_STATUS n) Fld.MODEM_STATUS_TX_BUSY = false ∧
        s.Keeps t [Reg.TB_EVENT, Reg.MODEM_STATUS n, Reg.MODEM_EVENT n, Reg.MODEM_TMO_COUNT n]) ∧
    ((s.modem n).retries ≠ 0 →
      ∃ t, exec (.toneRspTimeout n) s = .next t ∧ (t.modem n).phase = .quiet ∧ (t.modem n).retries + 1 = (s.modem n).retries ∧
        (t.modem n).frame = (s.modem n).frame ∧ t.dueOf (.modemQuiet n) = some (max s.ck due + secCk 1) ∧
        t.reg (Reg.MODEM_TMO_COUNT n) = satAdd (s.reg (Reg.MODEM_TMO_COUNT n)) 1 ∧
        s.Keeps t [Reg.TB_EVENT, Reg.MODEM_EVENT n, Reg.MODEM_TMO_COUNT n])) ∧
  (s.hostOpen (Reg.MODEM_CTL n) = true → s.portRuns n = true →
    (s.flag (Reg.MODEM_STATUS n) Fld.MODEM_STATUS_TX_ACTIVE = true ∨ s.flag (Reg.MODEM_STATUS n) Fld.MODEM_STATUS_TX_BUSY = true) →
    ∃ t, exec (.modemAbort n) s = .next t ∧ (t.modem n).cut = true ∧ t.dueOf (.modemQuiet n) = none ∧ t.dueOf (.modemRsp n) = none ∧
      ((s.modem n).cut = false → t.dueOf (.modemTx n) = some (s.bitNext (s.ck + 1))) ∧ s.Keeps t []) ∧
  (s.hostOpen (Reg.MODEM_CTL n) = true → s.portRuns n = true → s.flag (Reg.MODEM_STATUS n) Fld.MODEM_STATUS_TX_ACTIVE = false →
    s.flag (Reg.MODEM_STATUS n) Fld.MODEM_STATUS_TX_BUSY = false →
    ∃ t, exec (.modemAbort n) s = .next t ∧ t.modems = s.modems ∧
      t.reg (Reg.MODEM_EVENT n) = Fld.MODEM_EVENT_ABORTED.set (s.reg (Reg.MODEM_EVENT n)) 1 ∧ s.Keeps t [Reg.MODEM_EVENT n])

/-! ### Object dictionary -/

/-- Requests for objects (R203 to R208, R213, R219): a request restarts its session's 60 s whatever the answer; an engine that is busy answers
BUSY; else the request finds its object or the first failure, and the answer is the status alone, or for a read type and value; a write of a
port's set-point, on the host's path or in a session of level 1 or more, writes it; with CORE off the engine takes no request; a command of the host window shows BUSY until the engine takes it, in its turn (the model's choice of instant, log
entry 53), and completes with RESULT and DONE; one while another is under way is ignored. -/
def Obligations.ObjectRequests : Prop := ∀ s : State,
  (s.on .core = false → ∀ (p : OdPath) (a : BitVec 24) (ty : Byte) (v : List Byte), ∀ c ∈ [Instr.odRead p a, .odWrite p a ty v],
    ∃ t, exec c s = .next t ∧ t.od = s.od ∧ t.timers = s.timers ∧ s.Keeps t []) ∧
  (s.on .core = true →
  (∀ (p : OdPath) (a : BitVec 24), exec (.odRead p a) s = .next (State.answered (s.windowServe.odTake p a.toNat none)).settle) ∧
  (s.od.window = none → s.odBusy = true →
    ∀ (p : OdPath) (a : BitVec 24) (ty : Byte) (v : List Byte), ∀ c ∈ [Instr.odRead p a, .odWrite p a ty v],
    ∃ t, exec c s = .next t ∧ t.od.answer = [5] ∧ t.od.snap = s.od.snap ∧
      (∀ x, s.session p = some x → t.dueOf (.sessionIdle p) = some (s.ck + secCk 60)) ∧ s.Keeps t []) ∧
  (s.od.window = none → s.odBusy = false →
    (∀ (p : OdPath) (a : BitVec 24) (ty : Byte) (v : List Byte),
      (∀ c, (s.touch p).odCheck p a.toNat none = .error c →
        ∃ t, exec (.odRead p a) s = .next t ∧ t.od.answer = [BitVec.ofNat 8 c.num] ∧
          (∀ x, s.session p = some x → t.dueOf (.sessionIdle p) = some (s.ck + secCk 60)) ∧ s.Keeps t []) ∧
      (∀ o, (s.touch p).odCheck p a.toNat none = .ok o →
        ∃ t, exec (.odRead p a) s = .next t ∧ t.od.answer = 0 :: BitVec.ofNat 8 o.typ.num :: o.value ∧
          (∀ x, s.session p = some x → t.dueOf (.sessionIdle p) = some (s.ck + secCk 60)) ∧ s.Keeps t []) ∧
      (∀ c, (s.touch p).odCheck p a.toNat (some (ty.toNat, v)) = .error c →
        ∃ t, exec (.odWrite p a ty v) s = .next t ∧ t.od.answer = [BitVec.ofNat 8 c.num] ∧ t.od.snap = s.od.snap ∧
          (∀ x, s.session p = some x → t.dueOf (.sessionIdle p) = some (s.ck + secCk 60)) ∧ s.Keeps t [])) ∧
    (∀ (p : OdPath) (n : PortId) (x : BitVec 16), 1 ≤ s.levelOf p → x.toNat ≤ 48000 → s.reachable (Reg.LOOP_SET n) = true →
      s.portWritable n = true → s.loopHeld n = false →
      ∃ t, exec (.odWrite p (BitVec.ofNat 24 (0x400001 + 0x100 * n)) 3 (leBytes 2 x.toNat)) s = .next t ∧ t.od.answer = [0] ∧
        t.fld (Reg.LOOP_SET n) Fld.LOOP_SET_VALUE = x.toNat ∧ (t.port n).released = true ∧
        (∀ y, s.session p = some y → t.dueOf (.sessionIdle p) = some (s.ck + secCk 60)) ∧ s.Keeps t [Reg.LOOP_SET n])) ∧
  (s.hostOpen Reg.OD_CMD = true → s.flag Reg.OD_STATUS Fld.OD_STATUS_BUSY = true → ∀ c ∈ [Instr.odCmdRead, .odCmdWrite],
    ∃ t, exec c s = .next t ∧ t.od = s.od ∧ t.flag Reg.OD_EVENT Fld.OD_EVENT_CMD_LOST = true ∧ s.Keeps t [Reg.OD_EVENT]) ∧
  (s.hostOpen Reg.OD_CMD = true → s.flag Reg.OD_STATUS Fld.OD_STATUS_BUSY = false → ∀ rd : Bool,
    ∃ t, exec (if rd then .odCmdRead else .odCmdWrite) s = .next t ∧ t.od = { s.od with window := some rd } ∧
      t.reg Reg.OD_STATUS = Fld.OD_STATUS_BUSY.set (s.reg Reg.OD_STATUS) 1 ∧ s.Keeps t [Reg.OD_STATUS]) ∧
  (∀ rd, s.od.window = some rd → ∀ t, t = s.windowServe →
    t.od.window = none ∧ t.flag Reg.OD_STATUS Fld.OD_STATUS_BUSY = false ∧ t.flag Reg.OD_EVENT Fld.OD_EVENT_DONE = true ∧
    (s.odBusy = true → t.fld Reg.OD_STATUS Fld.OD_STATUS_RESULT = 5 ∧ s.Keeps t [Reg.OD_STATUS, Reg.OD_EVENT])) ∧
  (s.odBusy = false → ∀ t, t = s.windowServe →
    (s.od.window = some true → ∀ c, (s.snapTouch .host).odCheck .host (s.fld Reg.OD_REQ Fld.OD_REQ_ADDR) none = .error c →
        t.fld Reg.OD_STATUS Fld.OD_STATUS_RESULT = c.num ∧ s.Keeps t [Reg.OD_STATUS, Reg.OD_EVENT]) ∧
    (s.od.window = some true → ∀ o, (s.snapTouch .host).odCheck .host (s.fld Reg.OD_REQ Fld.OD_REQ_ADDR) none = .ok o →
        t.fld Reg.OD_STATUS Fld.OD_STATUS_RESULT = 0 ∧
        t.fld Reg.OD_STATUS Fld.OD_STATUS_TYPE = o.typ.num ∧
        (∀ w, w < 64 → t.reg (Reg.OD_DATA w) = wordOfBytes (sliceBytes o.value (4 * w) 4)) ∧
        s.Keeps t ([Reg.OD_STATUS, Reg.OD_LEN, Reg.OD_EVENT] ++ (List.range 64).map Reg.OD_DATA)) ∧
    (s.od.window = some false → ∀ c, (s.snapTouch .host).odCheck .host (s.fld Reg.OD_REQ Fld.OD_REQ_ADDR)
        (some (s.fld Reg.OD_REQ Fld.OD_REQ_TYPE, s.windowValue (s.fld Reg.OD_REQ Fld.OD_REQ_TYPE))) = .error c →
        t.fld Reg.OD_STATUS Fld.OD_STATUS_RESULT = c.num ∧ s.Keeps t [Reg.OD_STATUS, Reg.OD_EVENT]) ∧
    (s.od.window = some false → ∀ o, (s.snapTouch .host).odCheck .host (s.fld Reg.OD_REQ Fld.OD_REQ_ADDR)
        (some (s.fld Reg.OD_REQ Fld.OD_REQ_TYPE, s.windowValue (s.fld Reg.OD_REQ Fld.OD_REQ_TYPE))) = .ok o → o.put = .tag →
        t.od.tag = s.windowValue (s.fld Reg.OD_REQ Fld.OD_REQ_TYPE) ∧
        t.fld Reg.OD_STATUS Fld.OD_STATUS_RESULT = 0 ∧ s.Keeps t [Reg.OD_STATUS, Reg.OD_EVENT])))

/-- Sessions (R205, R206, R210, R211, R213), a request of the host window that waits served first (`u` below; its instant is log entry 53): a
request to open is answered LEVEL for a level without a key, BUSY where the source is locked out or no slot is free, else with a fresh challenge
that lives 10 s; the right answer to it opens the session at its level; any other answer of 32 bytes, or one to no challenge, is a failure, and
the fourth within 60 s, and each further one, locks the source out for the 60 s after it (log entry 84, DEDUCED), and a failure leaves a tone source
at level 0 (R167); a busy engine answers BUSY; that a right answer which finds no free slot is answered BUSY, with its challenge used up, is the
model's choice (log entry 85); source node 0 executes at level 0 whatever session it holds (R270); sessions, challenges and lockouts end at their deadlines. The host has none. The challenge's bytes are free values (log entry 4), and the HMAC
is that of FIPS 180-4 and RFC 2104 (log entry 11, PRESUMED). -/
def Obligations.Sessions : Prop := ∀ (p : OdPath) (s : State),
  (s.on .core = true → ∀ u, u = s.windowServe → ∀ (l : Byte) (h : List Byte),
    ∀ c ∈ [Instr.sessionOpen .host l, .sessionAuth .host h, .sessionClose .host],
    ∃ t, exec c s = .next t ∧ t.od.answer = [3] ∧ t.od.trunk = u.od.trunk ∧ t.od.tone = u.od.tone ∧ u.Keeps t []) ∧
  (s.on .core = false → ∀ (l : Byte) (h : List Byte), ∀ c ∈ [Instr.sessionOpen p l, .sessionAuth p h, .sessionClose p],
    ∃ t, exec c s = .next t ∧ t.od = s.od ∧ s.Keeps t []) ∧
  (s.on .core = true → ∀ u, u = s.windowServe → u.odBusy = true → p ≠ .host → ∀ (l : Byte) (h : List Byte),
    ∀ c ∈ [Instr.sessionOpen p l, .sessionAuth p h, .sessionClose p],
    ∃ t, exec c s = .next t ∧ t.od.answer = [5] ∧ t.od.auth = u.od.auth ∧ t.levelOf p = u.levelOf p ∧ u.Keeps t []) ∧
  (s.on .core = true → ∀ u, u = s.windowServe → u.odBusy = false → p ≠ .host →
    (∀ l : Byte, (l = 0 ∨ 3 < l.toNat ∨ u.keyLoaded l.toNat = false ∨ (isTone p = true ∧ 1 < l.toNat)) →
      ∃ t, exec (.sessionOpen p l) s = .next t ∧ t.od.answer = [6] ∧ (t.authOf p).challenge = none ∧ u.Keeps t []) ∧
    (∀ l : Byte, l ≠ 0 → l.toNat ≤ 3 → u.keyLoaded l.toNat = true → (isTone p = true → l.toNat ≤ 1) →
      (((u.authOf p).locked = true ∨ u.sessionRoom p = false) →
        ∃ t, exec (.sessionOpen p l) s = .next t ∧ t.od.answer = [5] ∧ (t.authOf p).challenge = none ∧ u.Keeps t []) ∧
      ((u.authOf p).locked = false → u.sessionRoom p = true →
        ∃ t, exec (.sessionOpen p l) s = .next t ∧ t.od.answer = 0 :: beBytes 16 (Config.noise u.od.drawn).toNat ∧
          (t.authOf p).challenge = some (l.toNat, Config.noise u.od.drawn) ∧ t.dueOf (.challenge p) = some (u.ck + secCk 10) ∧
          t.od.drawn = u.od.drawn + 1 ∧ u.Keeps t [])) ∧
    (∀ h : List Byte, h.length = 32 →
      (∀ l c, (u.authOf p).challenge = some (l, c) → u.keyLoaded l = false ∨ h ≠ hmacSha256 (u.odKey l) (u.authMessage p c l)) →
      ∃ t, exec (.sessionAuth p h) s = .next t ∧ t.od.answer = [0, 0] ∧ t.levelOf p = (if isTone p = true then 0 else u.levelOf p) ∧
        (t.authOf p).challenge = none ∧ t.reg Reg.OD_AUTH_FAIL_COUNT = satAdd (u.reg Reg.OD_AUTH_FAIL_COUNT) 1 ∧
        t.flag Reg.OD_EVENT Fld.OD_EVENT_AUTH_FAIL = true ∧
        (3 ≤ ((u.authOf p).fails.filter fun x => decide (u.ck < x + secCk 60)).length → (t.authOf p).locked = true ∧
          t.dueOf (.lockout p) = some (u.ck + secCk 60)) ∧
        u.Keeps t ([Reg.OD_AUTH_FAIL_COUNT, Reg.OD_EVENT] ++ (List.range 16).map Reg.MODEM_EVENT ++
          (List.range 16).map Reg.MODEM_STATUS)) ∧
    (∀ l c, (u.authOf p).challenge = some (l, c) → u.keyLoaded l = true → ∀ h, h = hmacSha256 (u.odKey l) (u.authMessage p c l) →
      (u.sessionRoom p = true →
        ∃ t, exec (.sessionAuth p h) s = .next t ∧ t.od.answer = [0, BitVec.ofNat 8 l] ∧
          t.levelOf p = (if p = .trunk 0 then 0 else l) ∧ (t.session p).map (·.level) = some l ∧
          (t.authOf p).challenge = none ∧ t.dueOf (.sessionIdle p) = some (u.ck + secCk 60) ∧
          t.flag Reg.OD_EVENT Fld.OD_EVENT_SESSION = true ∧
          u.Keeps t (Reg.OD_EVENT :: (List.range 16).map Reg.MODEM_EVENT ++ (List.range 16).map Reg.MODEM_STATUS)) ∧
      (u.sessionRoom p = false →
        ∃ t, exec (.sessionAuth p h) s = .next t ∧ t.od.answer = [5] ∧ (t.authOf p).challenge = none ∧ u.Keeps t [])) ∧
    (∃ t, exec (.sessionClose p) s = .next t ∧ t.od.answer = [0] ∧
      (∀ i, u.trunkSlot p = some i → isTone p = false → vget t.od.trunk i none = none ∧ t.flag Reg.OD_EVENT Fld.OD_EVENT_SESSION = true) ∧
      (∀ x, u.session p = some x → isTone p = true → t.session p = none) ∧
      u.Keeps t (Reg.OD_EVENT :: (List.range 16).map Reg.MODEM_EVENT ++ (List.range 16).map Reg.MODEM_STATUS))) ∧
  (∀ due, s.dueOf (.sessionIdle p) = some due →
    ∃ t, exec (.sessionIdleTimeout p) s = .next t ∧ t.ck = max s.ck due ∧
      (∀ i, s.trunkSlot p = some i → isTone p = false → p ≠ .host → vget t.od.trunk i none = none) ∧
      (∀ x, s.session p = some x → isTone p = true → t.session p = none) ∧
      s.Keeps t (Reg.TB_EVENT :: Reg.OD_EVENT :: (List.range 16).map Reg.MODEM_EVENT ++ (List.range 16).map Reg.MODEM_STATUS)) ∧
  (∀ due, s.dueOf (.challenge p) = some due →
    ∃ t, exec (.challengeExpiry p) s = .next t ∧ (t.authOf p).challenge = none ∧ t.dueOf (.challenge p) = none ∧
      s.Keeps t [Reg.TB_EVENT]) ∧
  (∀ due, s.dueOf (.lockout p) = some due →
    ∃ t, exec (.lockoutEnd p) s = .next t ∧ (t.authOf p).locked = false ∧ t.dueOf (.lockout p) = none ∧ s.Keeps t [Reg.TB_EVENT])

/-- Snapshots and keys (R210, R214 to R218), on the host path with the buffer the host's or free: CAPTURE, and the image at its tick; chunks in
order; APPLY refuses an image whose header fails, or with the index of the first record that fails, else waits for its tick, at which every
record is written in its order, so that a set-point the last record gives stands (the pass in the row of its tick or at the tick itself is the
model's choice, log entry 53); ABORT and 60 s of silence free the buffer. A loaded or cleared key takes effect, OD_KEY reads zero after a load,
and every session at its level is closed. -/
def Obligations.SnapshotsAndKeys : Prop := ∀ s : State, s.on .core = true →
  (s.od.window = none → s.odBusy = false → (∀ q, s.od.snap.owner = some q → q = .host) →
    (∃ t, exec (.snapCapture .host) s = .next t ∧ t.od.answer = [0] ∧ t.od.snap.state = 1 ∧ t.od.snap.owner = some .host ∧
      t.od.snap.due = s.tickAt ∧ t.dueOf .snapOwner = some (s.ck + secCk 60) ∧ s.Keeps t []) ∧
    (∀ v : List Byte, v.length ≤ 256 →
      ∃ t, exec (.snapDataWrite .host 0 v) s = .next t ∧ t.od.answer = [0] ∧ t.od.snap.state = 3 ∧ t.od.snap.image = v ∧
        t.od.snap.nextK = 1 ∧ s.Keeps t []) ∧
    (∀ (k : BitVec 8) (v : List Byte), v.length ≤ 256 → k ≠ 0 → s.od.snap.state = 3 → s.od.snap.nextK = k.toNat →
      ∃ t, exec (.snapDataWrite .host k v) s = .next t ∧ t.od.answer = [0] ∧ t.od.snap.image = s.od.snap.image ++ v ∧
        t.od.snap.nextK = k.toNat + 1 ∧ (s.od.snap.image.length = 256 * k.toNat → t.od.snap.gaps = s.od.snap.gaps) ∧
        (s.od.snap.image.length ≠ 256 * k.toNat → t.od.snap.headerOk = false) ∧ s.Keeps t []) ∧
    (∀ c ∈ [Instr.snapApply .host, .applyCommit .host],
      (s.od.snap.state ≠ 3 → ∃ t, exec c s = .next t ∧ t.od.answer = [5] ∧ t.od.snap = s.od.snap ∧ s.Keeps t []) ∧
      (s.od.snap.state = 3 → s.od.snap.headerOk = false →
        ∃ t, exec c s = .next t ∧ t.od.answer = [3] ∧ t.od.snap.state = 7 ∧ t.od.snap.code = 3 ∧ t.od.snap.owner = none ∧
          t.flag Reg.OD_EVENT Fld.OD_EVENT_SNAP_DONE = true ∧ s.Keeps t [Reg.OD_EVENT]) ∧
      (∀ code i, s.od.snap.state = 3 → s.od.snap.headerOk = true →
        (s.snapTouch .host).scanRecords 0 s.od.snap.records = some (code, i) →
        ∃ t, exec c s = .next t ∧ t.od.answer = [BitVec.ofNat 8 code.num] ∧ t.od.snap.state = 7 ∧ t.od.snap.code = code.num ∧
          t.od.snap.index = i ∧ t.od.snap.owner = none ∧ t.flag Reg.OD_EVENT Fld.OD_EVENT_SNAP_DONE = true ∧ s.Keeps t [Reg.OD_EVENT]) ∧
      (s.od.snap.state = 3 → s.od.snap.headerOk = true → (s.snapTouch .host).scanRecords 0 s.od.snap.records = none →
        ∃ t, exec c s = .next t ∧ t.od.answer = [0] ∧ t.od.snap.state = 5 ∧ t.od.snap.commit = (c == .applyCommit .host) ∧
          t.od.snap.image = s.od.snap.image ∧ t.od.snap.due = s.tickAt ∧ s.Keeps t []))) ∧
  (s.od.window = none → s.odBusy = false → ∃ t, exec (.snapAbort .host) s = .next t ∧ t.od.answer = [0] ∧ t.od.snap = {} ∧ t.dueOf .snapOwner = none ∧
    s.Keeps t []) ∧
  (s.od.snap.state = 1 →
    ∃ t, exec .snapCapturePass s = .next t ∧ t.ck = max s.ck s.od.snap.due ∧ t.od.snap.state = 2 ∧
      t.od.snap.image = (s.passTo s.od.snap.due).snapImage ∧ t.od.snap.owner = none ∧
      t.reg Reg.OD_EVENT = Fld.OD_EVENT_SNAP_DONE.set (s.reg Reg.OD_EVENT) 1 ∧ s.Keeps t [Reg.TB_EVENT, Reg.OD_EVENT]) ∧
  (s.od.snap.state ≠ 1 → ∃ t, exec .snapCapturePass s = .next t ∧ t.od = s.od ∧ s.Keeps t []) ∧
  (s.od.snap.state = 5 →
    ∃ t, exec .snapApplyPass s = .next t ∧ t.od.snap.state = 6 ∧ t.od.snap.owner = none ∧
      t.flag Reg.OD_EVENT Fld.OD_EVENT_SNAP_DONE = true ∧
      (∀ u, u = (s.passTo s.od.snap.due).when s.od.snap.commit State.cfgCommit →
        (s.od.snap.records.foldl State.applyRecord u).Keeps t [Reg.OD_EVENT] ∧
        ∀ (rest : List (Nat × Nat × List Byte)) (n : PortId) (x : BitVec 16) (v : State),
          s.od.snap.records = rest ++ [(0x400001 + 0x100 * n.val, 3, leBytes 2 x.toNat)] → v = rest.foldl State.applyRecord u →
          x.toNat ≤ 48000 → v.reachable (Reg.LOOP_SET n) = true → v.portWritable n = true →
          t.fld (Reg.LOOP_SET n) Fld.LOOP_SET_VALUE = x.toNat ∧ (t.port n).released = true) ∧
      (s.od.snap.records = [] → t.ck = max s.ck s.od.snap.due ∧ t.commitReq = (s.commitReq || s.od.snap.commit) ∧
        s.Keeps t [Reg.TB_EVENT, Reg.OD_EVENT])) ∧
  (s.od.snap.state ≠ 5 → ∃ t, exec .snapApplyPass s = .next t ∧ t.od = s.od ∧ s.Keeps t []) ∧
  (∀ due, s.dueOf .snapOwner = some due →
    ∃ t, exec .snapOwnerTimeout s = .next t ∧ t.od.snap = {} ∧ t.ck = max s.ck due ∧ t.dueOf .snapOwner = none ∧
      s.Keeps t [Reg.TB_EVENT]) ∧
  (s.hostOpen Reg.OD_KEY_CTL = true → s.keyLevel ≠ 0 →
    (∃ t, exec .keyLoad s = .next t ∧ t.odKey s.keyLevel = s.keyBytes ∧ (∀ w, w < 8 → t.reg (Reg.OD_KEY w) = 0) ∧
      (∀ i, i < 16 → ∀ x, vget t.od.trunk i none = some x → x.level ≠ s.keyLevel) ∧
      (∀ i, i < 16 → ∀ x, vget t.od.tone i none = some x → x.level ≠ s.keyLevel) ∧
      s.Keeps t (Reg.OD_EVENT :: (List.range 8).map Reg.OD_KEY ++ (List.range 16).map Reg.MODEM_EVENT ++
        (List.range 16).map Reg.MODEM_STATUS)) ∧
    (∃ t, exec .keyClear s = .next t ∧ t.keyLoaded s.keyLevel = false ∧
      (∀ i, i < 16 → ∀ x, vget t.od.trunk i none = some x → x.level ≠ s.keyLevel) ∧
      s.Keeps t (Reg.OD_EVENT :: (List.range 16).map Reg.MODEM_EVENT ++ (List.range 16).map Reg.MODEM_STATUS))) ∧
  (s.hostOpen Reg.OD_KEY_CTL = true → s.keyLevel = 0 → ∀ c ∈ [Instr.keyLoad, .keyClear], ∃ t, exec c s = .next t ∧ t.od = s.od ∧ s.Keeps t [])

/-! ### Lanes -/

/-- Lane commands (R178 to R184): RUN checks a stopped lane's chain and enters RUN, or FAULT with the first reason; STOP discards a waiting
activation; HOLD and RESUME change between RUN and HOLD, RESUME not while the guard shows a mismatch; a command that does not fit is CMD_ERR;
CLEAR_LATCH and RESET_STATS wait for the next activation. What triggers a lane (R174, R175): the loop tick whose count comes up, or a delivery to the SRC
block its TRIG_BLK names; a lane in RUN or HOLD joins the queue, or counts an overrun where it waits already; every other lane stays as it
is. -/
def Obligations.LaneCommands : Prop := ∀ (n : LaneId) (s : State),
  (s.on .core = true →
    (s.laneState n = 0 → s.laneCheck n = 0 →
      ∃ t, exec (.laneRun n) s = .next t ∧ t.laneState n = 1 ∧ t.fld (Reg.LANE_EXEC n) Fld.LANE_EXEC_MAX = 0 ∧
        (t.lane n).first = true ∧ (t.lane n).runAt = s.ck ∧
        (∀ b, b < 12 → ((t.lane n).block b).params = s.blkWritten n b ∧ t.flag (Reg.BLK_Q n b) Fld.BLK_Q_PARAM_ERR = false) ∧
        t.flag (Reg.LANE_EVENT n) Fld.LANE_EVENT_STATE = true ∧
        s.Keeps t ([Reg.LANE_STATUS n, Reg.LANE_EVENT n, Reg.LANE_EXEC n] ++ (List.range 12).map (Reg.BLK_Q n))) ∧
    (s.laneState n = 0 → s.laneCheck n ≠ 0 →
      ∃ t, exec (.laneRun n) s = .next t ∧ t.laneState n = 3 ∧ t.fld (Reg.LANE_STATUS n) Fld.LANE_STATUS_FAULT_REASON = s.laneCheck n ∧
        t.flag (Reg.LANE_EVENT n) Fld.LANE_EVENT_FAULT = true ∧
        (s.flag (Reg.LANE_CTL n) Fld.LANE_CTL_FAULT_FS = false →
          s.Keeps t ([Reg.LANE_STATUS n, Reg.LANE_EVENT n] ++ logTouches))) ∧
    (s.laneState n ≠ 0 →
      ∃ t, exec (.laneRun n) s = .next t ∧ t.lanes = s.lanes ∧
        t.reg (Reg.LANE_EVENT n) = Fld.LANE_EVENT_CMD_ERR.set (s.reg (Reg.LANE_EVENT n)) 1 ∧ s.Keeps t [Reg.LANE_EVENT n]) ∧
    (∃ t, exec (.laneStop n) s = .next t ∧ t.laneState n = 0 ∧ t.actQueue = s.actQueue.filter (· != n.val) ∧
      t.flag (Reg.LANE_STATUS n) Fld.LANE_STATUS_MAN_ACTIVE = false ∧ s.Keeps t [Reg.LANE_STATUS n, Reg.LANE_EVENT n]) ∧
    (s.laneState n = 1 →
      ∃ t, exec (.laneHold n) s = .next t ∧ t.laneState n = 2 ∧ t.flag (Reg.LANE_STATUS n) Fld.LANE_STATUS_HOLD_CAUSE = false ∧
        t.flag (Reg.LANE_EVENT n) Fld.LANE_EVENT_STATE = true ∧ s.Keeps t [Reg.LANE_STATUS n, Reg.LANE_EVENT n]) ∧
    (s.laneState n ≠ 1 →
      ∃ t, exec (.laneHold n) s = .next t ∧
        t.reg (Reg.LANE_EVENT n) = Fld.LANE_EVENT_CMD_ERR.set (s.reg (Reg.LANE_EVENT n)) 1 ∧ s.Keeps t [Reg.LANE_EVENT n]) ∧
    (s.laneState n = 2 → s.fld Reg.GUARD_STATUS Fld.GUARD_STATUS_MISMATCH = 0 →
      ∃ t, exec (.laneResume n) s = .next t ∧ t.laneState n = 1 ∧ t.flag (Reg.LANE_EVENT n) Fld.LANE_EVENT_STATE = true ∧
        (n = 0 → ∃ st, t.keeperCore.store = some st ∧ st.nblk = s.laneNblk 0 ∧
          t.flag (Reg.LANE_STATUS n) Fld.LANE_STATUS_TETHER_OK = storeOk st s.tetherCh) ∧
        s.Keeps t [Reg.LANE_STATUS n, Reg.LANE_EVENT n]) ∧
    ((s.laneState n ≠ 2 ∨ s.fld Reg.GUARD_STATUS Fld.GUARD_STATUS_MISMATCH ≠ 0) →
      ∃ t, exec (.laneResume n) s = .next t ∧
        t.reg (Reg.LANE_EVENT n) = Fld.LANE_EVENT_CMD_ERR.set (s.reg (Reg.LANE_EVENT n)) 1 ∧ s.Keeps t [Reg.LANE_EVENT n]) ∧
    (s.hostOpen (Reg.LANE_CTL n) = true →
      (∃ t, exec (.clearLatch n) s = .next t ∧ t.lane n = { s.lane n with latchReq := true } ∧ s.Keeps t []) ∧
      (∃ t, exec (.resetStats n) s = .next t ∧ t.lane n = { s.lane n with closeReq := true } ∧ s.Keeps t []))) ∧
  (s.on .core = false → ∀ k,
    ∀ c ∈ [Instr.laneRun n, .laneStop n, .laneHold n, .laneResume n, .clearLatch n, .resetStats n, .laneActivation ⟨n, false, k⟩,
        .laneActivation ⟨n, true, k⟩],
      ∃ t, exec c s = .next t ∧ t.lanes = s.lanes ∧ s.Keeps t []) ∧
  (∀ (k kind src b : Nat) (p : Word) (u : State) (due : Prop), b = s.fld (Reg.LANE_CFG n) Fld.LANE_CFG_TRIG_BLK → s.blkParam n b 0 = p →
    (u = s.periodDue k ∧ (due ↔ s.fld (Reg.LANE_CFG n) Fld.LANE_CFG_TRIG ≠ 1 ∧ ∀ per,
        per = clampNat 1 10000 (s.fld (Reg.LANE_PERIOD n) Fld.LANE_PERIOD_PERIOD_MS) →
        k % per = s.fld (Reg.LANE_PERIOD n) Fld.LANE_PERIOD_PHASE_MS % per) ∨
      u = s.deliver kind src ∧ (due ↔ s.fld (Reg.LANE_CFG n) Fld.LANE_CFG_TRIG = 1 ∧ s.blkType n b = 1 ∧ s.blkOpt n b % 8 = kind ∧
        src = if kind = 3 then p.toNat / 16 else p.toNat)) →
    ((¬ due ∨ s.on .core = false ∨ s.laneActive n = false) → (n.val ∈ u.actQueue ↔ n.val ∈ s.actQueue) ∧
      u.lane n = s.lane n ∧ u.reg (Reg.LANE_OVERRUN_COUNT n) = s.reg (Reg.LANE_OVERRUN_COUNT n)) ∧
    (due → s.on .core = true → s.laneActive n = true → n.val ∈ u.actQueue ∧
      (n.val ∉ s.actQueue → (u.lane n).dueAt = s.ck ∧ u.reg (Reg.LANE_OVERRUN_COUNT n) = s.reg (Reg.LANE_OVERRUN_COUNT n)) ∧
      (n.val ∈ s.actQueue → u.lane n = s.lane n ∧
        u.reg (Reg.LANE_OVERRUN_COUNT n) = satAdd (s.reg (Reg.LANE_OVERRUN_COUNT n)) 1 ∧
        u.flag (Reg.LANE_EVENT n) Fld.LANE_EVENT_OVERRUN = true))) ∧
  (s.on .core = true → s.tickCore.tick = s.tick + 1 ∧ s.tickCore.actQueue = (s.periodDue s.tick).actQueue)

/-- What configures a lane, and lots (R51, R171, R182, R192): a slot of a stopped lane takes a new BLK_CFG, and a new TYPE loads its
defaults and is no longer set, which LANE_STATUS.ALARM follows; elsewhere a change is refused; a write of LOT_ID sets VALID, CLEAR clears it, and a change of either is an event. -/
def Obligations.LaneConfiguration : Prop := ∀ (n : LaneId) (b : Fin 12) (l : Fin 16) (v : Word) (s : State),
  (s.on .core = true →
    (v &&& blkCfgMask ≠ s.reg (Reg.BLK_CFG n b) → s.locked = true →
      ∃ t, exec (.blkCfgWrite n b v) s = .next t ∧ t.lanes = s.lanes ∧ s.Keeps t []) ∧
    (v &&& blkCfgMask ≠ s.reg (Reg.BLK_CFG n b) → s.locked = false → s.laneState n ≠ 0 →
      ∃ t, exec (.blkCfgWrite n b v) s = .next t ∧ t.lanes = s.lanes ∧
        t.reg (Reg.LANE_EVENT n) = Fld.LANE_EVENT_CFG_REFUSED.set (s.reg (Reg.LANE_EVENT n)) 1 ∧ s.Keeps t [Reg.LANE_EVENT n]) ∧
    (v &&& blkCfgMask ≠ s.reg (Reg.BLK_CFG n b) → s.locked = false → s.laneState n = 0 → Fld.BLK_CFG_TYPE.get v = s.blkType n b →
      ∃ t, exec (.blkCfgWrite n b v) s = .next t ∧ t.reg (Reg.BLK_CFG n b) = v &&& blkCfgMask ∧ s.Keeps t [Reg.BLK_CFG n b]) ∧
    (s.locked = false → s.laneState n = 0 → Fld.BLK_CFG_TYPE.get v ≠ s.blkType n b →
      ∃ t, exec (.blkCfgWrite n b v) s = .next t ∧ t.blkType n b = Fld.BLK_CFG_TYPE.get v ∧
        t.blkOpt n b = (blkDefaults (Fld.BLK_CFG_TYPE.get v) n).1 % 256 ∧
        (∀ j, j < 8 → t.reg (Reg.BLK_P n b j) = par (blkDefaults (Fld.BLK_CFG_TYPE.get v) n).2 j) ∧
        (∀ i, i < 4 → t.reg (Reg.BLK_STATE n b i) = 0) ∧ t.flag (Reg.BLK_Q n b) Fld.BLK_Q_ACTIVE = false ∧
        t.flag (Reg.BLK_Q n b) Fld.BLK_Q_LATCHED = false ∧
        t.flag (Reg.LANE_STATUS n) Fld.LANE_STATUS_ALARM = (List.range (s.laneNblk n)).any (fun k => k != b.val &&
          decide (0x0E ≤ s.blkType n k) && decide (s.blkType n k ≤ 0x10) && s.flag (Reg.BLK_Q n k) Fld.BLK_Q_ACTIVE) ∧
        s.Keeps t (Reg.BLK_CFG n b :: Reg.BLK_Q n b :: Reg.LANE_STATUS n :: (List.range 8).map (Reg.BLK_P n b) ++ (List.range 4).map (Reg.BLK_STATE n b))) ∧
    (∃ t, exec (.lotIdWrite l v) s = .next t ∧ t.reg (Reg.LOT_ID l) = v ∧ t.flag (Reg.LOT_STATUS l) Fld.LOT_STATUS_VALID = true ∧
      ((v ≠ s.reg (Reg.LOT_ID l) ∨ s.flag (Reg.LOT_STATUS l) Fld.LOT_STATUS_VALID = false) →
        t.reg Reg.ENGINE_EVENT = (Fld.ENGINE_EVENT_LOT_CHANGE.bit l).set (s.reg Reg.ENGINE_EVENT) 1) ∧
      s.Keeps t [Reg.LOT_ID l, Reg.LOT_STATUS l, Reg.ENGINE_EVENT]) ∧
    (s.flag (Reg.LOT_STATUS l) Fld.LOT_STATUS_VALID = true →
      ∃ t, exec (.lotClear l) s = .next t ∧ t.flag (Reg.LOT_STATUS l) Fld.LOT_STATUS_VALID = false ∧
        t.reg Reg.ENGINE_EVENT = (Fld.ENGINE_EVENT_LOT_CHANGE.bit l).set (s.reg Reg.ENGINE_EVENT) 1 ∧
        s.Keeps t [Reg.LOT_STATUS l, Reg.ENGINE_EVENT]) ∧
    (s.flag (Reg.LOT_STATUS l) Fld.LOT_STATUS_VALID = false → ∃ t, exec (.lotClear l) s = .next t ∧ s.Keeps t [])) ∧
  (s.on .core = false → ∀ c ∈ [Instr.blkCfgWrite n b v, .lotIdWrite l v, .lotClear l],
    ∃ t, exec c s = .next t ∧ t.lanes = s.lanes ∧ s.Keeps t [])

/-- An activation (R175, R176, R181, R192): the lane at the front of the queue executes; its count, its instant and its lot are those of the
start; no other lane's turn comes, and none while the cores have stopped. Activations due at one instant come in ascending lane number. A
parity error in the lane's state memory puts it in FAULT with STATE_ERR, before a block of it has executed (the model's choice, log entry 63).
A chain of a constant and SCALE leaves both outputs in BLK_Y, one of a constant and LOOP_OUT writes LOOP_SET of its port, or shows HELD_OFF
there (R186, R190); in HOLD it writes nothing, and where a guard action brought the HOLD while the
activation was waiting or running, the blocks that had executed before it did so in RUN (R179; log entry 50). What a block computes (R172, R185 to R195), each formula one binary32 operation at a time, the interior segment of a table too, for which
R186 prints none: y0 + (x − x0) · (y1 − y0) / (x1 − x0), the product first, is the model's choice (log entry 86): the previous Y, NONFINITE and
the state as it was where no number comes about, else a number; constants and sources, the mean of AVG, IIR1 and IIR2, Horner's rule, a
segment and the ends of a table, thermocouple and resistance, SCALE, CLAMP, the PID law with its limits, RAMP, LOOP_OUT, the alarms, DWELL, MKT,
MINMAX and RECORD. That LOOP_OUT writes the counts of the previous Y where no number comes about is the model's choice (log entry 76); exp, ln
and LIN_RTD are the part's own within their accuracy (log entries 5 and 6), LIN_TC is by log entry 7. The order of AVG's rounded sums, oldest
input first, then the division, is the model's choice: R185 gives none (log entry 89); so are IIR2's Y on a BAD input and the order in which its
states of a steady first input are formed. -/
def Obligations.LaneActivation : Prop := ∀ (n : LaneId) (k : Nat) (s : State),
  (s.on .core = true → s.pwr.pfwActive = false → s.actQueue.head? = some n.val →
    ∃ t, exec (.laneActivation ⟨n, true, k⟩) s = .next t ∧ t.laneState n = 3 ∧ t.fld (Reg.LANE_STATUS n) Fld.LANE_STATUS_FAULT_REASON = 7 ∧
      t.flag (Reg.LANE_EVENT n) Fld.LANE_EVENT_FAULT = true ∧ t.actQueue = s.actQueue.tail.filter (· != n.val) ∧
      t.reg (Reg.LANE_ACT_COUNT n) = s.reg (Reg.LANE_ACT_COUNT n) ∧ (∀ b, b < 12 → t.reg (Reg.BLK_Y n b) = s.reg (Reg.BLK_Y n b)) ∧
      (s.flag (Reg.LANE_CTL n) Fld.LANE_CTL_FAULT_FS = false → s.Keeps t ([Reg.LANE_STATUS n, Reg.LANE_EVENT n] ++ logTouches))) ∧
  ((∀ m ∈ s.actQueue, (s.lane m).dueAt = s.ck) → s.actQueue.Pairwise (· < ·) → n.val ∉ s.actQueue →
    (s.actJoin n).Pairwise (· < ·) ∧ ∀ m, m ∈ s.actJoin n ↔ m = n.val ∨ m ∈ s.actQueue) ∧
  (s.on .core = true → s.pwr.pfwActive = false → s.actQueue.head? = some n.val →
    ∃ t, exec (.laneActivation ⟨n, false, k⟩) s = .next t ∧ t.reg (Reg.LANE_ACT_COUNT n) = satAdd (s.reg (Reg.LANE_ACT_COUNT n)) 1 ∧
      pair64 (t.reg (Reg.LANE_ACT_TIME_HI n)) (t.reg (Reg.LANE_ACT_TIME_LO n)) = s.time ∧
      t.reg (Reg.LANE_LOT n) = s.reg (Reg.LOT_ID (s.fld (Reg.LANE_CFG n) Fld.LANE_CFG_STATION)) ∧
      (t.lane n).first = false ∧ (t.lane n).prevStart = s.ck ∧ (t.lane n).doneAt = some s.ck ∧
      (∀ b, s.laneNblk n ≤ b → b < 12 → t.reg (Reg.BLK_Y n b) = s.reg (Reg.BLK_Y n b))) ∧
  (∀ v : Word, s.on .core = true → s.pwr.pfwActive = false → s.actQueue.head? = some n.val → s.laneNblk n = 2 →
    (s.laneState n = 1 ∨ s.laneState n = 2 ∧ (s.lane n).caught = true ∧ 2 ≤ k) →
    s.flag (Reg.LANE_CTL n) Fld.LANE_CTL_MAN = false → s.tableWritten n = (s.lane n).tableSeen →
    (∀ b, b < 2 → ((s.lane n).block b).params = s.blkWritten n b ∧ ((s.lane n).block b).seen = s.blkWritten n b) →
    s.blkType n 0 = 0x01 → s.blkOpt n 0 = 4 → s.reg (Reg.BLK_P n 0 1) = v → fFin v = true →
    (s.fld (Reg.BLK_CFG n 1) Fld.BLK_CFG_IN_A = 0 ∨ s.fld (Reg.BLK_CFG n 1) Fld.BLK_CFG_IN_A = 0xF) →
    (s.blkType n 1 = 0x09 → (s.blkOpt n 1).testBit 0 = false → ∀ g y, fMul (s.reg (Reg.BLK_P n 1 0)) (fFlush v) = some g →
      fAdd g (s.reg (Reg.BLK_P n 1 1)) = some y →
      ∃ t, exec (.laneActivation ⟨n, false, k⟩) s = .next t ∧ t.reg (Reg.BLK_Y n 0) = fFlush v ∧ t.reg (Reg.BLK_Y n 1) = fFlush y ∧
        t.fld (Reg.BLK_Q n 1) Fld.BLK_Q_Q = 0) ∧
    (s.blkType n 1 = 0x0D → ∀ (p : PortId) (a m w z x y : Word) (cnt : Int), (s.reg (Reg.BLK_P n 1 4)).toNat = p.val →
      s.portRuns p = true → s.portWritable p = true → (s.reg (Reg.BLK_P n 1 2)).toNat ≤ (s.reg (Reg.BLK_P n 1 3)).toNat →
      (s.reg (Reg.BLK_P n 1 3)).toNat ≤ 48000 → fSub (fFlush v) (s.reg (Reg.BLK_P n 1 0)) = some a → fMul 0x46FA0000 a = some m →
      fSub (s.reg (Reg.BLK_P n 1 1)) (s.reg (Reg.BLK_P n 1 0)) = some w → fDiv m w = some z → fAdd 0x45FA0000 z = some x →
      cnt = clampInt (s.reg (Reg.BLK_P n 1 2)).toNat (s.reg (Reg.BLK_P n 1 3)).toNat (fToInt x) → fOfInt cnt = some y →
      ∃ t, exec (.laneActivation ⟨n, false, k⟩) s = .next t ∧ t.reg (Reg.BLK_Y n 1) = fFlush y ∧
        ((s.blkOpt n 1).testBit 0 = true ∨ s.flag (Reg.PORT_STATUS p) Fld.PORT_STATUS_FAILSAFE = false →
          (t.fld (Reg.LOOP_SET p) Fld.LOOP_SET_VALUE : Int) = cnt ∧ (t.port p).released = true ∧
          t.flag (Reg.BLK_Q n 1) Fld.BLK_Q_HELD_OFF = false) ∧
        ((s.blkOpt n 1).testBit 0 = false → s.flag (Reg.PORT_STATUS p) Fld.PORT_STATUS_FAILSAFE = true →
          t.reg (Reg.LOOP_SET p) = s.reg (Reg.LOOP_SET p) ∧ (t.port p).released = (s.port p).released ∧
          t.flag (Reg.BLK_Q n 1) Fld.BLK_Q_HELD_OFF = true))) ∧
  (s.on .core = true → s.pwr.pfwActive = false → s.actQueue.head? = some n.val → s.laneNblk n = 2 → s.blkType n 0 = 0x01 →
    s.blkType n 1 = 0x0D → s.laneState n = 2 → ((s.lane n).caught = false ∨ k ≤ 1) →
    ∃ t, exec (.laneActivation ⟨n, false, k⟩) s = .next t ∧ (t.lane n).caught = false ∧
      ∀ p : PortId, t.reg (Reg.LOOP_SET p) = s.reg (Reg.LOOP_SET p) ∧ (t.port p).released = (s.port p).released) ∧
  (∀ (c : Act) (typ : Nat) (i : SlotIn) (r : Res) (nf : Bool), blkRun s c typ i = (r, nf) →
    let x := i.a.1
    let q := i.a.2
    let P (j : Nat) : Word := par i.p j
    let gives (y : Word) : Prop := nf = false ∧ r.y = fFlush y
    (nf = true → r.y = i.y ∧ r.q.testBit 5 = true ∧ r.st = i.st ∧ (c.man.isSome = true → r.q.testBit 7 = true)) ∧
    (nf = false → fFin r.y = true) ∧
    -- SRC, AVG, IIR1, IIR2
    (typ = 0x01 → i.opt % 8 = 4 → fFin (P 1) = true → gives (P 1) ∧ r.q = 0) ∧
    (typ = 0x01 → i.opt % 8 ≠ 4 → fFin c.src.1 = true → gives c.src.1 ∧ r.q = c.src.2) ∧
    (typ = 0x02 → (qBad q = false ∨ i.opt.testBit 0 = true) → ∀ h t k y,
      h = (i.b.hist ++ [x]).drop (i.b.hist.length + 1 - (P 0).toNat) → h ≠ [] → fSum h = some t → fOfInt h.length = some k →
      fDiv t k = some y → gives y ∧ r.q = q ∧ r.b.hist = h) ∧
    (typ = 0x03 → qBad q = false → (i.b.begun = false ∨ fZero (P 0) = true) → fFin x = true → gives x ∧ r.b.begun = true) ∧
    (typ = 0x03 → qBad q = false → i.b.begun = true → fZero (P 0) = false → ∀ dt z e al d m y, secs c.ticks = some dt →
      fDiv (fNeg dt) (P 0) = some z → fExpon z = some e → fSub fOne e = some al → fSub x (nth i.b.w 0 0) = some d → fMul al d = some m →
      fAdd (nth i.b.w 0 0) m = some y → gives y ∧ r.b.w = [fFlush y]) ∧
    (typ = 0x04 → qBad q = false → i.b.begun = true → ∀ b0x b1x b2x a1y a2y y u v w, fMul (P 0) x = some b0x →
      fAdd b0x (nth i.b.w 0 0) = some y → fMul (P 1) x = some b1x → fMul (P 3) y = some a1y → fSub b1x a1y = some u →
      fAdd u (nth i.b.w 1 0) = some v → fMul (P 2) x = some b2x → fMul (P 4) y = some a2y → fSub b2x a2y = some w →
      gives y ∧ r.b.w = [v, w]) ∧
    -- linearisation and scaling
    (typ = 0x05 → fLe x 0 = true → gives 0xC3480000 ∧ r.q = q ||| qRange) ∧
    (typ = 0x06 → ∀ e0 e1 e m y out, tcEmf (i.opt % 4) ((i.ib.map (·.1)).getD (P 0)) = some e0 → fDiv e0 0x447A0000 = some e1 →
      fAdd x e1 = some e → fMul e 0x447A0000 = some m → tcTemp (i.opt % 4) m = some (y, out) → fFin y = true →
      gives y ∧ r.q = qIf out qRange (q ||| (i.ib.map (·.2)).getD 0)) ∧
    (typ = 0x07 → ∀ h m : Nat → Word, h 7 = P 7 → (∀ k, k < 7 → fMul (h (k + 1)) x = some (m k) ∧ fAdd (m k) (P k) = some (h k)) →
      gives (h 0) ∧ r.q = q) ∧
    (typ = 0x08 → 2 ≤ (P 0).toNat → (P 0).toNat ≤ 32 → tableOk c.table (P 0).toNat = true → i.opt.testBit 0 = false →
      (fLt x (par c.table 0) = true → gives (par c.table 1) ∧ r.q = q ||| qRange) ∧
      (fLt (par c.table (2 * ((P 0).toNat - 1))) x = true → gives (par c.table (2 * ((P 0).toNat - 1) + 1)) ∧ r.q = q ||| qRange) ∧
      (∀ k d h m w z y, k + 1 < (P 0).toNat → fLe (par c.table (2 * k)) x = true → fLt x (par c.table (2 * (k + 1))) = true →
        fSub x (par c.table (2 * k)) = some d → fSub (par c.table (2 * (k + 1) + 1)) (par c.table (2 * k + 1)) = some h →
        fMul d h = some m → fSub (par c.table (2 * (k + 1))) (par c.table (2 * k)) = some w → fDiv m w = some z →
        fAdd (par c.table (2 * k + 1)) z = some y → gives y ∧ r.q = q)) ∧
    (typ = 0x09 → ∀ g y, fMul (P 0) x = some g →
      (i.opt.testBit 0 = false → fAdd g (P 1) = some y → gives y ∧ r.q = q) ∧
      (i.opt.testBit 0 = true → ∀ b d, i.ib = some b → fDiv g b.1 = some d → fAdd d (P 1) = some y → gives y ∧ r.q = q ||| b.2) ∧
      (i.opt.testBit 0 = true → ∀ b, i.ib = some b → fZero b.1 = true → nf = true)) ∧
    (typ = 0x0A → fFin x = true → fFin (P 0) = true → fFin (P 1) = true →
      nf = false ∧ fKey r.y = min (max (fKey x) (fKey (P 0))) (fKey (P 1)) ∧ r.q = qIf (fKey r.y != fKey x) qRange q) ∧
    -- control
    (typ = 0x0B → c.hold = true ∨ (qBad q = true ∧ c.man = none) → fFin (par i.st 3) = true →
      gives (par i.st 3) ∧ r.st = i.st ∧ r.bits = Fld.BLK_Q_PV_BAD.put (b2n (qBad q))) ∧
    (typ = 0x0B → c.hold = false → qBad q = false → c.man = none → fLt (P 4) (P 5) = true → fFin (P 4) = true → fFin (P 5) = true →
      ∀ sp sg p ii d t u, sp = (i.ib.map (·.1)).getD (P 6) → sg = (if i.opt.testBit 0 then (0xBF800000 : Word) else fOne) →
        (∃ dt e, secs c.ticks = some dt ∧ fSub sp x = some e ∧
          (i.b.begun = false → (∃ se, fMul sg e = some se ∧ fMul (P 0) se = some p) ∧ ii = P 7 ∧ d = 0) ∧
          (i.b.begun = true → i.b.w = i.p.take 4 ∧
            pidLaw (i.p.take 4) sg sp x (par i.st 2) (par i.st 0) (par i.st 1) dt = some (p, ii, d))) →
        fAdd p ii = some t → fAdd t d = some u →
        (fLe (P 4) u = true → fLe u (P 5) = true → gives u ∧ r.st = [ii, d, x, u]) ∧
        (∀ a j, fLt (P 5) u = true → fSub (P 5) p = some a → fSub a d = some j → gives (P 5) ∧ r.st = [j, d, x, P 5]) ∧
        (∀ a j, fLt u (P 4) = true → fSub (P 4) p = some a → fSub a d = some j → gives (P 4) ∧ r.st = [j, d, x, P 4])) ∧
    (typ = 0x0C → i.b.begun = false → fFin x = true → gives x) ∧
    (typ = 0x0C → i.b.begun = true → fZero (P 0) = false → fZero (P 1) = false → ∀ dt d lo hi y, secs c.ticks = some dt →
      fSub x (nth i.b.w 0 0) = some d → fMul (fNeg (P 1)) dt = some lo → fMul (P 0) dt = some hi →
      fAdd (nth i.b.w 0 0) (fMin (fMax d lo) hi) = some y →
      gives y ∧ r.q = qIf (fKey (fMin (fMax d lo) hi) != fKey d) qRange q) ∧
    (typ = 0x0E → c.hold = false → i.opt = 1 →
      (i.act = false → qBad q = true → i.b.onSince.getD c.start + msCk (P 1).toNat ≤ c.start →
        gives fOne ∧ r.eff = [.fsForce (P 0).toNat true, .entered]) ∧
      (i.act = false → (qBad q = false ∨ c.start < i.b.onSince.getD c.start + msCk (P 1).toNat) → gives 0 ∧ r.eff = []) ∧
      (i.act = true → qBad q = false → i.b.offSince.getD c.start + msCk (P 2).toNat ≤ c.start →
        gives 0 ∧ r.eff = [.fsForce (P 0).toNat false]) ∧
      (i.act = true → (qBad q = true ∨ c.start < i.b.offSince.getD c.start + msCk (P 2).toNat) → gives fOne ∧ r.eff = [])) ∧
    -- alarms
    (∀ (trip clear : Bool) (on off : Nat) (v : Word),
      (typ = 0x0F ∧ v = x ∧ on = (P 3).toNat ∧ off = (P 4).toNat ∧ ∃ h l, (i.opt.testBit 0 = true → fSub (P 0) (P 2) = some h) ∧
          (i.opt.testBit 1 = true → fAdd (P 1) (P 2) = some l) ∧
          trip = (i.opt.testBit 0 && fLt (P 0) x || i.opt.testBit 1 && fLt x (P 1) || i.opt.testBit 4 && qBad q) ∧
          clear = (!qBad q && (!i.opt.testBit 0 || fLe x h) && (!i.opt.testBit 1 || fLe l x))) ∨
        (typ = 0x10 ∧ on = (P 2).toNat ∧ off = (P 3).toNat ∧ ∃ b t, i.ib = some b ∧ fSub x b.1 = some v ∧ fSub (P 0) (P 1) = some t ∧
          trip = (fLt (P 0) (fAbs v) || i.opt.testBit 4 && (qBad q || qBad b.2)) ∧
          clear = (!(i.opt.testBit 4 && (qBad q || qBad b.2)) && fLe (fAbs v) t)) →
      (i.act = false → trip = true → i.b.onSince.getD c.start + msCk on ≤ c.start →
        gives fOne ∧ r.eff = .alarm true (i.opt.testBit 3) v :: (if i.opt.testBit 2 && !c.hold then [.urgent] else [])) ∧
      (i.act = false → (trip = false ∨ c.start < i.b.onSince.getD c.start + msCk on) → gives 0 ∧ r.eff = []) ∧
      (i.act = true → clear = true → i.b.offSince.getD c.start + msCk off ≤ c.start →
        gives 0 ∧ r.eff = [.alarm false (i.opt.testBit 3) v]) ∧
      (i.act = true → (clear = false ∨ c.start < i.b.offSince.getD c.start + msCk off) → gives fOne ∧ r.eff = [])) ∧
    -- integrals, statistics and records
    (typ = 0x11 → i.opt.testBit 0 = false → i.b.begun = true → i.b.restart = false → ∀ ticks dt cut,
      interval c (P 1) = some (ticks, dt, cut) → ∀ old new : Nat, old = (pair64 (par i.st 1) (par i.st 0)).toNat →
      new = old + (if qBad q = false ∧ fLe (P 0) x = true then ticks else 0) → new < 2 ^ 64 →
      ∀ y, fOfRatio new 12288000 = some y → gives y ∧ (pair64 (par r.st 1) (par r.st 0)).toNat = new ∧
        par r.st 3 = par i.st 3 + BitVec.ofNat 32 (b2n cut)) ∧
    (typ = 0x12 → i.b.begun = true → i.b.restart = false → qBad q = true → (∃ dt, interval c (P 2) = some dt) →
      (∃ tr ir, fAdd (P 1) 0x43889333 = some tr ∧ fDiv fOne tr = some ir) → fLt 0 (par i.st 2) = false → fFin x = true →
      gives (fLimit 0xC2480000 0x43160000 x).1 ∧ r.st = [par i.st 0, par i.st 1, par i.st 2, par i.st 3]) ∧
    (typ = 0x13 → (i.b.begun = false ∨ i.b.restart = true) → qBad q = false → i.opt % 4 ≤ 1 → fFin x = true →
      ∀ dt m d, interval c (P 0) = some dt → fMul x dt.2.1 = some m → fAdd 0 m = some d → (∃ e, fAdd 0 dt.2.1 = some e) →
      gives x ∧ par r.st 0 = x ∧ par r.st 1 = x) ∧
    (typ = 0x13 → i.b.begun = true → i.b.restart = false → i.b.hist ≠ [] → qBad q = false → i.opt % 4 ≤ 1 → fFin x = true →
      fFin (par i.st 0) = true → fFin (par i.st 1) = true → ∀ dt m d e, interval c (P 0) = some dt → fMul x dt.2.1 = some m →
      fAdd (par i.st 2) m = some d → fAdd (par i.st 3) dt.2.1 = some e →
      nf = false ∧ fKey r.y = (if i.opt % 4 = 0 then min (fKey (par i.st 0)) (fKey x) else max (fKey (par i.st 1)) (fKey x)) ∧
        par r.st 2 = d ∧ par r.st 3 = e) ∧
    (typ = 0x14 → i.opt % 4 = 0 ∨ i.opt % 4 = 3 →
      ((i.opt % 4 = 0 ∨ c.lot = true) → gives fOne ∧ r.eff = [.record (i.opt.testBit 2) ((P 1).toNat % 65536)]) ∧
      (i.opt % 4 = 3 → c.lot = false → gives 0 ∧ r.eff = []))) ∧
  ((s.pwr.pfwActive = true ∨ s.actQueue.head? ≠ some n.val) →
    ∀ parity, ∃ t, exec (.laneActivation ⟨n, parity, k⟩) s = .next t ∧ t.lanes = s.lanes ∧ t.actQueue = s.actQueue ∧ s.Keeps t [])

/-! ### Trunk -/

/-- Reception (R233 to R238, R242, R250): the host's EN starts the receiver and its self-test, which ends in LINK_READY or SELFTEST_FAIL; a preamble is four
correlations that qualify, and starts acquisition, or captures the receiver from a weaker frame; the delimiter, matched with at most one
symbol in error, freezes the gain and stamps the frame; the header's soft decisions are decoded in at most MAX_ITER iterations (that the
decoder's registers count payload codewords only is the model's choice, log entry 68), and a header that passes is counted and its payload received, but for one
that meets the decoder's reset (R299); one that does not decode or fails sends the receiver to the candidate, or back to search; a frame's end hands it on. -/
def Obligations.TrunkReception : Prop := ∀ (x : Trx) (s : State),
  (s.hostOpen (Reg.TRX_CTL x.idx) = true → s.tdRuns = true → s.locked = false → s.trxOn x = false →
    ∃ t, exec (.trxEnable x) s = .next t ∧ t.trxOn x = true ∧ t.rxState x = 1 ∧ t.dueOf (.selftest x) = some (s.ck + msCk 1) ∧
      t.flag (Reg.TRX_STATUS x.idx) Fld.TRX_STATUS_SELFTEST_OK = false ∧ s.Keeps t [Reg.TRX_CTL x.idx, Reg.TRX_STATUS x.idx]) ∧
  (s.hostOpen (Reg.TRX_CTL x.idx) = true → (s.trxOn x = true ∨ (s.tdRuns = false ∧ s.locked = false)) →
    ∃ t, exec (.trxEnable x) s = .next t ∧ t.trunks = s.trunks ∧ t.timers = s.timers ∧ s.Keeps t []) ∧
  (∀ due, s.dueOf (.selftest x) = some due →
    (s.trxOn x = true → s.limp = false → s.linkReady x = false →
      ∃ t, exec (.selftestEnd x true) s = .next t ∧ t.flag (Reg.TRX_STATUS x.idx) Fld.TRX_STATUS_SELFTEST_OK = true ∧
        t.linkReady x = true ∧ t.flag (Reg.TRX_EVENT x.idx) Fld.TRX_EVENT_LINK_UP = true ∧
        t.dueOf (.silent x) = some (max s.ck due + secCk 1) ∧ s.KeepsSram t) ∧
    (∃ t, exec (.selftestEnd x false) s = .next t ∧ t.flag (Reg.TRX_EVENT x.idx) Fld.TRX_EVENT_SELFTEST_FAIL = true ∧
      t.dueOf (.selftest x) = none ∧ s.Keeps t [Reg.TB_EVENT, Reg.TRX_EVENT x.idx])) ∧
  (s.hostOpen (Reg.TRX_CTL x.idx) = true → s.trxOn x = true → s.locked = false → s.pwr.pfwActive = false →
    ∃ t, exec (.trxDisable x) s = .next t ∧ t.trxOn x = false ∧ t.rxState x = 0 ∧ t.linkReady x = false ∧ (t.trunk x).sending = none ∧
      t.dueOf (.selftest x) = none ∧ t.dueOf (.rxBlank x) = none ∧ s.KeepsSram t) ∧
  (∀ p : Preamble, preambleQualifies p (s.fld (Reg.TRX_DETECT x.idx) Fld.TRX_DETECT_DET_THRESH) = false →
    ∃ t, exec (.preambleQualify x p) s = .next t ∧ t.trunks = s.trunks ∧ t.timers = s.timers ∧ s.Keeps t []) ∧
  (∀ p : Preamble, s.trxOn x = true → (s.trunk x).inReset = false →
    preambleQualifies p (s.fld (Reg.TRX_DETECT x.idx) Fld.TRX_DETECT_DET_THRESH) = true →
    ((s.rxState x = 1 ∨ (s.rxState x = 2 ∧ s.beats p (s.trunk x).level (s.trunk x).chip (s.trunk x).qualAt = true)) →
      ∃ t, exec (.preambleQualify x p) s = .next t ∧ t.rxState x = 2 ∧ (t.trunk x).level = p.level ∧ (t.trunk x).chip = p.offset ∧
        t.dueOf (.acq x) = some (s.ck + sf64x48) ∧ s.Keeps t [Reg.TRX_STATUS x.idx, Reg.TRX_LEVEL x.idx]) ∧
    (s.rxState x = 2 → s.beats p (s.trunk x).level (s.trunk x).chip (s.trunk x).qualAt = false →
      ∃ t, exec (.preambleQualify x p) s = .next t ∧ (t.trunk x).level = (s.trunk x).level ∧ t.timers = s.timers ∧ s.Keeps t []) ∧
    ((s.rxState x = 4 ∨ (s.rxState x = 3 ∧ (s.trunk x).tookOver ≠ some s.ck)) → 2 ≤ chipGap p.offset (s.trunk x).chip →
      s.flag (Reg.TRX_CTL x.idx) Fld.TRX_CTL_CAPTURE_EN = true → (p.clip = true ∨ s.levelF x + s.capMargin x ≤ p.level) →
      ∃ t, exec (.preambleQualify x p) s = .next t ∧ t.rxState x = 2 ∧ (t.trunk x).level = p.level ∧ (t.trunk x).job = none ∧
        t.reg (Reg.TRX_CAPTURE_COUNT x.idx) = satAdd (s.reg (Reg.TRX_CAPTURE_COUNT x.idx)) 1 ∧
        t.flag (Reg.TRX_EVENT x.idx) Fld.TRX_EVENT_CAPTURE = true ∧
        t.reg (Reg.TRX_LOST_TO_CAPTURE x.idx) =
          satAdd (s.reg (Reg.TRX_LOST_TO_CAPTURE x.idx)) (if s.rxState x = 4 then 1 else 0) ∧
        s.Keeps t [Reg.TRX_STATUS x.idx, Reg.TRX_LEVEL x.idx, Reg.TRX_EVENT x.idx, Reg.TRX_CAPTURE_COUNT x.idx,
          Reg.TRX_LOST_TO_CAPTURE x.idx])) ∧
  (∀ (syms : BitVec 16) (level gain : Int) (shadow : Bool), delimiterMatches syms = false →
    ∃ t, exec (.delimiterDetect x syms ⟨level, gain⟩ shadow) s = .next t ∧ t.trunks = s.trunks ∧ t.timers = s.timers ∧ s.Keeps t []) ∧
  (∀ (syms : BitVec 16) (level gain : Int), delimiterMatches syms = true → s.trxOn x = true → s.rxState x = 2 → -32768 ≤ level →
    level < 32768 →
    ∃ t, exec (.delimiterDetect x syms ⟨level, gain⟩ false) s = .next t ∧ t.rxState x = 3 ∧ t.levelF x = level ∧
      t.flag (Reg.TRX_STATUS x.idx) Fld.TRX_STATUS_AGC_FROZEN = true ∧
      pair64 (t.reg (Reg.TRX_RX_TIME_HI x.idx)) (t.reg (Reg.TRX_RX_TIME_LO x.idx)) = s.time ∧ t.dueOf (.acq x) = none ∧
      s.Keeps t [Reg.TRX_STATUS x.idx, Reg.TRX_LEVEL x.idx, Reg.TRX_RX_TIME_LO x.idx, Reg.TRX_RX_TIME_HI x.idx]) ∧
  (∀ due, s.dueOf (.acq x) = some due → s.rxState x = 2 →
    ∃ t, exec (.acqTimeout x) s = .next t ∧ t.rxState x = 1 ∧
      t.reg (Reg.TRX_ACQ_TIMEOUT_COUNT x.idx) = satAdd (s.reg (Reg.TRX_ACQ_TIMEOUT_COUNT x.idx)) 1 ∧
      t.flag (Reg.TRX_EVENT x.idx) Fld.TRX_EVENT_ACQ_TIMEOUT = true ∧
      s.Keeps t [Reg.TB_EVENT, Reg.TRX_STATUS x.idx, Reg.TRX_EVENT x.idx, Reg.TRX_ACQ_TIMEOUT_COUNT x.idx]) ∧
  (s.trxOn x = true → s.rxState x = 3 →
    (∀ soft h, decodeHeader s.maxIter soft = some h → hdrPasses h s.opCode = true → s.decResetting = true →
      ∃ t, exec (.headerDecision x soft) s = .next t ∧ t.rxState x = 1 ∧ (t.trunk x).job = (s.trunk x).job ∧
        t.flag (Reg.TRX_STATUS x.idx) Fld.TRX_STATUS_AGC_FROZEN = false ∧
        t.reg (Reg.TRX_RX_FRAME_COUNT x.idx) = satAdd (s.reg (Reg.TRX_RX_FRAME_COUNT x.idx)) 1 ∧ s.KeepsSram t) ∧
    (∀ soft h, decodeHeader s.maxIter soft = some h → hdrPasses h s.opCode = true → s.decResetting = false →
      ∃ t, exec (.headerDecision x soft) s = .next t ∧ t.rxState x = 4 ∧
        t.reg (Reg.TRX_RX_FRAME_COUNT x.idx) = satAdd (s.reg (Reg.TRX_RX_FRAME_COUNT x.idx)) 1 ∧
        t.fld (Reg.TRX_STATUS x.idx) Fld.TRX_STATUS_RX_SF = hdrBits h 122 2 ∧
        t.flag (Reg.TRX_STATUS x.idx) Fld.TRX_STATUS_LINK_SILENT = false ∧ (t.trunk x).job.map (·.hdr) = some h ∧ s.KeepsSram t) ∧
    (∀ soft, (∀ h, decodeHeader s.maxIter soft = some h → hdrPasses h s.opCode = false) → (s.trunk x).cand = none →
      ∃ t, exec (.headerDecision x soft) s = .next t ∧ t.rxState x = 1 ∧ t.flag (Reg.TRX_STATUS x.idx) Fld.TRX_STATUS_AGC_FROZEN = false ∧
        t.reg (Reg.TRX_HDR_FAIL_COUNT x.idx) = satAdd (s.reg (Reg.TRX_HDR_FAIL_COUNT x.idx)) 1 ∧
        t.flag (Reg.TRX_EVENT x.idx) Fld.TRX_EVENT_FALSE_DETECT = true ∧
        s.Keeps t [Reg.TRX_STATUS x.idx, Reg.TRX_EVENT x.idx, Reg.TRX_HDR_FAIL_COUNT x.idx]) ∧
    (∀ soft, (∀ h, decodeHeader s.maxIter soft = some h → hdrPasses h s.opCode = false) → ∀ c, (s.trunk x).cand = some c →
      ∃ t, exec (.headerDecision x soft) s = .next t ∧ t.rxState x = (if c.found then 3 else 2) ∧ (t.trunk x).cand = none ∧
        (t.trunk x).level = c.level ∧ (t.trunk x).tookOver = (if c.found then some s.ck else none) ∧
        t.reg (Reg.TRX_HDR_FAIL_COUNT x.idx) = satAdd (s.reg (Reg.TRX_HDR_FAIL_COUNT x.idx)) 1 ∧
        (c.found = true → pair64 (t.reg (Reg.TRX_RX_TIME_HI x.idx)) (t.reg (Reg.TRX_RX_TIME_LO x.idx)) = c.time) ∧
        s.Keeps t [Reg.TRX_STATUS x.idx, Reg.TRX_EVENT x.idx, Reg.TRX_HDR_FAIL_COUNT x.idx, Reg.TRX_LEVEL x.idx,
          Reg.TRX_RX_TIME_LO x.idx, Reg.TRX_RX_TIME_HI x.idx])) ∧
  (∀ snr : Int, s.trxOn x = true → s.rxState x = 4 →
    ∃ t, exec (.rxFrameEnd x snr) s = .next t ∧ t.rxState x = 1 ∧ (t.trunk x).job = none ∧
      (t.trunk x).frames = (s.trunk x).frames ++ (s.trunk x).job.toList ∧
      t.flag (Reg.TRX_STATUS x.idx) Fld.TRX_STATUS_AGC_FROZEN = false ∧ s.Keeps t [Reg.TRX_STATUS x.idx, Reg.TRX_SNR x.idx]) ∧
  (s.trxOn x = true → 2 ≤ s.rxState x → s.rxState x ≤ 4 →
    ∃ t, exec (.clip x) s = .next t ∧ t.reg (Reg.TRX_EVENT x.idx) = Fld.TRX_EVENT_CLIP.set (s.reg (Reg.TRX_EVENT x.idx)) 1 ∧
      s.Keeps t [Reg.TRX_EVENT x.idx]) ∧
  (∀ due, s.dueOf (.silent x) = some due → s.linkReady x = true →
    ∃ t, exec (.linkSilent x) s = .next t ∧ t.flag (Reg.TRX_STATUS x.idx) Fld.TRX_STATUS_LINK_SILENT = true ∧
      t.flag (Reg.TRX_EVENT x.idx) Fld.TRX_EVENT_LINK_SILENT = true ∧ t.dueOf (.silent x) = none ∧ s.KeepsSram t) ∧
  (∀ due, s.dueOf (.rxBlank x) = some due → s.rxState x = 6 →
    ∃ t, exec (.rxBlankEnd x) s = .next t ∧ t.rxState x = 1 ∧ s.Keeps t [Reg.TB_EVENT, Reg.TRX_STATUS x.idx])

/-- Sending, predistortion and the bypass (R227, R230 to R232, R239 to R244): the next frame starts at a chip boundary when nothing holds it, with
its hop number, and is stamped at its reference instant; on the line stand its preamble and delimiter, and from that instant its coded header
with the stamp and its codewords with their pilots; its end is counted and blanks the receiver; a solve ends 200 µs after its frame and gives
the next set, or goes back to the one before the update it judges (R241). That a pause is counted at each frame's end and a RESET kept for the next frame is read from the
rules (log entry 54); which set a solve judges is the model's choice (log entry 68). RESET asks for the identity; the bypass opens with both ports searching and the node
isolated; a cause to close it cuts what is being sent, and it closes with the queues discarded. -/
def Obligations.TrunkSending : Prop := ∀ (x : Trx) (s : State),
  (∀ f, nextFrame (s.trunk x).queue = some f → s.txAllowed x = true →
    ∃ t, exec (.txStart x) s = .next t ∧ t.ck = chipAt (max s.ck (s.txFrom x)) ∧ t.rxState x = 5 ∧
      (t.trunk x).queue = (s.trunk x).queue.erase f ∧ (t.trunk x).hopSeq = (s.trunk x).hopSeq + 1 ∧
      (t.trunk x).sending.map (·.prio) = some f.prio ∧
      (t.trunk x).refAt = t.ck + sf64x48 ∧ (t.trunk x).stamped = false ∧ (t.trunk x).sentCoef = t.dpdSet x ∧
      s.Keeps t ([Reg.TB_EVENT, Reg.TRX_STATUS x.idx] ++ (List.range 15).map (dpdReg x))) ∧
  (∀ f, (s.trunk x).sending = some f → (s.trunk x).stamped = false → (s.trunk x).refAt ≤ s.ck →
    pair64 ((s.refTake x).reg (Reg.TRX_TX_TIME_HI x.idx)) ((s.refTake x).reg (Reg.TRX_TX_TIME_LO x.idx)) =
        (s.stampAt (s.trunk x).refAt).1 ∧
      (s.refTake x).flag (Reg.TRX_STATUS x.idx) Fld.TRX_STATUS_TX_TB_VALID = (s.stampAt (s.trunk x).refAt).2 ∧
      ((s.refTake x).trunk x).stamped = true ∧
      s.Keeps (s.refTake x) [Reg.TRX_TX_TIME_LO x.idx, Reg.TRX_TX_TIME_HI x.idx, Reg.TRX_STATUS x.idx]) ∧
  (((s.trunk x).stamped = true ∨ s.ck < (s.trunk x).refAt) → s.refTake x = s) ∧
  (∀ f, (s.trunk x).sending = some f → (s.trunk x).stamped = false →
    (s.ck < (s.trunk x).refAt → (s.lineSymbols x).1.map (·.1) = startSymbols.map (·.2)) ∧
    ((s.trunk x).refAt ≤ s.ck → f.kind ≠ .cycle → (s.lineSymbols x).1.map (·.1) =
      (frameSymbols (s.trunk x).sentSf (codeHeader (stampHdr (s.trunk x).hdrBits (lo32 (s.stampAt (s.trunk x).refAt).1)))
        (s.trunk x).sentCws).map (·.2))) ∧
  ((nextFrame (s.trunk x).queue = none ∨ s.txAllowed x = false) →
    ∃ t, exec (.txStart x) s = .next t ∧ t.trunks = s.trunks ∧ t.ck = s.ck ∧ s.Keeps t []) ∧
  (∀ f, (s.trunk x).sending = some f → s.pwr.pfwActive = false →
    ∃ t, exec (.txEnd x) s = .next t ∧ t.ck = max s.ck (s.trunk x).sendEnd ∧ t.rxState x = 6 ∧ (t.trunk x).sending = none ∧
      t.reg (Reg.TRX_TX_FRAME_COUNT x.idx) = satAdd (s.reg (Reg.TRX_TX_FRAME_COUNT x.idx)) 1 ∧
      t.dueOf (.rxBlank x) = some (t.ck + usCk (max 2 (s.fld (Reg.TRX_TIMING x.idx) Fld.TRX_TIMING_RX_BLANK))) ∧
      ((s.trunk x).stamped = false → (s.trunk x).refAt ≤ t.ck →
        pair64 (t.reg (Reg.TRX_TX_TIME_HI x.idx)) (t.reg (Reg.TRX_TX_TIME_LO x.idx)) =
          ((s.passTo (s.trunk x).sendEnd).stampAt (s.trunk x).refAt).1) ∧
      t.fld Reg.DPD_STATUS (pauseFld x) = s.fld Reg.DPD_STATUS (pauseFld x) - 1 ∧
      (s.adapts x = true → t.dueOf (.dpd x) = some (t.ck + usCk 200) ∧
        (t.trunk x).dpdRun.map (fun r => (r.coef, r.learns)) =
          some ((s.trunk x).coef, s.fld Reg.DPD_STATUS (pauseFld x) == 0) ∧
        ((s.trunk x).fresh = true → (s.trunk x).sentCoef = (s.trunk x).coef →
          (t.trunk x).dpdRun.map (·.prev) = some (s.trunk x).prevCoef)) ∧
      s.Keeps t [Reg.TB_EVENT, Reg.TRX_STATUS x.idx, Reg.TRX_EVENT x.idx, Reg.TRX_TX_FRAME_COUNT x.idx, Reg.TRX_TX_TIME_LO x.idx,
        Reg.TRX_TX_TIME_HI x.idx, Reg.DPD_STATUS, Reg.RING_TX_STATUS, Reg.RING_EVENT]) ∧
  ((s.trunk x).sending = none → ∃ t, exec (.txEnd x) s = .next t ∧ t.trunks = s.trunks ∧ s.Keeps t []) ∧
  (∀ (ls : List Word) (err : Int) (due : Nat), s.tdRuns = true → s.dueOf (.dpd x) = some due →
    (∀ r, (s.trunk x).dpdRun = some r →
      (∀ e, (s.trunk x).errs.head? = some e → r.prev.isSome = true → e + 12 < err →
        ∃ t, exec (.dpdSolve x ls err) s = .next t ∧ t.ck = max s.ck due ∧ (t.trunk x).nextCoef = r.prev ∧
          (t.trunk x).prevCoef = none ∧ (t.trunk x).goesBack = true ∧
          t.reg Reg.DPD_REVERT_COUNT = satAdd (s.reg Reg.DPD_REVERT_COUNT) 1 ∧ t.fld Reg.DPD_STATUS (pauseFld x) = 16 ∧
          t.dueOf (.dpd x) = none ∧ s.Keeps t [Reg.TB_EVENT, Reg.DPD_ERR, Reg.DPD_STATUS, Reg.DPD_EVENT, Reg.DPD_REVERT_COUNT]) ∧
      ((∀ e, (s.trunk x).errs.head? = some e → r.prev.isSome = true → err ≤ e + 12) →
        ∃ t, exec (.dpdSolve x ls err) s = .next t ∧ t.ck = max s.ck due ∧ (t.trunk x).errs = (err :: (s.trunk x).errs).take 4 ∧
          (r.learns = true → (t.trunk x).nextCoef.isSome = true) ∧ (r.learns = false → (t.trunk x).nextCoef = (s.trunk x).nextCoef) ∧
          (t.trunk x).coef = (s.trunk x).coef ∧ (t.trunk x).dpdRun = none ∧ t.dueOf (.dpd x) = none ∧
          s.Keeps t [Reg.TB_EVENT, Reg.DPD_ERR, Reg.DPD_STATUS])) ∧
    ((s.trunk x).dpdRun = none →
      ∃ t, exec (.dpdSolve x ls err) s = .next t ∧ t.trunks = s.trunks ∧ t.dueOf (.dpd x) = none ∧ s.Keeps t [Reg.TB_EVENT])) ∧
  (s.hostOpen Reg.DPD_CTL = true → s.tdRuns = true →
    (∃ t, exec .dpdResetTw s = .next t ∧ t.trunk .tw = { s.trunk .tw with ident := true } ∧ t.trunk .te = s.trunk .te ∧ s.Keeps t []) ∧
    (∃ t, exec .dpdResetTe s = .next t ∧ t.trunk .te = { s.trunk .te with ident := true } ∧ t.trunk .tw = s.trunk .tw ∧ s.Keeps t [])) ∧
  (s.hostOpen Reg.DPD_CTL = true → s.tdRuns = false → ∀ c ∈ [Instr.dpdResetTw, .dpdResetTe],
    ∃ t, exec c s = .next t ∧ t.trunks = s.trunks ∧ s.Keeps t []) ∧
  (s.tdRuns = true → s.bypassed = true → s.bypassCause = false →
    ∃ t, exec .bypassOpened s = .next t ∧ t.bypassed = false ∧ t.flag Reg.BD_STATUS Fld.BD_STATUS_BYPASS_CLOSED = false ∧
      t.flag Reg.BD_EVENT Fld.BD_EVENT_BYPASS = true ∧ t.ringRole = 0 ∧ t.rxState .tw = 1 ∧ t.rxState .te = 1 ∧
      t.dueOf .noCycle = some (s.ck + msCk (3 * s.ring.opMs)) ∧ s.KeepsSram t) ∧
  (s.on .trunk = true → s.bypassed = false → s.ring.closing = false → s.bypassCause = true →
    s.bypassCheck.ring.closing = true ∧ (s.bypassCheck.trunk .tw).sending = none ∧ (s.bypassCheck.trunk .te).sending = none ∧
      s.bypassCheck.txAllowed x = false) ∧
  (s.on .trunk = true → s.bypassed = false → (s.ring.closing = true ∨ s.bypassCause = true) → s.pwr.pfwActive = false →
    ∃ t, exec .bypassClosed s = .next t ∧ t.bypassed = true ∧ t.flag Reg.BD_STATUS Fld.BD_STATUS_BYPASS_CLOSED = true ∧
      t.flag Reg.BD_EVENT Fld.BD_EVENT_BYPASS = true ∧ t.ringRole = 3 ∧ (t.trunk .tw).queue = [] ∧ (t.trunk .te).queue = [] ∧
      (t.trunk .tw).sending = none ∧ (t.trunk .te).sending = none ∧ t.ring.masterKey = none ∧ t.ring.closing = false ∧
      s.KeepsSram t) ∧
  ((s.tdRuns = false ∨ s.bypassed = false ∨ s.bypassCause = true) →
    ∃ t, exec .bypassOpened s = .next t ∧ t.trunks = s.trunks ∧ t.ring = s.ring ∧ s.Keeps t []) ∧
  ((s.on .trunk = false ∨ s.bypassed = true ∨ (s.ring.closing = false ∧ s.bypassCause = false)) →
    ∃ t, exec .bypassClosed s = .next t ∧ t.trunks = s.trunks ∧ t.ring = s.ring ∧ s.Keeps t [])

/-! ### Ring -/

/-- Messages that arrive (R250, R254, R255, R262, R263, R268, R270 to R273): a codeword is decoded within MAX_ITER iterations, counted and joins
its frame; a frame decoded in full is dropped, counted as a duplicate, heard by a bypassed node, or delivered and forwarded with HOPS + 1; a
delivered message enters the queue of 8; a number once seen is a duplicate. -/
def Obligations.RingMessages : Prop := ∀ (x : Trx) (s : State),
  (∀ u q0 q : List Int,
    (∀ (j : DecJob) (pass : Bool) (k : Nat) (info : List Byte), (s.trunk x).decoding = some j → s.tdRuns = true →
      decodePayload j.sf s.maxIter (u ++ q0 ++ q) = (pass, k, info) → k ≤ s.maxIter ∧ s.maxIter ≤ 16 ∧
      (pass = true → ∃ t, exec (.codewordDecoded x u q0 q) s = .next t ∧
        t.reg Reg.DEC_CW_COUNT = satAdd (s.reg Reg.DEC_CW_COUNT) 1 ∧ t.reg Reg.DEC_ITER_SUM = satAdd (s.reg Reg.DEC_ITER_SUM) k ∧
        t.fld Reg.DEC_STATUS Fld.DEC_STATUS_LAST_ITER = k ∧
        t.fld Reg.DEC_STATUS Fld.DEC_STATUS_PEAK_ITER = max k (s.fld Reg.DEC_STATUS Fld.DEC_STATUS_PEAK_ITER) ∧
        (∃ j' ∈ (t.trunk x).frames ++ (t.trunk x).job.toList, j'.hdr = j.hdr ∧ j'.got = j.got + 1 ∧
          j'.bytes = j.bytes ++ sliceBytes info 0 (cwBytes j.sf) ∧ j'.pass = j.pass) ∧ s.KeepsSram t) ∧
      (pass = false → ∃ t, exec (.codewordDecoded x u q0 q) s = .next t ∧
        t.reg Reg.DEC_CW_COUNT = satAdd (s.reg Reg.DEC_CW_COUNT) 1 ∧
        t.reg Reg.DEC_CW_FAIL_COUNT = satAdd (s.reg Reg.DEC_CW_FAIL_COUNT) 1 ∧ t.flag Reg.DEC_EVENT Fld.DEC_EVENT_CW_FAIL = true ∧
        t.fld Reg.DEC_STATUS Fld.DEC_STATUS_LAST_ITER = k ∧
        (∃ j' ∈ (t.trunk x).frames ++ (t.trunk x).job.toList, j'.hdr = j.hdr ∧ j'.got = j.got + 1 ∧ j'.pass = false) ∧
        s.Keeps t [Reg.DEC_CW_COUNT, Reg.DEC_CW_FAIL_COUNT, Reg.DEC_EVENT, Reg.DEC_STATUS])) ∧
    ((s.trunk x).decoding = none → ∃ t, exec (.codewordDecoded x u q0 q) s = .next t ∧ t.trunks = s.trunks ∧ s.Keeps t [])) ∧
  ((s.trunk x).frames.find? DecJob.complete = none →
    ∃ t, exec (.ringMessageAccept x) s = .next t ∧ t.trunks = s.trunks ∧ t.ring = s.ring ∧ s.Keeps t []) ∧
  (∀ j, (s.trunk x).frames.find? DecJob.complete = some j → s.tdRuns = true → s.ring.inReset = false → s.ring.held = [] →
    (s.ringAccepts j = false →
      ∃ t, exec (.ringMessageAccept x) s = .next t ∧ (t.trunk x).frames = (s.trunk x).frames.erase j ∧
        t.reg Reg.RING_DROP_COUNT = satAdd (s.reg Reg.RING_DROP_COUNT) 1 ∧ t.ring.inbox = s.ring.inbox ∧
        s.Keeps t [Reg.RING_DROP_COUNT, Reg.RING_EVENT]) ∧
    (s.ringAccepts j = true → s.bypassed = true →
      ∃ t, exec (.ringMessageAccept x) s = .next t ∧ (t.trunk x).frames = (s.trunk x).frames.erase j ∧
        t.reg Reg.RING_BYPASS_RX_COUNT = satAdd (s.reg Reg.RING_BYPASS_RX_COUNT) 1 ∧
        (j.msg.typ = 1 → t.fld Reg.RING_STATUS Fld.RING_STATUS_MASTER = leAt j.msg.body 16 1 % 128 ∧
          t.reg Reg.RING_CYCLE_NO = BitVec.ofNat 32 (leAt j.msg.body 0 4)) ∧
        t.ring.inbox = s.ring.inbox ∧ s.Keeps t [Reg.RING_BYPASS_RX_COUNT, Reg.RING_EVENT, Reg.RING_STATUS, Reg.RING_CYCLE_NO]) ∧
    (s.ringAccepts j = true → s.bypassed = false → s.keyElsewhere x j.key = false →
      (j.msg.typ = 1 →
        ∃ t, exec (.ringMessageAccept x) s = .next t ∧ (t.trunk x).frames = (s.trunk x).frames.erase j ∧
          t.reg Reg.RING_RX_MSG_COUNT = satAdd (s.reg Reg.RING_RX_MSG_COUNT) 1 ∧
          t.ring.inbox.map (fun r => (r.bytes, r.port, r.time)) =
            s.ring.inbox.map (fun r => (r.bytes, r.port, r.time)) ++ [(j.bytesOf, x, j.time)] ∧
          s.Keeps t [Reg.RING_RX_MSG_COUNT, Reg.RING_EVENT]) ∧
      (j.msg.typ ≠ 1 → s.fromMe j.msg = true →
        ∃ t, exec (.ringMessageAccept x) s = .next t ∧ t.reg Reg.RING_RX_MSG_COUNT = satAdd (s.reg Reg.RING_RX_MSG_COUNT) 1 ∧
          t.flag Reg.RING_STATUS Fld.RING_STATUS_ADDR_CONFLICT =
            (s.flag Reg.RING_STATUS Fld.RING_STATUS_ADDR_CONFLICT || !s.ring.own.contains j.msg.seq) ∧
          t.ring.inbox = s.ring.inbox ∧ s.KeepsSram t) ∧
      (j.msg.typ ≠ 1 → s.fromMe j.msg = false → s.isDup j.msg.src j.msg.seq = true →
        ∃ t, exec (.ringMessageAccept x) s = .next t ∧ t.reg Reg.RING_RX_MSG_COUNT = satAdd (s.reg Reg.RING_RX_MSG_COUNT) 1 ∧
          t.reg Reg.RING_DUP_COUNT = satAdd (s.reg Reg.RING_DUP_COUNT) 1 ∧ t.ring.inbox = s.ring.inbox ∧
          t.trunk x.other = s.trunk x.other ∧ s.Keeps t [Reg.RING_RX_MSG_COUNT, Reg.RING_DUP_COUNT, Reg.RING_EVENT]) ∧
      (5 ≤ j.msg.typ → s.fromMe j.msg = false → s.isDup j.msg.src j.msg.seq = false → (s.trunk x.other).queue.length < 4 →
        j.msg.body.length + 16 ≤ maxMessage s.opSf →
        ∃ t, exec (.ringMessageAccept x) s = .next t ∧ t.reg Reg.RING_RX_MSG_COUNT = satAdd (s.reg Reg.RING_RX_MSG_COUNT) 1 ∧
          t.ring.inbox.map (·.bytes) = s.ring.inbox.map (·.bytes) ++ (if (s.routes j.msg).1 then [j.bytesOf] else []) ∧
          (t.trunk x.other).queue = (s.trunk x.other).queue ++
            (if (s.routes j.msg).2 && !j.fwd then [{ prio := j.prio, msg := { j.msg with hops := j.msg.hops + 1 }.bytes }] else []) ∧
          (filtered j.msg.src = true → t.dueOf (.dupEntry j.msg.src) = some (s.ck + secCk 10)) ∧
          s.Keeps t [Reg.RING_RX_MSG_COUNT, Reg.RING_EVENT]))) ∧
  (∀ p ∈ [(Instr.ringOdResp, 0), (.ringRecord, 1), (.ringEvent, 2), (.ringMailbox, 3), (.ringLastGasp, 4)], s.tdRuns = true →
    ∀ r, s.ring.inbox.find? (fun r => (readMsg r.bytes).typ == 5 + p.2) = some r →
      (p.2 ≠ 2 ∨ s.ringRole ≠ 2 ∨ leAt (readMsg r.bytes).body 0 2 ≠ 0x10) →
      ((Fld.RING_RX_CTL_ACCEPT.bit p.2).on (s.reg Reg.RING_RX_CTL) = true → s.ring.rxq.length < 8 →
        ∃ t, exec p.1 s = .next t ∧ t.ring.rxq = s.ring.rxq ++ [r] ∧ t.ring.inbox = s.ring.inbox.erase r ∧
          t.reg Reg.RING_EVENT = Fld.RING_EVENT_RX_MSG.set (s.reg Reg.RING_EVENT) 1 ∧ s.Keeps t [Reg.RING_EVENT]) ∧
      ((Fld.RING_RX_CTL_ACCEPT.bit p.2).on (s.reg Reg.RING_RX_CTL) = true → 8 ≤ s.ring.rxq.length →
        ∃ t, exec p.1 s = .next t ∧ t.ring.rxq = s.ring.rxq ∧ t.ring.inbox = s.ring.inbox.erase r ∧
          t.reg Reg.RING_RX_LOST_COUNT = satAdd (s.reg Reg.RING_RX_LOST_COUNT) 1 ∧
          t.flag Reg.RING_EVENT Fld.RING_EVENT_RX_OVERRUN = true ∧ s.Keeps t [Reg.RING_EVENT, Reg.RING_RX_LOST_COUNT]) ∧
      ((Fld.RING_RX_CTL_ACCEPT.bit p.2).on (s.reg Reg.RING_RX_CTL) = false →
        ∃ t, exec p.1 s = .next t ∧ t.ring = { s.ring with inbox := s.ring.inbox.erase r } ∧ s.Keeps t [])) ∧
  (∀ r, s.ring.inbox.find? (fun r => (readMsg r.bytes).typ == 7) = some r → s.tdRuns = true → s.ringRole = 2 →
    leAt (readMsg r.bytes).body 0 2 = 0x10 →
    ∃ t, exec .ringEvent s = .next t ∧ t.ring.inbox = s.ring.inbox.erase r ∧ t.flag Reg.RING_TOPO Fld.RING_TOPO_BREAK_VALID = true ∧
      t.fld Reg.RING_TOPO Fld.RING_TOPO_BREAK_HOP = (if leAt (readMsg r.bytes).body 2 2 = 1 then (readMsg r.bytes).src
        else leAt (readMsg r.bytes).body 12 4) % 128 ∧
      t.flag Reg.RING_EVENT Fld.RING_EVENT_BREAK_LOCATED = true ∧ s.Keeps t [Reg.RING_TOPO, Reg.RING_EVENT, Reg.RING_RX_LOST_COUNT]) ∧
  (∀ p ∈ [(Instr.ringCycle, 1), (.ringTime, 2), (.ringOdResp, 5), (.ringRecord, 6), (.ringEvent, 7), (.ringMailbox, 8), (.ringLastGasp, 9)],
    (s.tdRuns = false ∨ s.ring.inbox.find? (fun r => (readMsg r.bytes).typ == p.2) = none) →
      ∃ t, exec p.1 s = .next t ∧ t.ring = s.ring ∧ t.trunks = s.trunks ∧ s.Keeps t []) ∧
  (∀ (e : DupEntry) (q : BitVec 16), ((e.take q).2.take q).1 = true ∧
    ((e.take q).1 = true ↔ q = e.high ∨ (0 < (e.high - q).toNat ∧ (e.high - q).toNat ≤ 32 ∧ e.mask.getLsbD ((e.high - q).toNat - 1) = true)))

/-- The host's messages (R252, R266, R271, R272): a SEND is refused with ERR, or takes the next MSG_SEQ and queues the staged message on both
ports, a positional one on the port named; POP removes the head of the receive queue. -/
def Obligations.RingHost : Prop := ∀ s : State,
  (s.hostOpen Reg.RING_TX_CTL = true → s.tdRuns = true → s.ringSendRefused = true →
    ∃ t, exec .ringSend s = .next t ∧ t.flag Reg.RING_TX_STATUS Fld.RING_TX_STATUS_ERR = true ∧
      t.reg Reg.RING_EVENT = Fld.RING_EVENT_TX_ERR.set (s.reg Reg.RING_EVENT) 1 ∧ t.trunks = s.trunks ∧ t.ring = s.ring ∧
      s.Keeps t [Reg.RING_TX_STATUS, Reg.RING_EVENT]) ∧
  (s.hostOpen Reg.RING_TX_CTL = true → s.tdRuns = true → s.ringSendRefused = false → (s.trunk .tw).queue.length < 4 → (s.trunk .te).queue.length < 4 →
    ∃ t, exec .ringSend s = .next t ∧ t.flag Reg.RING_TX_STATUS Fld.RING_TX_STATUS_BUSY = true ∧
      t.flag Reg.RING_TX_STATUS Fld.RING_TX_STATUS_ERR = false ∧
      t.fld Reg.RING_TX_STATUS Fld.RING_TX_STATUS_SEQ = s.ring.msgSeq.toNat ∧ t.ring.msgSeq = s.ring.msgSeq + 1 ∧
      t.ring.own = (s.ring.msgSeq :: s.ring.own).take 32 ∧
      (s.flag Reg.RING_TX_HDR Fld.RING_TX_HDR_POS = false → t.ring.hostLeft = 2 ∧
        (t.trunk .tw).queue = (s.trunk .tw).queue ++ [{ prio := s.ringTxPrio, kind := .host, msg := (s.ringTxMsg s.ring.msgSeq).bytes }] ∧
        (t.trunk .te).queue.map (·.kind) = (s.trunk .te).queue.map (·.kind) ++ [.host]) ∧
      (s.flag Reg.RING_TX_HDR Fld.RING_TX_HDR_POS = true → t.ring.hostLeft = 1 ∧
        (t.trunk .tw).queue.length + (t.trunk .te).queue.length = (s.trunk .tw).queue.length + (s.trunk .te).queue.length + 1 ∧
        (t.trunk (if s.flag Reg.RING_TX_HDR Fld.RING_TX_HDR_DIR then .te else .tw)).queue.any (fun f => f.kind == .host) = true) ∧
      s.Keeps t [Reg.RING_TX_STATUS]) ∧
  (s.hostOpen Reg.RING_RX_CTL = true → s.tdRuns = true → ∃ t, exec .ringPop s = .next t ∧ t.ring = { s.ring with rxq := s.ring.rxq.drop 1 } ∧ s.Keeps t []) ∧
  (s.hostOpen Reg.RING_TX_CTL = true → s.hostOpen Reg.RING_RX_CTL = true → s.tdRuns = false → ∀ c ∈ [Instr.ringSend, .ringPop], ∃ t, exec c s = .next t ∧ t.ring = s.ring ∧ t.trunks = s.trunks ∧ s.Keeps t [])

/-- The ring cycle and ring time (R255, R257 to R261, R269): a CYCLE is answered and followed, closes the master's ring, or shows another
node with this address; a further copy of one, also one that comes after the next number, brings neither its number nor its values (that a copy is
told from a new cycle by the 32 numbers up to the newest is the model's choice, log entry 69); of each CYCLE one sync is made, at the better of its copies, which the first waits for (the model's choice of the instant,
log entry 69); TIME gives the hop delay; a port that breaks is reported to all, also by a node with no address; a boundary takes RING_CFG_REQ, counts the cycle, and on the master sends CYCLE; a bypassed node that
has heard no CYCLE operates with its configured values, and the third whole cycle without a sync ends TIME_LOCKED; on the
master the sixteenth whole cycle without a return ends CLOSED_W or CLOSED_E; silence leads to the election; the code hunt goes through the codes. -/
def Obligations.RingCycleAndTime : Prop := ∀ (x : Trx) (s : State),
  (∀ r, s.ring.inbox.find? (fun r => (readMsg r.bytes).typ == 1) = some r → s.tdRuns = true →
    (s.bypassed = true → ∃ t, exec .ringCycle s = .next t ∧ t.ring = { s.ring with inbox := s.ring.inbox.erase r } ∧ s.Keeps t []) ∧
    (∀ c, readCycle (readMsg r.bytes).body = c → s.bypassed = false →
      (s.nodeAddr ≠ 0 → c.key % 128 = s.nodeAddr → s.isMaster = false →
        ∃ t, exec .ringCycle s = .next t ∧ t.flag Reg.RING_STATUS Fld.RING_STATUS_ADDR_CONFLICT = true ∧
          t.flag Reg.RING_EVENT Fld.RING_EVENT_ADDR_CONFLICT = true ∧ t.reg Reg.RING_CYCLE_NO = s.reg Reg.RING_CYCLE_NO ∧ s.KeepsSram t) ∧
      (s.nodeAddr ≠ 0 → c.key % 128 = s.nodeAddr → s.isMaster = true → (readMsg r.bytes).hops ≤ 94 →
        ∃ t, exec .ringCycle s = .next t ∧
          t.flag Reg.RING_STATUS (if r.port = .te then Fld.RING_STATUS_CLOSED_W else Fld.RING_STATUS_CLOSED_E) = true ∧
          t.fld Reg.RING_STATUS Fld.RING_STATUS_RING_HOPS = (readMsg r.bytes).hops + 1 ∧
          t.reg Reg.RING_CYCLE_NO = s.reg Reg.RING_CYCLE_NO ∧ s.Keeps t [Reg.RING_STATUS, Reg.RING_TOPO, Reg.RING_EVENT,
            Reg.RING_DROP_COUNT, Reg.RING_QFULL_COUNT, Reg.RING_TX_STATUS]) ∧
      ((s.nodeAddr = 0 ∨ c.key % 128 ≠ s.nodeAddr) → s.isMaster = true → s.ownKey ≤ c.key →
        ∃ t, exec .ringCycle s = .next t ∧ t.ringRole = 2 ∧ t.reg Reg.RING_CYCLE_NO = s.reg Reg.RING_CYCLE_NO ∧
          t.ring.masterKey = s.ring.masterKey ∧ t.ring.lastNo = some c.no ∧ s.KeepsSram t) ∧
      ((s.nodeAddr = 0 ∨ c.key % 128 ≠ s.nodeAddr) → s.isMaster = false → s.ring.masterKey = some c.key →
        ((∀ n, s.ring.newest = some n → 32 ≤ (n - c.no).toNat) → ∃ t, exec .ringCycle s = .next t ∧ t.reg Reg.RING_CYCLE_NO = c.no ∧
          t.ring.newest = some c.no ∧
          (s.eligible = true → s.ownKey < c.key → s.ring.higherNo = some (c.no - 1) → t.ring.higher = s.ring.higher + 1 ∧
            (2 ≤ s.ring.higher → t.ring.beMaster = true)) ∧
          t.fld Reg.RING_STATUS Fld.RING_STATUS_RING_HOPS = c.hops % 128 ∧ t.ring.adopt = some (c.sf, c.code, cycleMs c.ms) ∧
          t.dueOf .noCycle = some (s.ck + msCk (3 * s.ring.opMs)) ∧ t.dueOf .election = none ∧
          ((s.trunk r.port).queue.length < 4 → ∃ f ∈ (t.trunk r.port).queue, f.kind = .time r.ck ∧ f.prio = 3) ∧
          ((readMsg r.bytes).hops < 94 → (s.trunk r.port.other).queue.length < 4 →
            (readMsg r.bytes).body.length = 32 → ∃ f ∈ (t.trunk r.port.other).queue, f.kind = .cycle ∧ f.prio = 3) ∧ s.KeepsSram t) ∧
        (∀ n, s.ring.newest = some n → (n - c.no).toNat < 32 → ∃ t, exec .ringCycle s = .next t ∧
          t.reg Reg.RING_CYCLE_NO = s.reg Reg.RING_CYCLE_NO ∧ t.ring.newest = some n ∧ t.ring.adopt = s.ring.adopt ∧
          t.ring.change = s.ring.change ∧ t.ring.higher = s.ring.higher ∧ t.ring.higherNo = s.ring.higherNo ∧
          (s.ring.taken.contains c.no = true → t.time = s.time ∧ t.reg Reg.RING_STEER = s.reg Reg.RING_STEER ∧ t.ring.copy = s.ring.copy) ∧
          t.dueOf .noCycle = some (s.ck + msCk (3 * s.ring.opMs)) ∧ s.KeepsSram t)) ∧
      (∀ k, s.ring.masterKey = some k → (s.nodeAddr = 0 ∨ c.key % 128 ≠ s.nodeAddr) → (s.isMaster = true → c.key < s.ownKey) → c.key < k →
        ∃ t, exec .ringCycle s = .next t ∧ t.ringRole = 1 ∧ t.fld Reg.RING_STATUS Fld.RING_STATUS_MASTER = c.key % 128 ∧
          t.ring.masterKey = some c.key ∧ t.reg Reg.RING_CYCLE_NO = c.no ∧ s.KeepsSram t))) ∧
  (∀ (r : RxMsg) (d : Nat) (e : Int), e = timeError (readCycle (readMsg r.bytes).body) (s.timeThen r.ck) →
    (16384 ≤ e.natAbs → e % 16 = 0 → -2147483648 ≤ e → e < 2147483648 →
      (s.sync r).time = s.time + BitVec.ofInt 64 (e / 16) ∧ (s.sync r).tbValid = true ∧
        (s.sync r).reg Reg.RING_TIME_ERR = ofInt32 e ∧
        (s.sync r).reg Reg.RING_TIME_STEP_COUNT = satAdd (s.reg Reg.RING_TIME_STEP_COUNT) 1 ∧
        (s.sync r).flag Reg.RING_EVENT Fld.RING_EVENT_TIME_STEP = true ∧
        (s.sync r).flag Reg.RING_STATUS Fld.RING_STATUS_TIME_LOCKED = false) ∧
    (e.natAbs < 16384 → s.tbValid = true →
      (s.sync r).time = s.time ∧ (s.sync r).reg Reg.RING_TIME_ERR = ofInt32 e ∧
        -100000 ≤ ((s.sync r).reg Reg.RING_STEER).toInt ∧ ((s.sync r).reg Reg.RING_STEER).toInt ≤ 100000 ∧
        (s.ring.goodSyncs = 7 → e.natAbs < 192 → (s.sync r).flag Reg.RING_STATUS Fld.RING_STATUS_TIME_LOCKED = true)) ∧
    (s.ring.copy = none → s.ring.taken.contains r.cycleNo = false →
      (s.portBroken r.port.other = true → s.syncOffer r d = s.sync r) ∧
      (s.portBroken r.port.other = false → s.syncOffer r d = { s with ring := { s.ring with copy := some (r, d) } })) ∧
    (s.ring.taken.contains r.cycleNo = true → s.syncOffer r d = s) ∧ r.cycleNo ∈ (s.sync r).ring.taken ∧
    (∀ y, s.ring.copy = some y → y.1.cycleNo = r.cycleNo → y.1.port ≠ r.port → s.ring.taken.contains r.cycleNo = false →
      s.syncOffer r d = { s with ring := { s.ring with copy := none } }.sync (betterCopy (r, d) y).1)) ∧
  (∀ r, s.ring.inbox.find? (fun r => (readMsg r.bytes).typ == 2) = some r → s.tdRuns = true →
    (∀ e, (s.trunk r.port).echoes.find? (fun e => e.1 == BitVec.ofNat 32 (leAt (readMsg r.bytes).body 0 4)) = some e →
      ∀ d, (8 * ((r.time - e.2.1).toInt - leAt (readMsg r.bytes).body 4 4)).toNat = d →
      ∃ t, exec .ringTime s = .next t ∧ (t.trunk r.port).delays = (d :: (s.trunk r.port).delays).take 8 ∧ (t.trunk r.port).missed = 0 ∧
        (t.trunk r.port).echoes = (s.trunk r.port).echoes.erase e ∧
        ((s.trunk r.port).delays = [] → d < 2 ^ 32 → (t.reg (delayReg r.port)).toNat = d) ∧ s.KeepsSram t) ∧
    ((s.trunk r.port).echoes.find? (fun e => e.1 == BitVec.ofNat 32 (leAt (readMsg r.bytes).body 0 4)) = none →
      ∃ t, exec .ringTime s = .next t ∧ t.trunks = s.trunks ∧ s.Keeps t [])) ∧
  (s.tdRuns = true → (s.trunk x).echoes ≠ [] →
    ∃ t, exec (.echoTimeout x) s = .next t ∧ (t.trunk x).missed = (s.trunk x).missed + 1 ∧ (t.trunk x).echoes = (s.trunk x).echoes.tail ∧
      (2 ≤ (s.trunk x).missed → t.flag Reg.RING_STATUS (breakFld x) = true) ∧
      (2 ≤ (s.trunk x).missed → s.flag Reg.RING_STATUS (breakFld x) = false → s.bypassed = false → s.ring.inReset = false →
        (∀ y, (s.trunk y).queue.length < 4) → t.flag Reg.RING_EVENT Fld.RING_EVENT_LINK_BREAK = true ∧
        t.reg Reg.RING_OFFER_DROP_COUNT = s.reg Reg.RING_OFFER_DROP_COUNT ∧
        ∀ y, ∃ f ∈ (t.trunk y).queue, f.kind = .plain ∧ f.prio = 2 ∧
          ∃ body, f.msg = ({ typ := 7, src := s.nodeAddr, dst := 0x7F, seq := s.ring.msgSeq, flags := y.idx, body } : Msg).bytes) ∧ s.KeepsSram t) ∧
  ((s.tdRuns = false ∨ (s.trunk x).echoes = []) → ∃ t, exec (.echoTimeout x) s = .next t ∧ t.trunks = s.trunks ∧ s.Keeps t []) ∧
  (s.tdRuns = true → s.late = [] →
    (∃ t, exec .ringCycleBoundary s = .next t ∧
      t.reg Reg.RING_CFG = Fld.RING_CFG_MASTER_MODE.set (s.reg Reg.RING_CFG_REQ) (s.fld Reg.RING_CFG Fld.RING_CFG_MASTER_MODE) ∧
      (s.ring.crossed = false → t.ck = max s.ck (s.ckAtTick (s.ringPeriod - s.time.toNat % s.ringPeriod))) ∧
      (s.bypassed = false → s.ring.inReset = false → t.reg Reg.RING_CYCLE_NO =
        (if s.ring.masterKey.isNone then s.reg Reg.RING_CYCLE_NO else s.ring.nextNo.getD (s.reg Reg.RING_CYCLE_NO + 1))) ∧
      (s.bypassed = true → t.reg Reg.RING_CYCLE_NO = s.reg Reg.RING_CYCLE_NO ∧
        ((s.trunk .tw).queue = [] → (s.trunk .te).queue = [] → t.trunks = s.trunks) ∧
        (s.ring.inReset = false → 3 ≤ s.ring.sinceSync →
          t.flag Reg.RING_STATUS Fld.RING_STATUS_TIME_LOCKED = false ∧ t.ring.goodSyncs = 0) ∧
        (s.ring.inReset = false → s.ring.lastNo = none → t.opSf = s.fld Reg.RING_CFG_REQ Fld.RING_CFG_SF ∧
          t.ring.opMs = cycleMs (s.fld Reg.RING_CFG_REQ Fld.RING_CFG_CYCLE_MS))) ∧ s.KeepsSram t) ∧
    (∀ sf code ms, s.ring.adopt = some (sf, code, ms) → s.bypassed = false → s.ring.inReset = false → s.ring.change = none → s.ringRole = 1 →
      s.ring.beMaster = false → sf < 4 → code < 4 →
      ∃ t, exec .ringCycleBoundary s = .next t ∧ t.opSf = sf ∧ t.opCode = code ∧ t.ring.opMs = ms ∧ t.ring.adopt = none ∧ s.KeepsSram t) ∧
    (s.bypassed = false → s.ring.inReset = false → s.ringRole = 2 → s.fld Reg.RING_CFG Fld.RING_CFG_MASTER_MODE ≤ 1 →
      1 ≤ s.fld Reg.RING_CFG_REQ Fld.RING_CFG_NODE_ADDR → s.fld Reg.RING_CFG_REQ Fld.RING_CFG_NODE_ADDR ≤ 96 →
      (s.trunk .tw).queue.length < 4 → (s.trunk .te).queue.length < 4 →
      ∃ t, exec .ringCycleBoundary s = .next t ∧ t.ringRole = 2 ∧
        t.flag Reg.RING_STATUS Fld.RING_STATUS_CLOSED_W =
          (s.flag Reg.RING_STATUS Fld.RING_STATUS_CLOSED_W && decide (s.ring.closedW < 16)) ∧
        t.flag Reg.RING_STATUS Fld.RING_STATUS_CLOSED_E =
          (s.flag Reg.RING_STATUS Fld.RING_STATUS_CLOSED_E && decide (s.ring.closedE < 16)) ∧
        t.fld Reg.RING_STATUS Fld.RING_STATUS_MASTER = s.fld Reg.RING_CFG_REQ Fld.RING_CFG_NODE_ADDR ∧
        (∃ f ∈ (t.trunk .tw).queue, f.kind = .cycle ∧ f.prio = 3) ∧ (∃ f ∈ (t.trunk .te).queue, f.kind = .cycle ∧ f.prio = 3) ∧
        s.KeepsSram t)) ∧
  (∀ due, s.dueOf .noCycle = some due →
    ∃ t, exec .noCycleTimeout s = .next t ∧ t.fld Reg.RING_STATUS Fld.RING_STATUS_MASTER = 0 ∧ t.ringRole = 0 ∧ t.ring.masterKey = none ∧
      (s.eligible = true → t.dueOf .election = some (max s.ck due + msCk s.ownKey) ∧ t.dueOf .noCycle = none) ∧
      (s.eligible = false → t.dueOf .noCycle = some (max s.ck due + msCk (3 * t.ring.opMs))) ∧
      s.Keeps t [Reg.TB_EVENT, Reg.RING_STATUS, Reg.RING_EVENT, Reg.RING_DROP_COUNT, Reg.RING_TX_STATUS]) ∧
  (∀ due, s.dueOf .election = some due → s.eligible = true →
    ∃ t, exec .electionWaitEnd s = .next t ∧ t.fld Reg.RING_STATUS Fld.RING_STATUS_MASTER = s.nodeAddr ∧ t.ringRole = 2 ∧
      t.ring.masterKey = some s.ownKey ∧ t.ring.nextNo = some ((s.ring.lastNo.map (· + 1)).getD 0) ∧ t.dueOf .election = none ∧
      t.dueOf .noCycle = none ∧ s.KeepsSram t) ∧
  (∀ due, s.dueOf .election = some due → s.eligible = false →
    ∃ t, exec .electionWaitEnd s = .next t ∧ t.ringRole = s.ringRole ∧ t.dueOf .noCycle = some (max s.ck due + msCk (3 * s.ring.opMs)) ∧
      s.Keeps t [Reg.TB_EVENT]) ∧
  (∀ due, s.dueOf .codeHunt = some due →
    ∃ t, exec .codeHuntStep s = .next t ∧ t.flag Reg.RING_STATUS Fld.RING_STATUS_CODE_HUNT = true ∧ t.opCode = (s.opCode + 1) % 4 ∧
      t.opSf = s.opSf ∧ t.dueOf .codeHunt = some (max s.ck due + secCk 1) ∧
      s.Keeps t [Reg.TB_EVENT, Reg.RING_STATUS, Reg.RING_EVENT, Reg.RING_DROP_COUNT, Reg.RING_TX_STATUS]) ∧
  (∀ (src : BitVec 8) (due : Nat), s.dueOf (.dupEntry src.toNat) = some due →
    ∃ t, exec (.dupEntryExpiry src) s = .next t ∧ t.ring.dup = s.ring.dup.filter (fun e => e.src != src.toNat) ∧
      t.dueOf (.dupEntry src.toNat) = none ∧ s.Keeps t [Reg.TB_EVENT]) ∧
  (∀ p ∈ [(Instr.noCycleTimeout, Timer.noCycle), (.electionWaitEnd, .election), (.codeHuntStep, .codeHunt)], s.dueOf p.2 = none →
    ∃ t, exec p.1 s = .next t ∧ t.ring = s.ring ∧ t.trunks = s.trunks ∧ s.Keeps t [])

/-! ### Clock and power -/

/-- The clock's source and the wake sources (R278, R288): a lost source makes the part limp, a check that passes brings it back at a loop
tick; an enabled source in STANDBY, HIBERNATE or WAKE_FAIL starts a wake, which fails at once where the first page it turns on for the first
time answers a VOUT_MODE that is not linear (R290); one more source in the cycle of the entry shows beside the first (the model's reading of
R288 over an entry carried out in one step, log entry 58); elsewhere nothing. HCSn acts while VIO is there (R329). That a wake's PLL checks the
source afresh is log entry 71's, a VOUT_MODE judged in the step that reads it log entry 10's. -/
def Obligations.ClockAndWakeSources : Prop := ∀ s : State,
  (s.limp = false →
    ∃ t, exec .crystalLoss s = .next t ∧ t.limp = true ∧
      t.fld Reg.CLK_STATUS Fld.CLK_STATUS_SRC = (if s.pllRuns then 2 else 3) ∧
      t.flag Reg.CLK_STATUS Fld.CLK_STATUS_XTAL_OK = false ∧ t.flag Reg.PWR_EVENT Fld.PWR_EVENT_LIMP = true ∧ s.KeepsSram t) ∧
  (s.limp = true → ∃ t, exec .crystalLoss s = .next t ∧ s.Keeps t []) ∧
  (s.hostOpen Reg.CLK_CTL = true → ∃ t, exec .xtalRetry s = .next t ∧ t.dueOf .xtalCheck = some (s.ck + msCk 10) ∧ s.Keeps t []) ∧
  (∀ due, s.dueOf .xtalCheck = some due → ∀ ok, ∃ t, exec (.xtalCheckEnd ok) s = .next t ∧ t.dueOf .xtalCheck = none ∧
    t.pwr.xtalBack = (s.pwr.xtalBack || (ok && s.limp && s.pllRuns)) ∧ s.Keeps t [Reg.TB_EVENT]) ∧
  (s.pwr.wake = none → ∀ p ∈ [(Instr.wakePin (!s.flag Reg.PWR_WAKE_EN Fld.PWR_WAKE_EN_WAKE_POL), 0), (.alarm, 1), (.trunkActivity, 2),
      (.hcsnWake, 3)],
    (p.2 = 1 → s.pwr.alarmSet = true) → (p.2 = 2 → s.flag Reg.BD_STATUS Fld.BD_STATUS_BYPASS_CLOSED = true) →
    (p.2 = 3 → s.pwr.vio = true) →
    ((s.pwrState = 2 ∨ s.pwrState = 3 ∨ s.pwrState = 7) → (Fld.PWR_WAKE_EN_EN.bit p.2).on (s.reg Reg.PWR_WAKE_EN) = true →
      ∀ q, (s.pagesFor s.runSet).head? = some q → vget s.pwr.pageInit q false = false → voutLinear (s.voutModeOf q) = false →
      s.pwr.keptSet = none →
      ∃ t, exec p.1 s = .next t ∧ t.pwrState = 7 ∧ t.fld Reg.PWR_FAIL Fld.PWR_FAIL_CAUSE = 6 ∧ t.fld Reg.PWR_FAIL Fld.PWR_FAIL_PAGE = q ∧
        t.pwr.wake = none ∧ t.pwr.faultLow = true) ∧
    ((s.pwrState = 2 ∨ s.pwrState = 3 ∨ s.pwrState = 7) → (Fld.PWR_WAKE_EN_EN.bit p.2).on (s.reg Reg.PWR_WAKE_EN) = true →
      s.pagesLinear →
      ∃ t, exec p.1 s = .next t ∧ t.pwrState = 6 ∧ t.flag Reg.PWR_STATUS Fld.PWR_STATUS_BUSY = true ∧
        t.reg Reg.PWR_WAKE_CAUSE = s.pwr.latched ||| oneBit p.2 ∧ t.pwr.latched = 0 ∧
        t.pwr.wake.map (fun w => (w.target, w.runSet, w.attempts)) = some (s.runSet, false, 1)) ∧
    (((s.pwrState ≠ 2 ∧ s.pwrState ≠ 3 ∧ s.pwrState ≠ 7) ∨ (Fld.PWR_WAKE_EN_EN.bit p.2).on (s.reg Reg.PWR_WAKE_EN) = false) →
      ∃ t, exec p.1 s = .next t ∧ t.pwr.wake = none ∧ t.pwr.latched = s.pwr.latched ∧
        s.Keeps t [Reg.TB_EVENT, Reg.PWR_EVENT, Reg.BD_STATUS, Reg.BD_EVENT])) ∧
  (s.pwr.alarmSet = true → ∃ t, exec .alarm s = .next t ∧ t.pwr.alarmSet = false ∧ t.flag Reg.PWR_EVENT Fld.PWR_EVENT_ALARM = true) ∧
  (s.flag Reg.BD_STATUS Fld.BD_STATUS_BYPASS_CLOSED = true →
    ∃ t, exec .trunkActivity s = .next t ∧ t.flag Reg.BD_STATUS Fld.BD_STATUS_TRUNK_ACT = true ∧
      t.flag Reg.BD_EVENT Fld.BD_EVENT_TRUNK_ACT = true) ∧
  ((∃ t, exec (.wakePin (s.flag Reg.PWR_WAKE_EN Fld.PWR_WAKE_EN_WAKE_POL)) s = .next t ∧ t.pwr = s.pwr ∧ s.Keeps t []) ∧
    (s.pwr.alarmSet = false → ∃ t, exec .alarm s = .next t ∧ t.pwr = s.pwr ∧ s.Keeps t []) ∧
    (s.flag Reg.BD_STATUS Fld.BD_STATUS_BYPASS_CLOSED = false → ∃ t, exec .trunkActivity s = .next t ∧ t.pwr = s.pwr ∧ s.Keeps t []) ∧
    (s.pwr.vio = false → ∃ t, exec .hcsnWake s = .next t ∧ t.pwr = s.pwr ∧ s.Keeps t [])) ∧
  (∀ w, s.pwr.wake = some w → (w.from_ = 2 ∨ w.from_ = 3) → w.runSet = false → s.pwr.entryAt = some s.ck → s.pwr.vio = true →
    (Fld.PWR_WAKE_EN_EN.bit 3).on (s.reg Reg.PWR_WAKE_EN) = true →
    ∃ t, exec .hcsnWake s = .next t ∧ t.reg Reg.PWR_WAKE_CAUSE = s.reg Reg.PWR_WAKE_CAUSE ||| oneBit 3 ∧ t.pwr = s.pwr ∧
      s.Keeps t [Reg.PWR_WAKE_CAUSE]) ∧
  (∀ v, s.hostOpen Reg.PWR_ALARM_HI = true →
    ∃ t, exec (.pwrAlarmArm v) s = .next t ∧ t.reg Reg.PWR_ALARM_HI = v ∧ t.pwr.alarmSet = true ∧ s.Keeps t [Reg.PWR_ALARM_HI]) ∧
  (∀ v, s.hostLive = false → s.hcsnWakes = false → ∀ c ∈ [Instr.xtalRetry, .pwrAlarmArm v], ∃ t, exec c s = .next t ∧ t.timers = s.timers ∧ s.Keeps t [])

/-- The wake sequence (R277, R278, R285, R286, R289, R290, R303, R305): pages one after the other, each acknowledged by PGOOD or by a
STATUS_WORD, as ACK_SRC says (the row of the other source does nothing, log entry 10); READ_MV shows what page 0 was turned on with once it is
acknowledged (log entry 78); then the source (checked afresh where the PLL runs on the limp oscillator, log entry 71), the PLL and the domains, and RUN or IDLE with the watchdog's count from 0; an attempt that fails leaves its
cause in PWR_FAIL (a transaction that fails twice among them, of the turn-on or a read of STATUS_WORD; each one is repeated once afresh, and which one a SMBus
timeout hits is a free value, log entry 10), is counted, and is repeated after 20 ms or ends in WAKE_FAIL, at once where a VOUT_MODE is not linear; that a PWR_RUN_SET
sequence fails, counts and repeats in the same way is the model's reading (log entry 14). With a RESETn latched in Tether mode the wake ends in
a global reset. -/
def Obligations.WakeSequence : Prop := ∀ s : State,
  (∀ w p, s.pageAwaited = some (w, p) → p < 3 →
    (vget s.pwr.pageInit p false = true → s.ackPgood = true →
      (w.pages.tail ≠ [] → (∀ q ∈ w.pages, q < 3) → s.pagesLinear →
        ∃ t, exec .pageAck s = .next t ∧ vget t.pwr.pageOn p false = true ∧ t.dueOf .pageAck = some (s.ck + s.ackTmo) ∧
          t.pwr.wake = some { w with onPages := w.onPages ++ [p], pages := w.pages.tail, phase := .page } ∧
          t.reg Reg.PWR_VCORE = (if p = 0 then Fld.PWR_VCORE_READ_MV.set (s.reg Reg.PWR_VCORE) s.pwr.vcoreMv else s.reg Reg.PWR_VCORE) ∧
          s.Keeps t [Reg.PWR_VCORE]) ∧
      (w.pages.tail = [] → (s.pllRuns = false ∨ (w.runSet = false ∧ s.fld Reg.CLK_STATUS Fld.CLK_STATUS_SRC ≠ 0)) →
        ∃ t, exec .pageAck s = .next t ∧ vget t.pwr.pageOn p false = true ∧ t.dueOf .pageAck = none ∧ t.pwr.busRetry = false ∧
          t.pwr.wake = some { w with onPages := w.onPages ++ [p], pages := [], phase := .xtal } ∧ s.Keeps t [Reg.PWR_VCORE]) ∧
      (w.pages.tail = [] → s.pllRuns = true → w.runSet = false → s.fld Reg.CLK_STATUS Fld.CLK_STATUS_SRC = 0 →
        ∃ t, exec .pageAck s = .next t ∧ t.pwr.wake.map (·.phase) = some .domains ∧ ∀ d ∈ onOrder, w.target.testBit d.bit = true → t.on d = true) ∧
      (w.pages.tail = [] → s.pllRuns = true → w.runSet = true → s.pwr.keptSet = none →
        ∃ t, exec .pageAck s = .next t ∧ t.pwr.wake = none ∧ t.flag Reg.PWR_STATUS Fld.PWR_STATUS_BUSY = false ∧
          ∀ d ∈ onOrder, w.target.testBit d.bit = true → t.on d = true) ∧
      (∀ r, s.busSecond r.fails = none →
        ∃ t, exec (.statusWordPoll r) s = .next t ∧ t.pwr = s.pwr ∧ t.timers = s.timers ∧ s.Keeps t [])) ∧
    (vget s.pwr.pageInit p false = true → s.ackPgood = false →
      (∃ t, exec .pageAck s = .next t ∧ t.pwr = s.pwr ∧ t.timers = s.timers ∧ s.Keeps t []) ∧
      (∀ (r : PagePoll) (n : Nat), s.busSecond r.fails = none → s.pmbusData 0x79 2 (s.pollRead r.status) = some n →
        (faultBits (BitVec.ofNat 32 n) = 0 → statusGood (BitVec.ofNat 32 n) = false →
          ∃ t, exec (.statusWordPoll r) s = .next t ∧ t.pwr.wake = some { w with status := BitVec.ofNat 32 n } ∧ t.timers = s.timers ∧
            t.pwr.busRetry = false ∧ t.pwr.busAt = s.pwr.bus.length ∧ s.Keeps t []) ∧
        (statusGood (BitVec.ofNat 32 n) = true → w.pages.tail ≠ [] → (∀ q ∈ w.pages, q < 3) → s.pagesLinear →
          ∃ t, exec (.statusWordPoll r) s = .next t ∧ vget t.pwr.pageOn p false = true ∧ t.dueOf .pageAck = some (s.ck + s.ackTmo) ∧
            t.pwr.wake = some { w with status := BitVec.ofNat 32 n, onPages := w.onPages ++ [p], pages := w.pages.tail, phase := .page } ∧
            s.Keeps t [Reg.PWR_VCORE]) ∧
        (statusGood (BitVec.ofNat 32 n) = true → w.pages.tail = [] → s.pllRuns = false →
          ∃ t, exec (.statusWordPoll r) s = .next t ∧ vget t.pwr.pageOn p false = true ∧ t.dueOf .pageAck = none ∧
            t.pwr.wake = some { w with status := BitVec.ofNat 32 n, onPages := w.onPages ++ [p], pages := [], phase := .xtal } ∧
            s.Keeps t [Reg.PWR_VCORE]) ∧
        (faultBits (BitVec.ofNat 32 n) ≠ 0 → s.pwr.keptSet = none →
          ∃ t, exec (.statusWordPoll r) s = .next t ∧ t.fld Reg.PWR_FAIL Fld.PWR_FAIL_CAUSE = 2 ∧
            t.fld Reg.PWR_FAIL Fld.PWR_FAIL_PAGE = p ∧ t.fld Reg.PWR_FAIL Fld.PWR_FAIL_STATUS_WORD = n ∧
            t.reg Reg.PWR_RETRY_COUNT = satAdd (s.reg Reg.PWR_RETRY_COUNT) 1)) ∧
      (∀ r : PagePoll, s.pmbusData 0x79 2 (s.pollRead r.status) = none → s.pwr.keptSet = none →
        ∃ t, exec (.statusWordPoll r) s = .next t ∧ t.fld Reg.PWR_FAIL Fld.PWR_FAIL_CAUSE = 3 ∧
          t.flag Reg.PWR_EVENT Fld.PWR_EVENT_PMBUS_ERR = true)) ∧
    (∀ (r : PagePoll) (j : Nat), s.busSecond r.fails = some j → s.pwr.keptSet = none →
      (j < s.pwr.bus.length ∧ s.pwr.busAt ≤ j ∧ (2 ≤ nth r.fails j 0 ∨ 1 ≤ nth r.fails j 0 ∧ s.pwr.busRetry = true ∧ j = s.pwr.busAt)) ∧
      ∃ t, exec (.statusWordPoll r) s = .next t ∧ t.fld Reg.PWR_FAIL Fld.PWR_FAIL_CAUSE = 3 ∧
        t.fld Reg.PWR_FAIL Fld.PWR_FAIL_PAGE = p ∧ t.flag Reg.PWR_EVENT Fld.PWR_EVENT_PMBUS_ERR = true ∧
        (j < 3 → 6 ≤ s.pwr.bus.length → vget t.pwr.pageInit p false = false)) ∧
    (vget s.pwr.pageInit p false = true → s.pwr.keptSet = none → s.pwr.busRetry = true →
      ∃ t, exec .smbusTimeout s = .next t ∧
        ((t.fld Reg.PWR_FAIL Fld.PWR_FAIL_CAUSE = 3 ∧ t.flag Reg.PWR_EVENT Fld.PWR_EVENT_PMBUS_ERR = true) ∨
          ∃ j, s.pwr.busAt < j ∧ j ≤ s.busEnd ∧ t.pwr.busAt = j ∧ t.pwr.busRetry = true ∧ t.pwr.wake = s.pwr.wake) ∧
        (s.busEnd ≤ s.pwr.busAt → t.fld Reg.PWR_FAIL Fld.PWR_FAIL_CAUSE = 3)) ∧
    (s.pwr.keptSet = none → ∀ due, s.dueOf .pageAck = some due →
      ∃ t, exec .regTimeout s = .next t ∧ t.fld Reg.PWR_FAIL Fld.PWR_FAIL_CAUSE = 1 ∧ t.fld Reg.PWR_FAIL Fld.PWR_FAIL_PAGE = p ∧
        t.reg Reg.PWR_RETRY_COUNT = satAdd (s.reg Reg.PWR_RETRY_COUNT) 1 ∧
        (w.attempts ≤ s.fld Reg.PWR_WAKE_CFG Fld.PWR_WAKE_CFG_WAKE_RETRIES →
          t.dueOf .wakeRetry = some (max s.ck due + msCk 20) ∧ t.pwr.wake.map (·.phase) = some .retry) ∧
        (s.fld Reg.PWR_WAKE_CFG Fld.PWR_WAKE_CFG_WAKE_RETRIES < w.attempts → w.runSet = false →
          t.pwrState = 7 ∧ t.flag Reg.PWR_EVENT Fld.PWR_EVENT_WAKE_FAIL = true ∧ t.pwr.faultLow = true ∧ t.pwr.wake = none ∧
            t.flag Reg.PWR_STATUS Fld.PWR_STATUS_BUSY = false)) ∧
    (vget s.pwr.pageInit p false = true → s.modeCheck = s) ∧
    (vget s.pwr.pageInit p false = false → s.pwr.keptSet = none → s.modeCheck.fld Reg.PWR_FAIL Fld.PWR_FAIL_CAUSE = 6 ∧
      s.modeCheck.fld Reg.PWR_FAIL Fld.PWR_FAIL_PAGE = p ∧ s.modeCheck.pwr.wake = none ∧ (w.runSet = false → s.modeCheck.pwrState = 7))) ∧
  (∀ p, p < 3 → vget s.pwr.pageInit p false = false →
    (voutLinear (s.voutModeOf p) = false → vget (s.pageTurnOn p).pwr.pageInit p false = false ∧
      (s.pageTurnOn p).pwr.bus = [s.pageSelect p, s.pmbusWrite 0x02 [0x18], s.pmbusRead 0x20]) ∧
    (voutLinear (s.voutModeOf p) = true → vget (s.pageTurnOn p).pwr.pageInit p false = true ∧
      (s.pageTurnOn p).pwr.bus = s.turnOnSeq p ∧ (s.pageTurnOn p).dueOf .pageAck = some (s.ck + s.ackTmo))) ∧
  (s.pageAwaited = none → s.pwr.vcoreNow = none → (∃ t, exec .pageAck s = .next t ∧ t.pwr = s.pwr ∧ s.Keeps t []) ∧
    (∀ r, s.busSecond r.fails = none → ∃ t, exec (.statusWordPoll r) s = .next t ∧ t.pwr = s.pwr ∧ s.Keeps t []) ∧
    (∀ due, s.dueOf .pageAck = some due → ∃ t, exec .regTimeout s = .next t ∧ t.pwr = s.pwr ∧ s.Keeps t [Reg.TB_EVENT])) ∧
  (s.pwr.busRetry = false → (∀ w p, s.pageAwaited = some (w, p) → vget s.pwr.pageInit p false = true) →
    ∃ t j, exec .smbusTimeout s = .next t ∧ s.pwr.busAt ≤ j ∧ j ≤ max s.pwr.busAt s.busEnd ∧
      t.pwr = { s.pwr with busAt := j, busRetry := true } ∧ s.Keeps t []) ∧
  (∀ w, s.pwr.wake = some w →
    (w.phase = .xtal →
      (∃ t, exec (.xtalReady true) s = .next t ∧ t.pwr.wake = some { w with phase := .pll } ∧ t.dueOf .pllLock = some (s.ck + usCk 500) ∧
        t.flag Reg.CLK_STATUS Fld.CLK_STATUS_XTAL_OK = true ∧ t.fld Reg.CLK_STATUS Fld.CLK_STATUS_SRC = (if s.pllRuns then 0 else 1) ∧
        (s.tdRuns = false → s.Keeps t [Reg.CLK_STATUS])) ∧
      (s.pllRuns = false →
        ∃ t, exec (.xtalReady false) s = .next t ∧ t.pwr.wake = some { w with phase := .pll } ∧ t.dueOf .pllLock = some (s.ck + usCk 500) ∧
          t.flag Reg.CLK_STATUS Fld.CLK_STATUS_XTAL_OK = false ∧ t.limp = true ∧ t.flag Reg.PWR_EVENT Fld.PWR_EVENT_LIMP = true ∧
          s.Keeps t ([Reg.CLK_STATUS, Reg.PWR_EVENT] ++ logTouches)) ∧
      (s.pllRuns = true → w.runSet = false →
        ∃ t, exec (.xtalReady false) s = .next t ∧ t.pwr.wake.map (·.phase) = some .domains ∧ t.pllRuns = true ∧
          t.fld Reg.CLK_STATUS Fld.CLK_STATUS_SRC = 2 ∧ ∀ d ∈ onOrder, w.target.testBit d.bit = true → t.on d = true)) ∧
    (w.phase = .pll → w.runSet = false →
      ∃ t, exec .pllLock s = .next t ∧ t.pllRuns = true ∧ t.flag Reg.CLK_STATUS Fld.CLK_STATUS_PLL_LOCK = true ∧
        t.dueOf .pllLock = none ∧ t.pwr.wake.map (·.phase) = some .domains ∧ ∀ d ∈ onOrder, w.target.testBit d.bit = true → t.on d = true) ∧
    (∀ due, s.dueOf .pllLock = some due → s.pwr.keptSet = none →
      ∃ t, exec .pllLockTimeout s = .next t ∧ t.fld Reg.PWR_FAIL Fld.PWR_FAIL_CAUSE = 4 ∧
        t.reg Reg.PWR_RETRY_COUNT = satAdd (s.reg Reg.PWR_RETRY_COUNT) 1) ∧
    (∀ d : Domain, w.phase = .domains → w.onDoms.contains d.bit = true → s.pwr.keptSet = none →
      ∃ t, exec (.domainOnTimeout d) s = .next t ∧ t.fld Reg.PWR_FAIL Fld.PWR_FAIL_CAUSE = 5 ∧ (d ≠ .aon → t.on d = false) ∧
        t.reg Reg.PWR_RETRY_COUNT = satAdd (s.reg Reg.PWR_RETRY_COUNT) 1) ∧
    (w.phase = .domains → w.runSet = false → s.pwr.keptSet = none → (s.inTether = false ∨ s.pwr.resetHeld = false) →
      ∃ t, exec .wakeDone s = .next t ∧ t.pwrState = s.runCode ∧ t.flag Reg.PWR_EVENT Fld.PWR_EVENT_WAKE_DONE = true ∧
        t.flag Reg.PWR_STATUS Fld.PWR_STATUS_BUSY = false ∧ t.pwr.wake = none ∧ t.inTether = false ∧ t.wdtFrom = s.ck ∧
        ∀ d ∈ onOrder, w.target.testBit d.bit = true → t.on d = true) ∧
    (w.phase = .domains → w.runSet = false → s.inTether = true → s.pwr.resetHeld = true → s.resetPast →
      ∃ t, exec .wakeDone s = .next t ∧ t.fld Reg.RESET_CAUSE Fld.RESET_CAUSE_CAUSE = 2 ∧ t.inTether = false) ∧
    (∀ due, s.dueOf .wakeRetry = some due → w.phase = .retry → w.runSet = false → s.pagesLinear →
      ∃ t, exec .wakeRetry s = .next t ∧ t.pwr.wake.map (fun w => (w.attempts, w.status)) = some (w.attempts + 1, 0) ∧
        t.dueOf .wakeRetry = none)) ∧
  (s.pwr.wake = none → ∀ c ∈ [Instr.xtalReady true, .xtalReady false, .pllLock, .pllLockTimeout, .wakeDone, .wakeRetry] ++
      onOrder.map Instr.domainOnTimeout,
    ∃ t, exec c s = .next t ∧ t.pwr = s.pwr ∧ s.Keeps t [Reg.TB_EVENT]) ∧
  (∀ due, s.dueOf .tetherRetry = some due →
    (s.pwrState = 7 → s.inTether = true → s.flag Reg.BD_STATUS Fld.BD_STATUS_VSYS_OK = true → s.pwr.resetHeld = true → s.resetPast →
      ∃ t, exec .tetherWakeRetry s = .next t ∧ t.fld Reg.RESET_CAUSE Fld.RESET_CAUSE_CAUSE = 2 ∧ t.inTether = false) ∧
    (s.pwrState = 7 → s.inTether = true → s.flag Reg.BD_STATUS Fld.BD_STATUS_VSYS_OK = true → s.pwr.resetHeld = false → s.pagesLinear →
      ∃ t, exec .tetherWakeRetry s = .next t ∧ t.pwrState = 6 ∧ t.reg Reg.PWR_WAKE_CAUSE = s.pwr.latched ||| oneBit 5 ∧
        t.pwr.wake.isSome = true ∧ t.dueOf .tetherRetry = none) ∧
    ((s.pwrState ≠ 7 ∨ s.inTether = false ∨ s.flag Reg.BD_STATUS Fld.BD_STATUS_VSYS_OK = false) →
      ∃ t, exec .tetherWakeRetry s = .next t ∧ t.pwr = s.pwr ∧ t.dueOf .tetherRetry = none ∧ s.Keeps t [Reg.TB_EVENT]))

/-- Requests to the power manager (R18, R51, R281 to R284, R287, R290, R310): a set with EXCITE and without MEAS is refused, one written
during a sequence is kept; entry turns the domains outside the set off; FAULT_CLR and PAD_RELEASE as written; VCORE waits for its
acknowledgement, row by row while it is in progress, and one that fails sends the value in force again; a rail's reading. The model's readings: an
entry is carried out in one step (log entry 58), a kept set that an entry meets turns off what it does not name (log entry 71), and a negative reading
shows as 0 (log entry 10). -/
def Obligations.PowerRequests : Prop := ∀ (v : Word) (s : State),
  (s.hostOpen Reg.PWR_RUN_SET = true →
    (s.locked = false → breaksR18 (Fld.PWR_RUN_SET_DOMAINS.get v ||| 1) = true →
      ∃ t, exec (.pwrRunSetWrite v) s = .next t ∧ t.reg Reg.PWR_EVENT = Fld.PWR_EVENT_REQ_REFUSED.set (s.reg Reg.PWR_EVENT) 1 ∧
        t.pwr = s.pwr ∧ s.Keeps t [Reg.PWR_EVENT]) ∧
    (s.locked = true → Fld.PWR_RUN_SET_DOMAINS.get v ||| 1 ≠ s.runSet →
      ∃ t, exec (.pwrRunSetWrite v) s = .next t ∧ t.pwr = s.pwr ∧ s.Keeps t [Reg.HOST_EVENT, Reg.HOST_FAULT]) ∧
    (s.locked = false → breaksR18 (Fld.PWR_RUN_SET_DOMAINS.get v ||| 1) = false → (s.pwr.wake.isSome = true ∨ s.pwrState = 6) →
      ∃ t, exec (.pwrRunSetWrite v) s = .next t ∧
        t.pwr = { s.pwr with keptSet := some (BitVec.ofNat 32 (Fld.PWR_RUN_SET_DOMAINS.get v ||| 1)) } ∧ s.Keeps t []) ∧
    (s.locked = false → breaksR18 (Fld.PWR_RUN_SET_DOMAINS.get v ||| 1) = false → s.pwr.wake = none → s.pwrState ≠ 6 →
      Fld.PWR_RUN_SET_DOMAINS.get v ||| 1 ≠ s.runSet → s.pagesLinear →
      ∃ t, exec (.pwrRunSetWrite v) s = .next t ∧ t.reg Reg.PWR_RUN_SET = BitVec.ofNat 32 (Fld.PWR_RUN_SET_DOMAINS.get v ||| 1) ∧
        (∀ d ∈ offOrder, (Fld.PWR_RUN_SET_DOMAINS.get v ||| 1).testBit d.bit = false → t.on d = false) ∧
        (t.pwr.wake = none → ∀ d ∈ onOrder, (Fld.PWR_RUN_SET_DOMAINS.get v ||| 1).testBit d.bit = true → t.on d = true))) ∧
  (s.on .core = true →
    (∀ p ∈ [(Instr.standby, true), (.hibernate, false)],
      (s.entryRefused p.2 = true →
        ∃ t, exec p.1 s = .next t ∧ t.flag Reg.PWR_EVENT Fld.PWR_EVENT_REQ_REFUSED = true ∧ t.pwr = s.pwr ∧ t.pwrState = s.pwrState ∧
          s.Keeps t (Reg.PWR_EVENT :: logTouches)) ∧
      (s.entryRefused p.2 = false →
        ∃ t, exec p.1 s = .next t ∧ t.pwrState = (if t.onSet = 0 then 3 else 2) ∧ t.on .core = false ∧ t.on .trunk = false ∧
          (∀ d ∈ offOrder, t.on d = (s.on d && p.2 &&
            (s.fld Reg.PWR_STANDBY_SET Fld.PWR_STANDBY_SET_DOMAINS &&& 0x36).testBit d.bit &&
            s.pwr.keptSet.all fun k => k.toNat.testBit d.bit)) ∧
          (t.onSet = 0 → t.pllRuns = false) ∧ t.flag Reg.PWR_EVENT Fld.PWR_EVENT_STATE = true))) ∧
  (s.hostOpen Reg.PWR_CTL = true → s.hostOpen Reg.PAD_RELEASE = true → s.hostOpen Reg.PWR_VCORE = true →
    (∃ t, exec .faultClr s = .next t ∧ t.pwr = { s.pwr with faultLow := false } ∧ s.Keeps t []) ∧
    (∃ t, exec (.padRelease v) s = .next t ∧ s.Keeps t [Reg.PAD_STATUS] ∧ ∀ d ∈ onOrder,
      t.flag Reg.PAD_STATUS (Fld.PAD_STATUS_DOMAIN.bit d.bit) =
        (s.flag Reg.PAD_STATUS (Fld.PAD_STATUS_DOMAIN.bit d.bit) && !((Fld.PAD_RELEASE_DOMAIN.bit d.bit).on v && s.on d))) ∧
    (∀ (req : BitVec 16) (sent ended : Bool) (polls : List VcorePoll) (u : State), s.locked = false →
      u = s.setFld Reg.PWR_VCORE Fld.PWR_VCORE_REQ_MV req.toNat →
      ((s.pageManaged 0 = false ∨ (s.pwrState ≠ 0 ∧ s.pwrState ≠ 1)) →
        ∃ t, exec (.vcoreChange req ⟨sent, polls, ended⟩) s = .next t ∧ t.fld Reg.PWR_VCORE Fld.PWR_VCORE_REQ_MV = req.toNat ∧ t.pwr = s.pwr ∧
          s.Keeps t [Reg.PWR_VCORE]) ∧
      (∀ w, s.pageManaged 0 = true → (s.pwrState = 0 ∨ s.pwrState = 1) → sent = true → u.vcoreWait none polls = .good w →
        ∃ t, exec (.vcoreChange req ⟨sent, polls, ended⟩) s = .next t ∧ t.fld Reg.PWR_VCORE Fld.PWR_VCORE_REQ_MV = req.toNat ∧
          ((voutRead (s.voutModeOf 0) w).1 % (voutRead (s.voutModeOf 0) w).2 = 0 →
            t.fld Reg.PWR_VCORE Fld.PWR_VCORE_READ_MV = min 0xFFFF ((voutRead (s.voutModeOf 0) w).1 / (voutRead (s.voutModeOf 0) w).2).toNat) ∧
          t.pwr.bus = [s.pageSelect 0, s.pmbusWrite 0x21 (leBytes 2 (voutCommand (s.voutModeOf 0) (clampNat 750 950 req.toNat)))] ∧
          t.pwr.vcoreMv = clampNat 750 950 req.toNat ∧ s.Keeps t [Reg.PWR_VCORE]) ∧
      (∀ st, s.pageManaged 0 = true → (s.pwrState = 0 ∨ s.pwrState = 1) →
        (sent = false ∨ u.vcoreWait none polls = .bad st ∨ u.vcoreWait none polls = .bus st ∨
          ended = true ∧ u.vcoreWait none polls = .more st) →
        ∃ t, exec (.vcoreChange req ⟨sent, polls, ended⟩) s = .next t ∧ t.flag Reg.PWR_EVENT Fld.PWR_EVENT_REG_FAULT = true ∧
          ((sent = false ∨ u.vcoreWait none polls = .bus st) → t.flag Reg.PWR_EVENT Fld.PWR_EVENT_PMBUS_ERR = true) ∧
          t.pwr.bus.getLast? = some (s.voutWrite s.pwr.vcoreMv) ∧ t.pwr.vcoreMv = s.pwr.vcoreMv ∧ t.pwr.vcoreNow = none ∧
          s.Keeps t ([Reg.PWR_VCORE, Reg.PWR_EVENT] ++ logTouches)) ∧
      (∀ st, s.pageManaged 0 = true → (s.pwrState = 0 ∨ s.pwrState = 1) → sent = true → ended = false → u.vcoreWait none polls = .more st →
        ∃ t, exec (.vcoreChange req ⟨sent, polls, ended⟩) s = .next t ∧ t.pwr.vcoreNow = some (st, false) ∧
          t.dueOf .vcoreAck = some (s.ck + s.ackTmo) ∧ t.pwr.vcoreMv = s.pwr.vcoreMv ∧ s.Keeps t [Reg.PWR_VCORE]))) ∧
  (∀ st pgood, s.pwr.vcoreNow = some (st, pgood) → s.pageAwaited = none →
    (s.ackPgood = true → ∃ t, exec .pageAck s = .next t ∧ t.pwr = { s.pwr with vcoreNow := some (st, true) } ∧ s.Keeps t []) ∧
    (∀ r : PagePoll, s.busSecond r.fails = none → ∃ t, exec (.statusWordPoll r) s = .next t ∧
      (∀ x, s.vcoreWait st [⟨s.pollRead r.status, pgood, r.vout⟩] = .more x → t.pwr.vcoreNow = some (x, pgood) ∧ t.timers = s.timers ∧ s.Keeps t []) ∧
      (∀ w, s.vcoreWait st [⟨s.pollRead r.status, pgood, r.vout⟩] = .good w → t.pwr.vcoreNow = none ∧ t.pwr.vcoreMv = s.vcoreReq ∧
        t.dueOf .vcoreAck = none ∧ s.Keeps t [Reg.PWR_VCORE]) ∧
      (∀ x, s.vcoreWait st [⟨s.pollRead r.status, pgood, r.vout⟩] = .bad x ∨ s.vcoreWait st [⟨s.pollRead r.status, pgood, r.vout⟩] = .bus x →
        t.pwr.vcoreNow = none ∧ t.pwr.vcoreMv = s.pwr.vcoreMv ∧ t.flag Reg.PWR_EVENT Fld.PWR_EVENT_REG_FAULT = true ∧
        t.pwr.bus.getLast? = some (s.voutWrite s.pwr.vcoreMv))) ∧
    (∀ (r : PagePoll) (j : Nat), s.busSecond r.fails = some j → ∃ t, exec (.statusWordPoll r) s = .next t ∧ t.pwr.vcoreNow = none ∧
      t.flag Reg.PWR_EVENT Fld.PWR_EVENT_PMBUS_ERR = true ∧ t.flag Reg.PWR_EVENT Fld.PWR_EVENT_REG_FAULT = true ∧
      t.pwr.vcoreMv = s.pwr.vcoreMv ∧ t.pwr.bus.getLast? = some (s.voutWrite s.pwr.vcoreMv)) ∧
    (∀ due, s.dueOf .pageAck = none → s.dueOf .vcoreAck = some due →
      ∃ t, exec .regTimeout s = .next t ∧ t.pwr.vcoreNow = none ∧ t.flag Reg.PWR_EVENT Fld.PWR_EVENT_REG_FAULT = true ∧
        t.pwr.bus.getLast? = some (s.voutWrite s.pwr.vcoreMv) ∧ t.dueOf .vcoreAck = none ∧
        s.Keeps t ([Reg.TB_EVENT, Reg.PWR_EVENT] ++ logTouches))) ∧
  (∀ (last : Option Word) (x : VcorePoll) (xs : List VcorePoll),
    s.vcoreWait last [] = .more last ∧
    (s.ackPgood = true → x.pgood = false → s.vcoreWait last (x :: xs) = s.vcoreWait last xs) ∧
    (s.ackPgood = true → x.pgood = true → s.pmbusData 0x8B 2 x.vout = none → s.vcoreWait last (x :: xs) = .bus last) ∧
    (s.ackPgood = true → x.pgood = true → ∀ v, s.pmbusData 0x8B 2 x.vout = some v →
      s.vcoreWait last (x :: xs) = (if s.voutNear v then .good v else s.vcoreWait last xs)) ∧
    (s.ackPgood = false → s.pmbusData 0x79 2 x.status = none → s.vcoreWait last (x :: xs) = .bus last) ∧
    (s.ackPgood = false → ∀ n, s.pmbusData 0x79 2 x.status = some n →
      (faultBits (BitVec.ofNat 32 n) ≠ 0 → s.vcoreWait last (x :: xs) = .bad (some (BitVec.ofNat 32 n))) ∧
      (faultBits (BitVec.ofNat 32 n) = 0 → statusGood (BitVec.ofNat 32 n) = false →
        s.vcoreWait last (x :: xs) = s.vcoreWait (some (BitVec.ofNat 32 n)) xs) ∧
      (statusGood (BitVec.ofNat 32 n) = true → ∀ v, s.pmbusData 0x8B 2 x.vout = some v →
        s.vcoreWait last (x :: xs) = (if s.voutNear v then .good v else s.vcoreWait (some (BitVec.ofNat 32 n)) xs)))) ∧
  (s.hostLive = false → s.hcsnWakes = false → ∀ c ∈ [Instr.pwrRunSetWrite v, .faultClr, .padRelease v, .vcoreChange 0 ⟨true, [], true⟩],
    ∃ t, exec c s = .next t ∧ t.pwr = s.pwr ∧ s.Keeps t []) ∧
  (s.on .core = false → ∀ c ∈ [Instr.pwrRunSetWrite v, .standby, .hibernate, .faultClr, .padRelease v, .vcoreChange 0 ⟨true, [], true⟩],
    ∃ t, exec c s = .next t ∧ t.pwr = s.pwr ∧ s.Keeps t []) ∧
  (∀ (p : Fin 3) (vout iout status : PmRead),
    (s.pageManaged p = true → vget s.pwr.pageOn p false = true →
      ((s.pmbusData 0x8B 2 vout = none ∨ s.pmbusData 0x8C 2 iout = none ∨ s.pmbusData 0x79 2 status = none) →
        ∃ t, exec (.railPoll p ⟨vout, iout, status⟩) s = .next t ∧ t.reg Reg.PWR_EVENT = Fld.PWR_EVENT_PMBUS_ERR.set (s.reg Reg.PWR_EVENT) 1 ∧
          t.pwr.busRetry = false ∧ s.Keeps t [Reg.PWR_EVENT]) ∧
      (∀ (a b n : Nat) (st : Word), s.pmbusData 0x8B 2 vout = some a → s.pmbusData 0x8C 2 iout = some b → s.pmbusData 0x79 2 status = some n →
        st = BitVec.ofNat 32 n →
        ∃ t, exec (.railPoll p ⟨vout, iout, status⟩) s = .next t ∧
          ((voutRead (s.voutModeOf p) a).1 % (voutRead (s.voutModeOf p) a).2 = 0 →
            t.fld (Reg.PWR_RAIL p) Fld.PWR_RAIL_VOUT_MV =
              min 0xFFFF ((voutRead (s.voutModeOf p) a).1 / (voutRead (s.voutModeOf p) a).2).toNat) ∧
          ((ioutRead b).1 % (ioutRead b).2 = 0 →
            t.fld (Reg.PWR_RAIL p) Fld.PWR_RAIL_IOUT_MA = min 0xFFFF ((ioutRead b).1 / (ioutRead b).2).toNat) ∧
          vget t.pwr.faultSeen p 0 = faultBits st ∧ t.pwr.busRetry = false ∧
          (faultBits st &&& ~~~vget s.pwr.faultSeen p 0 ≠ 0 → t.flag Reg.PWR_EVENT Fld.PWR_EVENT_REG_FAULT = true) ∧
          (faultBits st &&& ~~~vget s.pwr.faultSeen p 0 = 0 → t.reg Reg.PWR_EVENT = s.reg Reg.PWR_EVENT) ∧
          s.Keeps t ([Reg.PWR_RAIL p, Reg.PWR_EVENT] ++ logTouches))) ∧
    ((s.pageManaged p = false ∨ vget s.pwr.pageOn p false = false) →
      ∃ t, exec (.railPoll p ⟨vout, iout, status⟩) s = .next t ∧ t.pwr = s.pwr ∧ s.Keeps t []))

/-- Power failure and Tether mode (R198, R290 to R297, R303, R311, R312, R332): PFW sheds MEAS, EXCITE and the loops; at VSYS_LOW the rest goes
and POR is asserted, which clears keys and log and which VSYS returning releases; a page
that a sequence was turning on then counts as on (read from R290, log entry 71), and HOLDUP, the voltage on BALLAST of at most 16.5 V, does not rise
while the warning stands; in Tether
mode, where a wake out of it is under way, the warning sets PFW, BD_EVENT.PFW and HOLDUP and the part is back in TETHER with its wake stopped
(the model's choices, log entries 75 and 79); the switch-over leaves AON and the keeper core; an island result runs the keeper core's chain; the governor moves the step and the shed level,
and below 3.10 V on the AON rail a step acts at once, with a fresh frame; while the PLL runs in a wake no step is chosen or taken (read from
R276, log entry 71); VSYS returning wakes the part from Tether mode or a power failure that stopped short of POR, and does nothing elsewhere (log entry 15); with the AON
rail gone nothing is left. -/
def Obligations.PowerFailure : Prop := ∀ s : State,
  (∀ h : Nat,
    ((s.pwr.off = true ∨ s.flag Reg.BD_STATUS Fld.BD_STATUS_PFW = true) → ∃ t, exec (.pfw h) s = .next t ∧ t.pwr = s.pwr ∧ s.Keeps t []) ∧
    (s.pwr.off = false → s.flag Reg.BD_STATUS Fld.BD_STATUS_PFW = false →
      ∃ t, exec (.pfw h) s = .next t ∧ t.flag Reg.BD_STATUS Fld.BD_STATUS_PFW = true ∧
        t.flag Reg.BD_STATUS Fld.BD_STATUS_VSYS_OK = false ∧ t.fld Reg.BD_STATUS Fld.BD_STATUS_HOLDUP = min 1650 (h / 10) ∧
        t.holdup = min 1650 (h / 10) ∧
        (s.pwr.keptSet = none → ∀ w p, s.pageAwaited = some (w, p) → p < 3 → vget t.pwr.pageOn p false = true) ∧
        t.flag Reg.BD_EVENT Fld.BD_EVENT_PFW = true ∧ t.pwr.wake = none ∧
        (∀ d ∈ [Domain.meas, .excite, .loopA, .loopB], t.on d = false) ∧
        (s.inTether = false → t.pwr.pfwActive = true ∧ t.pwr.stateReq = none ∧
          ((∀ k, s.pwr.keptSet = some k → k.toNat.testBit Domain.core.bit = true) → t.on .core = s.on .core)) ∧
        (s.inTether = true → t.pwrState = 4 ∧ t.on .core = false ∧ t.on .trunk = false))) ∧
  (s.holdup ≤ 1650 ∧ (s.flag Reg.BD_STATUS Fld.BD_STATUS_PFW = true → ∀ at_ n, s.pwr.holdupAt = some at_ → at_ ≤ s.ck →
    ({ s with ck := s.ck + n } : State).holdup ≤ s.holdup)) ∧
  (s.pwr.pfwActive = true → s.flag Reg.BD_STATUS Fld.BD_STATUS_TETHER_ARMED = false →
    (∃ t, exec .vsysLow s = .next t ∧ t.pwr.off = true ∧ t.pllRuns = false ∧ (∀ d ∈ offOrder, t.on d = false) ∧ t.logMem = [] ∧
      t.od.keys = Vector.replicate 4 [] ∧ t.tbValid = false ∧ t.sram = []) ∧
    (∃ t, exec .tetherSwitchover s = .next t ∧ t.pwr = s.pwr ∧ s.Keeps t [])) ∧
  (s.pwr.pfwActive = true → s.flag Reg.BD_STATUS Fld.BD_STATUS_TETHER_ARMED = true →
    (∃ t, exec .vsysLow s = .next t ∧ t.pwr = s.pwr ∧ s.Keeps t []) ∧
    (∃ t, exec .tetherSwitchover s = .next t ∧ t.inTether = true ∧ t.pwrState = 4 ∧ t.pwr.pfwActive = false ∧
      t.flag Reg.BD_STATUS Fld.BD_STATUS_SHUNT = true ∧ t.flag Reg.BD_EVENT Fld.BD_EVENT_TETHER_ENTRY = true ∧
      t.reg Reg.TETHER_ENTRY_COUNT = satAdd (s.reg Reg.TETHER_ENTRY_COUNT) 1 ∧ t.pwr.divisor = 8 ∧
      t.keeperCore.active = t.flag Reg.TETHER_STATUS Fld.TETHER_STATUS_CHAIN_OK ∧ ∀ d ∈ offOrder, t.on d = false)) ∧
  (s.pwr.pfwActive = false → ∀ c ∈ [Instr.vsysLow, .tetherSwitchover], ∃ t, exec c s = .next t ∧ t.pwr = s.pwr ∧ s.Keeps t []) ∧
  (s.pwr.off = false → s.flag Reg.BD_STATUS Fld.BD_STATUS_VSYS_OK = false → (s.inTether = false ∨ s.pwr.resetHeld = false) →
    (((s.pwr.pfwActive = true ∨ s.inTether = true) ∧ s.pwr.wake = none ∧ s.pagesLinear) →
      ∃ t, exec .vsysReturn s = .next t ∧ t.flag Reg.BD_STATUS Fld.BD_STATUS_VSYS_OK = true ∧
        t.flag Reg.BD_STATUS Fld.BD_STATUS_PFW = false ∧ t.flag Reg.BD_EVENT Fld.BD_EVENT_VSYS_RETURN = true ∧ t.pwrState = 6 ∧
        t.reg Reg.PWR_WAKE_CAUSE = s.pwr.latched ||| oneBit 5 ∧ t.pwr.wake.isSome = true ∧ t.pwr.pfwActive = false) ∧
    (((s.pwr.pfwActive = false ∧ s.inTether = false) ∨ s.pwr.wake.isSome = true) →
      ∃ t, exec .vsysReturn s = .next t ∧ t.flag Reg.BD_STATUS Fld.BD_STATUS_VSYS_OK = true ∧ t.pwrState = s.pwrState ∧
        t.pwr = { s.pwr with pfwActive := false } ∧ s.Keeps t [Reg.BD_STATUS, Reg.BD_EVENT])) ∧
  (s.pwr.off = false → s.flag Reg.BD_STATUS Fld.BD_STATUS_VSYS_OK = true →
    ∃ t, exec .vsysReturn s = .next t ∧ t.pwr = s.pwr ∧ s.Keeps t []) ∧
  (s.pwr.off = true → s.resetPast →
    ∃ t, exec .vsysReturn s = .next t ∧ t.fld Reg.RESET_CAUSE Fld.RESET_CAUSE_CAUSE = 1 ∧ t.pwr.off = false ∧ t.logSeq = 1 ∧
      (s.pwr.resetLow = false → s.pagesLinear → t.pwrState = 6 ∧ t.reg Reg.PWR_WAKE_CAUSE = oneBit 6) ∧
      (s.pwr.resetLow = true → t.pwr.resetWait = true ∧ t.pwr.wake = none)) ∧
  (s.pwr.off = false → s.flag Reg.BD_STATUS Fld.BD_STATUS_VSYS_OK = false → s.inTether = true → s.pwr.resetHeld = true → s.resetPast →
    ∃ t, exec .vsysReturn s = .next t ∧ t.fld Reg.RESET_CAUSE Fld.RESET_CAUSE_CAUSE = 2 ∧ t.inTether = false ∧
      (s.pwr.resetLow = false → s.pagesLinear → t.pwrState = 6) ∧ (s.pwr.resetLow = true → t.pwr.resetWait = true ∧ t.pwr.wake = none)) ∧
  (∀ code : Int,
    (∀ st c, s.keeperCore.store = some st → s.tether.ended = some c → s.keeperCore.active = true →
      ∃ t, exec (.tetherResult code) s = .next t ∧ t.keeperCore.lane.first = false ∧ t.keeperCore.lane.prevStart = s.ck ∧
        t.keeperCore.out.length = max s.keeperCore.out.length st.blks.length ∧ t.keeperCore.store = s.keeperCore.store ∧
        t.keeperCore.active = true ∧ t.tether.ended = none ∧ s.KeepsSram t) ∧
    ((s.tether.ended = none ∨ s.keeperCore.active = false ∨ s.keeperCore.store = none) →
      ∃ t, exec (.tetherResult code) s = .next t ∧ t.keeperCore = s.keeperCore ∧ s.Keeps t [])) ∧
  (∀ (x : Int) (low : Bool), s.inTether = true →
    (∃ t, exec (.governorTick x low) s = .next t ∧ t.inTether = true ∧
      t.fld Reg.TETHER_STATUS Fld.TETHER_STATUS_SURPLUS = (BitVec.ofInt 16 (clampInt (-32768) 32767 x)).toNat ∧
      (s.pllRuns = true → t.pllRuns = true ∧
        t.fld Reg.TETHER_STATUS Fld.TETHER_STATUS_STEP = s.fld Reg.TETHER_STATUS Fld.TETHER_STATUS_STEP) ∧
      (x < 10 → s.tether.nextStep = none → s.fld Reg.TETHER_STATUS Fld.TETHER_STATUS_STEP < 4 → s.pllRuns = false → t.tether.okMs = 0 ∧
        t.shedLevel = s.shedLevel ∧
        (low = true → t.fld Reg.TETHER_STATUS Fld.TETHER_STATUS_STEP = s.fld Reg.TETHER_STATUS Fld.TETHER_STATUS_STEP + 1 ∧
          t.pwr.divisor = 8 * 2 ^ (s.fld Reg.TETHER_STATUS Fld.TETHER_STATUS_STEP + 1) ∧ t.tether.frameAt = s.ck ∧ t.tether.ended = s.tether.ended) ∧
        (low = false → t.tether.nextStep = some (s.fld Reg.TETHER_STATUS Fld.TETHER_STATUS_STEP + 1) ∧
          t.fld Reg.TETHER_STATUS Fld.TETHER_STATUS_STEP = s.fld Reg.TETHER_STATUS Fld.TETHER_STATUS_STEP)) ∧
      (x < 10 → s.tether.nextStep = none → s.fld Reg.TETHER_STATUS Fld.TETHER_STATUS_STEP = 4 → s.shedLevel < 3 →
        t.shedLevel = s.shedLevel + 1 ∧ t.tether.okMs = 0) ∧
      (10 ≤ x → x < 50 → t.shedLevel = s.shedLevel ∧
        ((low = false ∨ s.tether.nextStep = none) → t.tether = { s.tether with okMs := 0 })) ∧
      (50 ≤ x → s.tether.okMs < 999 → t.shedLevel = s.shedLevel ∧
        ((low = false ∨ s.tether.nextStep = none) → t.tether = { s.tether with okMs := s.tether.okMs + 1 })) ∧
      (∀ k, 10 ≤ x → x < 50 → s.tether.nextStep = some k → low = true → s.pllRuns = false → k ≤ 4 →
        t.fld Reg.TETHER_STATUS Fld.TETHER_STATUS_STEP = k ∧ t.tether.nextStep = none ∧ t.pwr.divisor = 8 * 2 ^ k ∧ t.tether.frameAt = s.ck) ∧
      (50 ≤ x → 999 ≤ s.tether.okMs → s.shedLevel ≠ 0 → t.shedLevel = s.shedLevel - 1 ∧ t.tether.okMs = 0) ∧
      (50 ≤ x → 999 ≤ s.tether.okMs → s.shedLevel = 0 → s.tether.nextStep = none → 0 < s.fld Reg.TETHER_STATUS Fld.TETHER_STATUS_STEP →
        low = false → s.pllRuns = false → t.tether.nextStep = some (s.fld Reg.TETHER_STATUS Fld.TETHER_STATUS_STEP - 1)) ∧ s.KeepsSram t)) ∧
  (s.inTether = false → ∀ (x : Int) (low : Bool), ∃ t, exec (.governorTick x low) s = .next t ∧ t.tether = s.tether ∧ s.Keeps t []) ∧
  (∃ t, exec .aonRailLoss s = .next t ∧ t.pwr.off = true ∧ t.inTether = false ∧ t.logMem = [] ∧ t.timers = [] ∧
    (∀ d ∈ offOrder, t.on d = false) ∧ ({ s with regs := [] } : State).KeepsRegs t [Reg.CLK_STATUS, Reg.PWR_STATUS])

/-! ### Resets, watchdog, test unlock -/

/-- Per-function resets (R298 to R300): each returns its function's working state while its RST_BUSY bit reads 1, for the time the rule
gives; with its domain off, or its die out of reach, nothing. A modem keeps SUSPENDED, which its port's state holds up (R168; log entry 49), and a
trunk port's reset leaves the other's queue as it is where no port's break state changes with it (R269). The model's readings: a lane's reset, which meets no activation in progress, is
over at once and shows no busy bit (log entry 2), a port's ends at the second loop tick or where FUNC_RESET_END comes first (log entry
43), a self-test in progress ends without a verdict (log entry 54), and a frame being forwarded goes out no further (log entry 52). No bit
stays set as the function's domain turns off. -/
def Obligations.FunctionResets : Prop := ∀ (n : PortId) (l : LaneId) (i : SliceId) (k : SpoolId) (s : State),
  (s.hostOpen Reg.RST_FUNC0 = true → s.portWritable n = true →
    (∃ t, exec (.rstPort n) s = .next t ∧ t.flag Reg.RST_BUSY0 (Fld.RST_BUSY0_PORT.bit n) = true ∧ (t.port n).resetTicks = 2 ∧
      (t.port n).resetLat = true ∧ (t.port n).released = false ∧ (t.port n).trimRun = none ∧
      t.flag (Reg.PORT_STATUS n) Fld.PORT_STATUS_LOOP_MISMATCH = false ∧
      t.flag (Reg.PORT_STATUS n) Fld.PORT_STATUS_LOOP_HEADROOM = false ∧ s.KeepsSram t) ∧
    (∃ t, exec (.rstModem n) s = .next t ∧ t.flag Reg.RST_BUSY0 (Fld.RST_BUSY0_MODEM.bit n) = true ∧
      (s.flag (Reg.MODEM_STATUS n) Fld.MODEM_STATUS_TX_ACTIVE = false →
        t.reg (Reg.MODEM_STATUS n) = s.reg (Reg.MODEM_STATUS n) &&& Fld.MODEM_STATUS_SUSPENDED.mask ∧
        t.modem n = { quietSince := if s.flag (Reg.MODEM_STATUS n) Fld.MODEM_STATUS_CARRIER then s.ck else (s.modem n).quietSince,
                      txEnd := (s.modem n).txEnd, bitAt := (s.modem n).bitAt,
                      bitEnd := if (s.modem n).hearing && s.flag (Reg.MODEM_STATUS n) Fld.MODEM_STATUS_TIMING then some s.ck
                        else (s.modem n).bitEnd, inReset := true }) ∧
      (s.flag (Reg.MODEM_STATUS n) Fld.MODEM_STATUS_TX_ACTIVE = true →
        t.reg (Reg.MODEM_STATUS n) = Fld.MODEM_STATUS_TX_ACTIVE.put 1 ||| (s.reg (Reg.MODEM_STATUS n) &&& Fld.MODEM_STATUS_SUSPENDED.mask) ∧
        (t.modem n).cut = true ∧ (t.modem n).inReset = true) ∧
      t.reg (Reg.MODEM_RX_HDR n) = 0 ∧ t.reg (Reg.MODEM_RX_TIME_LO n) = 0 ∧ t.reg (Reg.MODEM_RX_TIME_HI n) = 0 ∧
      (∀ w, w < 16 → t.reg (Reg.MODEM_RX_DATA n w) = 0) ∧ t.reg (Reg.MODEM_TX_HDR n) = s.reg (Reg.MODEM_TX_HDR n) ∧
      t.dueOf (.funcReset (.modem n)) = some (s.ck + s.toBit) ∧ s.KeepsSram t)) ∧
  (s.hostOpen Reg.RST_FUNC1 = true →
    (∃ t, exec (.rstLane l) s = .next t ∧ t.reg (Reg.LANE_STATUS l) = 0 ∧ t.reg (Reg.LANE_EXEC l) = 0 ∧ t.reg (Reg.MAN_VALUE l) = 0 ∧
      t.reg (Reg.LANE_LOT l) = 0 ∧ t.reg (Reg.LANE_ACT_TIME_LO l) = 0 ∧ t.reg (Reg.LANE_ACT_TIME_HI l) = 0 ∧ (∀ b, b < 12 → t.reg (Reg.BLK_Y l b) = 0 ∧ t.reg (Reg.BLK_Q l b) = 0 ∧
        ∀ j, j < 4 → t.reg (Reg.BLK_STATE l b j) = 0) ∧ t.actQueue = s.actQueue.filter (· != l.val) ∧ (t.lane l).first = true ∧
      s.Keeps t ([Reg.LANE_STATUS l, Reg.LANE_EVENT l, Reg.LANE_CTL l, Reg.LANE_EXEC l, Reg.MAN_VALUE l, Reg.LANE_LOT l,
          Reg.LANE_ACT_TIME_LO l, Reg.LANE_ACT_TIME_HI l] ++
        (List.range 12).flatMap fun b => [Reg.BLK_Y l b, Reg.BLK_Q l b] ++ (List.range 4).map (Reg.BLK_STATE l b))) ∧
    (∃ t, exec (.rstSpool k) s = .next t ∧ t.reg (Reg.SPOOL_WP k) = 0 ∧ t.reg (Reg.SPOOL_RP k) = 0 ∧
      t.flag Reg.RST_BUSY1 (Fld.RST_BUSY1_SPOOL.bit k) = true ∧ vget t.spoolRst k false = true ∧
      t.reg (Reg.SPOOL_STATUS k) = 0 ∧ t.dueOf (.funcReset (.spool k)) = some (s.ck + 24) ∧
      s.Keeps t [Reg.SPOOL_WP k, Reg.SPOOL_RP k, Reg.SPOOL_STATUS k, Reg.RST_BUSY1]) ∧
    (∃ t, exec .rstOd s = .next t ∧ t.flag Reg.RST_BUSY1 Fld.RST_BUSY1_OD = true ∧ t.od.auth = [] ∧ t.od.lastTid = [] ∧ t.od.snap = {} ∧
      t.od.window = none ∧ t.od.inReset = true ∧ t.od.keys = s.od.keys ∧ t.reg Reg.OD_LEN = 0 ∧
      (∀ w, w < 64 → t.reg (Reg.OD_DATA w) = 0) ∧ t.reg Reg.OD_STATUS =
        (if s.flag Reg.OD_STATUS Fld.OD_STATUS_BUSY = true then Fld.OD_STATUS_RESULT.put OdCode.busy.num else 0) ∧ t.dueOf (.funcReset .od) = some (s.ck + msCk 1) ∧
      s.KeepsSram t) ∧
    (∃ t, exec .rstPmbus s = .next t ∧
      t.dueOf (.funcReset .pmbus) = some (s.ck + usCk 100) ∧
      (s.pwr.wake = none → s.pwr.vcoreNow = none → t.pwr.bus = [] ∧ t.flag Reg.RST_BUSY1 Fld.RST_BUSY1_PMBUS = true ∧ s.Keeps t [Reg.RST_BUSY1]) ∧
      (s.pwr.wake = none → s.pwr.vcoreNow.isSome = true → t.flag Reg.PWR_EVENT Fld.PWR_EVENT_PMBUS_ERR = true ∧
        t.flag Reg.PWR_EVENT Fld.PWR_EVENT_REG_FAULT = true ∧ t.pwr.vcoreNow = none ∧ t.pwr.vcoreMv = s.pwr.vcoreMv ∧
        t.pwr.bus = [s.voutWrite s.pwr.vcoreMv] ∧ s.Keeps t ([Reg.RST_BUSY1, Reg.PWR_EVENT] ++ logTouches)) ∧
      (∀ w, s.pwr.wake = some w → t.flag Reg.PWR_EVENT Fld.PWR_EVENT_PMBUS_ERR = true ∧
        (w.phase ≠ .retry → s.pwr.keptSet = none → t.fld Reg.PWR_FAIL Fld.PWR_FAIL_CAUSE = 3 ∧
          t.reg Reg.PWR_RETRY_COUNT = satAdd (s.reg Reg.PWR_RETRY_COUNT) 1)))) ∧
  (s.hostOpen Reg.RST_FUNC1 = true → s.on .meas = true → s.linkIsDown .md = false →
    (∃ t, exec (.rstSlice i) s = .next t ∧ t.flag Reg.RST_BUSY1 (Fld.RST_BUSY1_SLICE.bit i) = true ∧ (t.slice i).inReset = true ∧
      (t.slice i).conv = none ∧ (t.slice i).ended = none ∧ (t.slice i).resv = none ∧ (t.slice i).half = none ∧
      (t.slice i).trimReq = none ∧ (t.slice i).conducting = (s.slice i).conducting ∧ s.KeepsSram t) ∧
    (∃ t, exec .rstSeq s = .next t ∧ t.flag Reg.RST_BUSY1 Fld.RST_BUSY1_SEQ = true ∧ t.seq.inReset = true ∧ t.inj = {} ∧
      t.flag Reg.SEQ_STATUS Fld.SEQ_STATUS_RUNNING = false ∧ t.flag Reg.SEQ_STATUS Fld.SEQ_STATUS_REF_NOT_READY = false ∧
      (∀ j, j < 5 → (t.slice j).conv = none ∧ (t.slice j).ended = none ∧ (t.slice j).resv = none) ∧ s.KeepsSram t)) ∧
  (s.hostOpen Reg.RST_FUNC1 = true → s.on .trunk = true → s.linkIsDown .td = false → s.pwr.pfwActive = false → s.ring.held = [] →
    (∀ x, s.flag Reg.RING_STATUS (breakFld x) = (s.tdRuns && (!s.bypassed && !s.linkReady x || decide (3 ≤ (s.trunk x).missed)))) →
    (∃ t, exec .rstTw s = .next t ∧ t.flag Reg.RST_BUSY1 Fld.RST_BUSY1_TW = true ∧ (t.trunk .tw).inReset = true ∧ (t.trunk .tw).queue = [] ∧
      (t.trunk .tw).sending = none ∧ (t.trunk .tw).job = none ∧ (t.trunk .tw).frames = [] ∧ (t.trunk .te).queue = (s.trunk .te).queue ∧
      (∀ a ∈ trxWorking 0, t.reg a = 0) ∧ t.linkReady .tw = s.linkReady .tw ∧ t.dueOf (.selftest .tw) = none ∧ t.dueOf (.funcReset .tw) = some (s.ck + usCk 200) ∧ s.KeepsSram t) ∧
    (∃ t, exec .rstTe s = .next t ∧ t.flag Reg.RST_BUSY1 Fld.RST_BUSY1_TE = true ∧ (t.trunk .te).inReset = true ∧ (t.trunk .te).queue = [] ∧
      (t.trunk .te).sending = none ∧ (t.trunk .te).job = none ∧ (t.trunk .te).frames = [] ∧ (t.trunk .tw).queue = (s.trunk .tw).queue ∧
      (∀ a ∈ trxWorking 1, t.reg a = 0) ∧ t.linkReady .te = s.linkReady .te ∧ t.dueOf (.selftest .te) = none ∧ t.dueOf (.funcReset .te) = some (s.ck + usCk 200) ∧ s.KeepsSram t) ∧
    (∃ t, exec .rstDec s = .next t ∧ t.flag Reg.RST_BUSY1 Fld.RST_BUSY1_DEC = true ∧ (t.trunk .tw).job = none ∧ (t.trunk .te).job = none ∧
      (t.trunk .tw).frames = [] ∧ (t.trunk .te).frames = [] ∧
      t.fld Reg.DEC_STATUS Fld.DEC_STATUS_LAST_ITER = 0 ∧ t.dueOf (.funcReset .dec) = some (s.ck + usCk 100) ∧ s.KeepsSram t) ∧
    (∃ t, exec .rstRing s = .next t ∧ t.flag Reg.RST_BUSY1 Fld.RST_BUSY1_RING = true ∧ t.ring.inReset = true ∧
      t.ring.msgSeq = s.ring.msgSeq ∧ t.ring.rxq = [] ∧ t.ring.inbox = [] ∧ t.ring.dup = [] ∧ t.ring.masterKey = none ∧
      t.reg Reg.RING_CYCLE_NO = 0 ∧ t.reg Reg.RING_STEER = 0 ∧ (t.trunk .tw).queue = [] ∧ (t.trunk .te).queue = [] ∧
      (∀ x, ∀ j ∈ (t.trunk x).job.toList ++ (t.trunk x).frames, j.fwd = false) ∧
      t.dueOf (.funcReset .ring) = some (s.ck + msCk 1) ∧ s.KeepsSram t)) ∧
  (∀ p ∈ [(Instr.rstPort n, Func.port n), (.rstModem n, .modem n), (.rstLane l, .lane l), (.rstSlice i, .slice i), (.rstSeq, .seq),
      (.rstSpool k, .spool k), (.rstTw, .tw), (.rstTe, .te), (.rstDec, .dec), (.rstRing, .ring), (.rstOd, .od), (.rstPmbus, .pmbus)],
    s.hostOpen Reg.RST_FUNC0 = true → s.hostOpen Reg.RST_FUNC1 = true → funcRuns s p.2 = false → ∃ t, exec p.1 s = .next t ∧ t.timers = s.timers ∧ t.slices = s.slices ∧ t.trunks = s.trunks ∧ s.Keeps t []) ∧
  (∀ f ∈ [Func.modem n, .spool k, .tw, .te, .dec, .ring, .od, .pmbus],
    (∀ due, s.dueOf (.funcReset f) = some due → s.on .core = true →
      ∃ t, exec (.funcResetEnd f) s = .next t ∧ t.dueOf (.funcReset f) = none ∧ t.flag (funcBusy f).1 (funcBusy f).2 = false ∧
        (f = .ring → t.ring.inReset = false) ∧ (f = .od → t.od.inReset = false) ∧ (f = .modem n → (t.modem n).inReset = false) ∧
        (f = .modem n → t.flag (Reg.MODEM_STATUS n) Fld.MODEM_STATUS_TX_ACTIVE = false) ∧
        (f = .spool k → vget t.spoolRst k false = false) ∧
        s.Keeps t ([Reg.TB_EVENT, (funcBusy f).1] ++ (if f = .modem n then [Reg.MODEM_STATUS n, Reg.MODEM_EVENT n] else []))) ∧
    (s.dueOf (.funcReset f) = none → ∃ t, exec (.funcResetEnd f) s = .next t ∧ t.timers = s.timers ∧ s.Keeps t [])) ∧
  (∀ d, d ≠ .core → s.on .core = true → ∀ f ∈ s.domainFuncs d,
    (s.domainDown d).flag (funcBusy f).1 (funcBusy f).2 = false) ∧
  ((s.port n).resetTicks ≠ 0 →
    ∃ t, exec (.funcResetEnd (.port n)) s = .next t ∧ (t.port n).resetTicks = 0 ∧
      t.flag Reg.RST_BUSY0 (Fld.RST_BUSY0_PORT.bit n) = false ∧ s.KeepsSram t) ∧
  ((s.slice i).inReset = true →
    ∃ t, exec (.funcResetEnd (.slice i)) s = .next t ∧ (t.slice i).inReset = false ∧
      t.flag Reg.RST_BUSY1 (Fld.RST_BUSY1_SLICE.bit i) = false ∧ s.KeepsSram t) ∧
  (s.seq.inReset = true →
    ∃ t, exec (.funcResetEnd .seq) s = .next t ∧ t.seq.inReset = false ∧ t.flag Reg.RST_BUSY1 Fld.RST_BUSY1_SEQ = false ∧ s.KeepsSram t)

/-- Global resets (R301 to R304, R309): each leaves its cause, every other register at its reset value but the log's own and the clock's and
power's status, and starts a wake toward CORE, once RESETn is high; POR samples the straps (a free value, log entry 8); a reset that meets a
RESETn held low shows both causes, the first in R301's order as CAUSE; in Tether mode RESETn is only latched. The model's readings: no POR is
asserted in Tether mode, where AON does not run from VSYS (log entry 59), and FULL acts in its own command (log entry 60). -/
def Obligations.GlobalResets : Prop := ∀ (v : Word) (s : State),
  (s.inTether = false → s.resetPast → s.pwr.resetLow = false → s.pagesLinear →
    ∃ t, exec .por s = .next t ∧ t.fld Reg.RESET_CAUSE Fld.RESET_CAUSE_CAUSE = 1 ∧
      t.fld Reg.RESET_CAUSE Fld.RESET_CAUSE_ALL = 1 ∧ t.fld Reg.CLK_STATUS Fld.CLK_STATUS_XSEL = (Config.freeWord s.freeN).toNat % 4 ∧
      t.pwrState = 6 ∧ t.reg Reg.PWR_WAKE_CAUSE = oneBit 6 ∧ t.logSeq = 1 ∧ t.sram = [] ∧ t.holdup = 0 ∧ (∀ d ∈ offOrder, t.on d = false) ∧
      ({ s with regs := [] } : State).KeepsRegs t (resetTouches ++ [Reg.PWR_WAKE_CAUSE])) ∧
  (s.inTether = false → s.resetPast → s.pwr.resetLow = true →
    ∃ t, exec .por s = .next t ∧ t.fld Reg.RESET_CAUSE Fld.RESET_CAUSE_CAUSE = 1 ∧
      t.fld Reg.RESET_CAUSE Fld.RESET_CAUSE_ALL = 3 ∧ t.fld Reg.CLK_STATUS Fld.CLK_STATUS_XSEL = (Config.freeWord s.freeN).toNat % 4 ∧
      t.pwr.resetWait = true ∧ t.pwr.wake = none ∧ t.sram = [] ∧ t.holdup = 0 ∧ (∀ d ∈ offOrder, t.on d = false) ∧
      ({ s with regs := [] } : State).KeepsRegs t resetTouches) ∧
  (s.inTether = true → ∃ t, exec .por s = .next t ∧ t.pwr = s.pwr ∧ s.Keeps t []) ∧
  (s.pwr.off = false → s.inTether = false → s.resetPast →
    ∃ t, exec .resetn s = .next t ∧ t.fld Reg.RESET_CAUSE Fld.RESET_CAUSE_CAUSE = 2 ∧ t.pwr.resetLow = true ∧ t.pwr.resetWait = true ∧
      t.pwr.wake = none ∧ t.fld Reg.CLK_STATUS Fld.CLK_STATUS_XSEL = s.fld Reg.CLK_STATUS Fld.CLK_STATUS_XSEL ∧
      t.od.keys = s.od.keys ∧ t.sram = [] ∧ t.holdup = 0 ∧ (∀ d ∈ offOrder, t.on d = false) ∧ ({ s with regs := [] } : State).KeepsRegs t resetTouches) ∧
  ((s.pwr.off = true ∨ s.inTether = true) →
    ∃ t, exec .resetn s = .next t ∧
      t.pwr = { s.pwr with resetLow := true, resetHeld := s.pwr.resetHeld || s.inTether } ∧ s.Keeps t []) ∧
  (s.pwr.resetWait = true → s.pagesLinear →
    ∃ t, exec .resetnRelease s = .next t ∧ t.pwr.resetLow = false ∧ t.pwr.resetWait = false ∧ t.pwrState = 6 ∧
      t.reg Reg.PWR_WAKE_CAUSE = s.pwr.latched ∧ t.pwr.wake.isSome = true) ∧
  (s.pwr.resetWait = false →
    ∃ t, exec .resetnRelease s = .next t ∧ t.pwr = { s.pwr with resetLow := false } ∧ s.Keeps t []) ∧
  (s.hostLive = true → s.inTether = false → Fld.RST_SYS_KEY.get v = 0x5E7A → Fld.RST_SYS_FULL.on v = true → s.resetPast →
    s.pwr.resetLow = true →
    ∃ t, exec (.fullReset v) s = .next t ∧ t.fld Reg.RESET_CAUSE Fld.RESET_CAUSE_CAUSE = 2 ∧
      t.fld Reg.RESET_CAUSE Fld.RESET_CAUSE_ALL = 10 ∧ t.pwr.resetWait = true ∧ t.pwr.wake = none) ∧
  (s.hostLive = true → s.inTether = false → Fld.RST_SYS_KEY.get v = 0x5E7A → Fld.RST_SYS_FULL.on v = true → s.resetPast →
    s.pwr.resetLow = false → s.pagesLinear →
    ∃ t, exec (.fullReset v) s = .next t ∧ t.fld Reg.RESET_CAUSE Fld.RESET_CAUSE_CAUSE = 4 ∧ t.pwrState = 6 ∧ t.od.keys = s.od.keys ∧
      t.holdup = 0 ∧ (∀ d ∈ offOrder, t.on d = false) ∧ ({ s with regs := [] } : State).KeepsRegs t (resetTouches ++ [Reg.PWR_WAKE_CAUSE])) ∧
  ((s.hostLive = false ∧ s.hcsnWakes = false ∨ (s.hostOpen Reg.RST_SYS = true ∧
      (s.inTether = true ∨ Fld.RST_SYS_KEY.get v ≠ 0x5E7A ∨ Fld.RST_SYS_FULL.on v = false))) →
    ∃ t, exec (.fullReset v) s = .next t ∧ t.pwr = s.pwr ∧ s.Keeps t [])

/-- The watchdog and test unlock (R51, R305, R315): EN starts the count and cannot be taken back, the right kick restarts it, EARLY comes at
half of TIMEOUT; expiry resets the part, or with ACTION 1 asserts FAULTn; the two keys in consecutive transactions unlock. -/
def Obligations.WatchdogAndTest : Prop := ∀ (v : Word) (s : State),
  (s.hostOpen Reg.WDT_CTL = true → s.locked = false → s.flag Reg.WDT_CTL Fld.WDT_CTL_EN = false →
    ∃ t, exec .wdtEnable s = .next t ∧ t.flag Reg.WDT_CTL Fld.WDT_CTL_EN = true ∧ t.wdtFrom = s.ck ∧ s.Keeps t [Reg.WDT_CTL]) ∧
  ((s.hostLive = false ∧ s.hcsnWakes = false ∨ (s.hostOpen Reg.WDT_CTL = true ∧ s.flag Reg.WDT_CTL Fld.WDT_CTL_EN = true)) →
    ∃ t, exec .wdtEnable s = .next t ∧ t.wdtFrom = s.wdtFrom ∧ s.Keeps t []) ∧
  (s.wdtRuns = true →
    (s.hostOpen Reg.WDT_KICK = true → ∃ t, exec (.wdtKick 0xA5) s = .next t ∧ t.wdtFrom = s.ck ∧ s.Keeps t []) ∧
    (s.hostOpen Reg.WDT_KICK = true → v ≠ 0xA5 → ∃ t, exec (.wdtKick v) s = .next t ∧ t.wdtFrom = s.wdtFrom ∧
      t.reg Reg.WDT_EVENT = Fld.WDT_EVENT_BAD_KICK.set (s.reg Reg.WDT_EVENT) 1 ∧ s.Keeps t [Reg.WDT_EVENT]) ∧
    (∃ t, exec .wdtEarly s = .next t ∧ t.flag Reg.WDT_EVENT Fld.WDT_EVENT_EARLY = true ∧
      t.ck = max s.ck (s.wdtFrom + msCk s.wdtMs / 2) ∧ s.Keeps t [Reg.TB_EVENT, Reg.WDT_EVENT]) ∧
    (s.flag Reg.WDT_CTL Fld.WDT_CTL_ACTION = false → s.resetPast → s.pwr.resetLow = false → s.pagesLinear →
      ∃ t, exec .watchdog s = .next t ∧ t.fld Reg.RESET_CAUSE Fld.RESET_CAUSE_CAUSE = 3 ∧ t.pwrState = 6 ∧
        t.ck = max s.ck (s.wdtFrom + msCk s.wdtMs) ∧ (∀ d ∈ offOrder, t.on d = false) ∧
        ({ s with regs := [] } : State).KeepsRegs t (resetTouches ++ [Reg.PWR_WAKE_CAUSE])) ∧
    (s.flag Reg.WDT_CTL Fld.WDT_CTL_ACTION = true →
      ∃ t, exec .watchdog s = .next t ∧ t.flag Reg.WDT_EVENT Fld.WDT_EVENT_EXPIRED = true ∧ t.pwr.faultLow = true ∧
        t.wdtFrom = max s.ck (s.wdtFrom + msCk s.wdtMs) ∧ t.on .core = true ∧ s.KeepsSram t)) ∧
  (s.wdtRuns = false → ((s.hostLive = false ∧ s.hcsnWakes = false ∨ s.hostOpen Reg.WDT_KICK = true) →
      ∃ t, exec (.wdtKick v) s = .next t ∧ t.wdtFrom = s.wdtFrom ∧ s.Keeps t []) ∧ ∀ c ∈ [Instr.wdtEarly, .watchdog], ∃ t, exec c s = .next t ∧ t.wdtFrom = s.wdtFrom ∧ s.Keeps t []) ∧
  (s.hostOpen Reg.TEST_UNLOCK = true → s.testEn = true →
    ∃ t u, exec (.testUnlock 0x3C3C) s = .next t ∧ exec (.testUnlock 0xC3C3) t = .next u ∧ u.unlocked = true ∧
      s.KeepsRegs u (Reg.TEST_UNLOCK :: logTouches)) ∧
  (s.hostOpen Reg.TEST_UNLOCK = true → s.testEn = false → v ≠ 0 →
    ∃ t, exec (.testUnlock v) s = .next t ∧ t.hostNo = s.hostNo + 1 ∧ s.Keeps t []) ∧
  (s.hostOpen Reg.TEST_UNLOCK = true → ∃ t, exec (.testUnlock 0) s = .next t ∧ t.unlocked = false ∧ s.Keeps t (Reg.TEST_UNLOCK :: logTouches)) ∧
  (s.hostLive = false → s.hcsnWakes = false → ∃ t, exec (.testUnlock v) s = .next t ∧ t.testKey = s.testKey ∧ s.Keeps t []) ∧
  (∃ t, exec .testEnFall s = .next t ∧ t.testEn = false ∧ t.unlocked = false ∧ s.Keeps t (Reg.TEST_UNLOCK :: logTouches))
end

