-- ==== Sys2Proof/Laws/Bits.lean ====
section
/-! SUPPORT. Laws of register fields and of lists of key and value pairs. -/

namespace Sys2Proof

theorem Fld.getLsbD_mask (f : Fld) (i : Nat) :
    f.mask.getLsbD i = (decide (i < 32) && decide (f.lo ≤ i) && decide (i < f.lo + f.len)) := by
  simp only [Fld.mask, BitVec.getLsbD_ofNat, Nat.testBit_shiftLeft, Nat.testBit_two_pow_sub_one]
  by_cases h1 : i < 32 <;> by_cases h2 : f.lo ≤ i <;> simp [h1, h2]
  omega

theorem Fld.getLsbD_set (f : Fld) (w : Word) (x i : Nat) (hi : i < 32) :
    (f.set w x).getLsbD i =
      if f.lo ≤ i ∧ i < f.lo + f.len then x.testBit (i - f.lo) else w.getLsbD i := by
  simp only [Fld.set, BitVec.getLsbD_or, BitVec.getLsbD_and, BitVec.getLsbD_not, Fld.getLsbD_mask, BitVec.getLsbD_ofNat,
    Nat.testBit_shiftLeft, Nat.testBit_mod_two_pow]
  by_cases h1 : f.lo ≤ i <;> by_cases h2 : i < f.lo + f.len
  · have h3 : i - f.lo < f.len := by omega
    simp [hi, h1, h2, h3]
  · have h3 : ¬ i - f.lo < f.len := by omega
    simp [hi, h1, h2, h3]
  · simp [hi, h1, h2]
  · simp [hi, h1, h2]

theorem Fld.testBit_get (f : Fld) (w : Word) (i : Nat) :
    (f.get w).testBit i = (decide (i < f.len) && w.getLsbD (f.lo + i)) := by
  simp [Fld.get, Nat.testBit_mod_two_pow, Nat.testBit_shiftRight, BitVec.testBit_toNat]

/-- A field reads what was put into it. -/
theorem Fld.get_set (f : Fld) (w : Word) (x : Nat) (h : f.lo + f.len ≤ 32) : f.get (f.set w x) = x % 2 ^ f.len := by
  apply Nat.eq_of_testBit_eq
  intro i
  rw [Fld.testBit_get, Nat.testBit_mod_two_pow]
  by_cases hi : i < f.len
  · rw [Fld.getLsbD_set _ _ _ _ (by omega)]
    simp [hi]
  · simp [hi]

/-- A field keeps its value when a field apart from it is written. -/
theorem Fld.get_set_apart (f g : Fld) (w : Word) (x : Nat) (h : g.lo + g.len ≤ 32)
    (d : f.lo + f.len ≤ g.lo ∨ g.lo + g.len ≤ f.lo) : g.get (f.set w x) = g.get w := by
  apply Nat.eq_of_testBit_eq
  intro i
  rw [Fld.testBit_get, Fld.testBit_get]
  by_cases hi : i < g.len
  · rw [Fld.getLsbD_set _ _ _ _ (by omega)]
    simp only [hi, decide_true, Bool.true_and]
    rw [if_neg (by omega)]
  · simp [hi]

/-- A one-bit field set to 1 is on. -/
theorem Fld.on_set_one (f : Fld) (w : Word) (h : f.lo + f.len ≤ 32) (l : f.len = 1) : f.on (f.set w 1) = true := by
  simp [Fld.on, Fld.get_set _ _ _ h, l]

/-- A field set to 0 is off. -/
theorem Fld.on_set_zero (f : Fld) (w : Word) (h : f.lo + f.len ≤ 32) : f.on (f.set w 0) = false := by
  simp [Fld.on, Fld.get_set _ _ _ h]

/-- A bit is on or off as before when a field apart from it is written. -/
theorem Fld.on_set_apart (f g : Fld) (w : Word) (x : Nat) (h : g.lo + g.len ≤ 32)
    (d : f.lo + f.len ≤ g.lo ∨ g.lo + g.len ≤ f.lo) : g.on (f.set w x) = g.on w := by
  simp [Fld.on, Fld.get_set_apart f g w x h d]

end Sys2Proof

namespace Sys2Proof.Machine

@[simp] theorem lookupKey_insertKey {α : Type} (l : List (Nat × α)) (a : Nat) (v : α) :
    lookupKey (insertKey l a v) a = some v := by
  induction l with
  | nil => simp [insertKey, lookupKey]
  | cons p l ih =>
    obtain ⟨b, w⟩ := p
    unfold insertKey
    split
    · simp [lookupKey]
    · rename_i h
      split
      · simp [lookupKey]
      · simp [lookupKey, h, ih]

theorem lookupKey_insertKey_ne {α : Type} (l : List (Nat × α)) (a c : Nat) (v : α) (h : c ≠ a) :
    lookupKey (insertKey l a v) c = lookupKey l c := by
  induction l with
  | nil => simp [insertKey, lookupKey, h]
  | cons p l ih =>
    obtain ⟨b, w⟩ := p
    unfold insertKey
    split
    · rename_i hb
      subst hb
      simp [lookupKey, h]
    · split
      · simp [lookupKey, h]
      · simp [lookupKey, ih]

/-- Every key of an insertion is the new one or an old one. -/
theorem mem_keys_insertKey {α : Type} (l : List (Nat × α)) (a c : Nat) (v : α)
    (h : c ∈ (insertKey l a v).map (·.1)) : c = a ∨ c ∈ l.map (·.1) := by
  induction l with
  | nil => simpa [insertKey] using h
  | cons p l ih =>
    obtain ⟨b, w⟩ := p
    unfold insertKey at h
    split at h
    · rename_i hb
      subst hb
      simp at h ⊢
      tauto
    · split at h
      · simp at h ⊢
        tauto
      · simp only [List.map_cons, List.mem_cons] at h ⊢
        rcases h with h | h
        · exact Or.inr (Or.inl h)
        · rcases ih h with h | h
          · exact Or.inl h
          · exact Or.inr (Or.inr h)

/-- Keys that rise go on rising. -/
theorem sorted_insertKey {α : Type} (l : List (Nat × α)) (a : Nat) (v : α)
    (h : (l.map (·.1)).Pairwise (· < ·)) : ((insertKey l a v).map (·.1)).Pairwise (· < ·) := by
  induction l with
  | nil => simp [insertKey]
  | cons p l ih =>
    obtain ⟨b, w⟩ := p
    simp only [List.map_cons, List.pairwise_cons] at h
    obtain ⟨hb, hl⟩ := h
    unfold insertKey
    split
    · rename_i e
      subst e
      simpa using ⟨fun c x hc => hb c (List.mem_map.2 ⟨(c, x), hc, rfl⟩), hl⟩
    · rename_i hne
      split
      · rename_i hlt
        refine List.pairwise_cons.2 ⟨?_, List.pairwise_cons.2 ⟨hb, hl⟩⟩
        intro c hc
        simp only [List.map_cons, List.mem_cons] at hc
        rcases hc with rfl | hc
        · exact hlt
        · exact Nat.lt_trans hlt (hb c hc)
      · rename_i hlt
        refine List.pairwise_cons.2 ⟨?_, ih hl⟩
        intro c hc
        rcases mem_keys_insertKey l a c v hc with rfl | hc
        · show b < c
          omega
        · exact hb c hc

end Sys2Proof.Machine
end

