-- ==== Sys2Proof/Laws/State.lean ====
section
/-! SUPPORT. What each update of the state leaves alone and what it puts, field by field. -/

namespace Sys2Proof.Machine

/-! ### A register put to a value -/

@[simp] theorem State.setReg_pending (s : State) (a : Nat) (v : Word) : (s.setReg a v).pending = s.pending := rfl
@[simp] theorem State.setReg_sram (s : State) (a : Nat) (v : Word) : (s.setReg a v).sram = s.sram := rfl
@[simp] theorem State.setReg_sramEpoch (s : State) (a : Nat) (v : Word) : (s.setReg a v).sramEpoch = s.sramEpoch := rfl
@[simp] theorem State.setReg_fuses (s : State) (a : Nat) (v : Word) : (s.setReg a v).fuses = s.fuses := rfl
@[simp] theorem State.setReg_ck (s : State) (a : Nat) (v : Word) : (s.setReg a v).ck = s.ck := rfl
@[simp] theorem State.setReg_time (s : State) (a : Nat) (v : Word) : (s.setReg a v).time = s.time := rfl
@[simp] theorem State.setReg_tbValid (s : State) (a : Nat) (v : Word) : (s.setReg a v).tbValid = s.tbValid := rfl
@[simp] theorem State.setReg_tbLoad (s : State) (a : Nat) (v : Word) : (s.setReg a v).tbLoad = s.tbLoad := rfl
@[simp] theorem State.setReg_timers (s : State) (a : Nat) (v : Word) : (s.setReg a v).timers = s.timers := rfl
@[simp] theorem State.setReg_hostData (s : State) (a : Nat) (v : Word) : (s.setReg a v).hostData = s.hostData := rfl
@[simp] theorem State.setReg_hostStat (s : State) (a : Nat) (v : Word) : (s.setReg a v).hostStat = s.hostStat := rfl
@[simp] theorem State.setReg_latches (s : State) (a : Nat) (v : Word) : (s.setReg a v).latches = s.latches := rfl
@[simp] theorem State.setReg_hostNo (s : State) (a : Nat) (v : Word) : (s.setReg a v).hostNo = s.hostNo := rfl
@[simp] theorem State.setReg_guardKey (s : State) (a : Nat) (v : Word) : (s.setReg a v).guardKey = s.guardKey := rfl
@[simp] theorem State.setReg_testKey (s : State) (a : Nat) (v : Word) : (s.setReg a v).testKey = s.testKey := rfl
@[simp] theorem State.setReg_testEn (s : State) (a : Nat) (v : Word) : (s.setReg a v).testEn = s.testEn := rfl
@[simp] theorem State.setReg_linkFails (s : State) (a : Nat) (v : Word) : (s.setReg a v).linkFails = s.linkFails := rfl
@[simp] theorem State.setReg_linkDown (s : State) (a : Nat) (v : Word) : (s.setReg a v).linkDown = s.linkDown := rfl
@[simp] theorem State.setReg_ckLost (s : State) (a : Nat) (v : Word) : (s.setReg a v).ckLost = s.ckLost := rfl
@[simp] theorem State.setReg_late (s : State) (a : Nat) (v : Word) : (s.setReg a v).late = s.late := rfl
@[simp] theorem State.setReg_commitReq (s : State) (a : Nat) (v : Word) : (s.setReg a v).commitReq = s.commitReq := rfl
@[simp] theorem State.setReg_commitRun (s : State) (a : Nat) (v : Word) : (s.setReg a v).commitRun = s.commitRun := rfl
@[simp] theorem State.setReg_gridAt (s : State) (a : Nat) (v : Word) : (s.setReg a v).gridAt = s.gridAt := rfl
@[simp] theorem State.setReg_timeAt (s : State) (a : Nat) (v : Word) : (s.setReg a v).timeAt = s.timeAt := rfl
@[simp] theorem State.setReg_jumps (s : State) (a : Nat) (v : Word) : (s.setReg a v).jumps = s.jumps := rfl
@[simp] theorem State.setReg_refCrc (s : State) (a : Nat) (v : Word) : (s.setReg a v).refCrc = s.refCrc := rfl
@[simp] theorem State.setReg_tick (s : State) (a : Nat) (v : Word) : (s.setReg a v).tick = s.tick := rfl
@[simp] theorem State.setReg_tickAt (s : State) (a : Nat) (v : Word) : (s.setReg a v).tickAt = s.tickAt := rfl
@[simp] theorem State.setReg_logMem (s : State) (a : Nat) (v : Word) : (s.setReg a v).logMem = s.logMem := rfl
@[simp] theorem State.setReg_logSeq (s : State) (a : Nat) (v : Word) : (s.setReg a v).logSeq = s.logSeq := rfl
@[simp] theorem State.setReg_offCount (s : State) (a : Nat) (v : Word) : (s.setReg a v).offCount = s.offCount := rfl
@[simp] theorem State.setReg_offLast (s : State) (a : Nat) (v : Word) : (s.setReg a v).offLast = s.offLast := rfl
@[simp] theorem State.setReg_retryCount (s : State) (a : Nat) (v : Word) : (s.setReg a v).retryCount = s.retryCount := rfl
@[simp] theorem State.setReg_retryLast (s : State) (a : Nat) (v : Word) : (s.setReg a v).retryLast = s.retryLast := rfl
@[simp] theorem State.setReg_spoolSet (s : State) (a : Nat) (v : Word) : (s.setReg a v).spoolSet = s.spoolSet := rfl
@[simp] theorem State.setReg_spoolRst (s : State) (a : Nat) (v : Word) : (s.setReg a v).spoolRst = s.spoolRst := rfl
@[simp] theorem State.setReg_seqReg (s : State) (a : Nat) (v : Word) : (s.setReg a v).seqReg = s.seqReg := rfl
@[simp] theorem State.setReg_seqInj (s : State) (a : Nat) (v : Word) : (s.setReg a v).seqInj = s.seqInj := rfl
@[simp] theorem State.setReg_seqLoop (s : State) (a : Nat) (v : Word) : (s.setReg a v).seqLoop = s.seqLoop := rfl
@[simp] theorem State.setReg_seqRec (s : State) (a : Nat) (v : Word) : (s.setReg a v).seqRec = s.seqRec := rfl
@[simp] theorem State.setReg_slices (s : State) (a : Nat) (v : Word) : (s.setReg a v).slices = s.slices := rfl
@[simp] theorem State.setReg_seq (s : State) (a : Nat) (v : Word) : (s.setReg a v).seq = s.seq := rfl
@[simp] theorem State.setReg_inj (s : State) (a : Nat) (v : Word) : (s.setReg a v).inj = s.inj := rfl
@[simp] theorem State.setReg_accs (s : State) (a : Nat) (v : Word) : (s.setReg a v).accs = s.accs := rfl
@[simp] theorem State.setReg_newReg (s : State) (a : Nat) (v : Word) : (s.setReg a v).newReg = s.newReg := rfl
@[simp] theorem State.setReg_newInj (s : State) (a : Nat) (v : Word) : (s.setReg a v).newInj = s.newInj := rfl
@[simp] theorem State.setReg_mains (s : State) (a : Nat) (v : Word) : (s.setReg a v).mains = s.mains := rfl
@[simp] theorem State.setReg_reel (s : State) (a : Nat) (v : Word) : (s.setReg a v).reel = s.reel := rfl
@[simp] theorem State.setReg_cal (s : State) (a : Nat) (v : Word) : (s.setReg a v).cal = s.cal := rfl
@[simp] theorem State.setReg_refSince (s : State) (a : Nat) (v : Word) : (s.setReg a v).refSince = s.refSince := rfl
@[simp] theorem State.setReg_excMode (s : State) (a : Nat) (v : Word) : (s.setReg a v).excMode = s.excMode := rfl
@[simp] theorem State.setReg_ports (s : State) (a : Nat) (v : Word) : (s.setReg a v).ports = s.ports := rfl
@[simp] theorem State.setReg_keepers (s : State) (a : Nat) (v : Word) : (s.setReg a v).keepers = s.keepers := rfl
@[simp] theorem State.setReg_modems (s : State) (a : Nat) (v : Word) : (s.setReg a v).modems = s.modems := rfl
@[simp] theorem State.setReg_lanes (s : State) (a : Nat) (v : Word) : (s.setReg a v).lanes = s.lanes := rfl
@[simp] theorem State.setReg_actQueue (s : State) (a : Nat) (v : Word) : (s.setReg a v).actQueue = s.actQueue := rfl
@[simp] theorem State.setReg_engBusy (s : State) (a : Nat) (v : Word) : (s.setReg a v).engBusy = s.engBusy := rfl
@[simp] theorem State.setReg_keeperCore (s : State) (a : Nat) (v : Word) : (s.setReg a v).keeperCore = s.keeperCore := rfl
@[simp] theorem State.setReg_od (s : State) (a : Nat) (v : Word) : (s.setReg a v).od = s.od := rfl
@[simp] theorem State.setReg_trunks (s : State) (a : Nat) (v : Word) : (s.setReg a v).trunks = s.trunks := rfl
@[simp] theorem State.setReg_ring (s : State) (a : Nat) (v : Word) : (s.setReg a v).ring = s.ring := rfl
@[simp] theorem State.setReg_wdtFrom (s : State) (a : Nat) (v : Word) : (s.setReg a v).wdtFrom = s.wdtFrom := rfl
@[simp] theorem State.setReg_pwr (s : State) (a : Nat) (v : Word) : (s.setReg a v).pwr = s.pwr := rfl
@[simp] theorem State.setReg_tether (s : State) (a : Nat) (v : Word) : (s.setReg a v).tether = s.tether := rfl
@[simp] theorem State.setReg_freeN (s : State) (a : Nat) (v : Word) : (s.setReg a v).freeN = s.freeN := rfl

/-! ### setSlice -/

@[simp] theorem State.setSlice_pending (s : State) (i : Nat) (x : Slice) : (s.setSlice i x).pending = s.pending := rfl
@[simp] theorem State.setSlice_regs (s : State) (i : Nat) (x : Slice) : (s.setSlice i x).regs = s.regs := rfl
@[simp] theorem State.setSlice_sram (s : State) (i : Nat) (x : Slice) : (s.setSlice i x).sram = s.sram := rfl
@[simp] theorem State.setSlice_sramEpoch (s : State) (i : Nat) (x : Slice) : (s.setSlice i x).sramEpoch = s.sramEpoch := rfl
@[simp] theorem State.setSlice_fuses (s : State) (i : Nat) (x : Slice) : (s.setSlice i x).fuses = s.fuses := rfl
@[simp] theorem State.setSlice_ck (s : State) (i : Nat) (x : Slice) : (s.setSlice i x).ck = s.ck := rfl
@[simp] theorem State.setSlice_time (s : State) (i : Nat) (x : Slice) : (s.setSlice i x).time = s.time := rfl
@[simp] theorem State.setSlice_tbValid (s : State) (i : Nat) (x : Slice) : (s.setSlice i x).tbValid = s.tbValid := rfl
@[simp] theorem State.setSlice_tbLoad (s : State) (i : Nat) (x : Slice) : (s.setSlice i x).tbLoad = s.tbLoad := rfl
@[simp] theorem State.setSlice_timers (s : State) (i : Nat) (x : Slice) : (s.setSlice i x).timers = s.timers := rfl
@[simp] theorem State.setSlice_hostData (s : State) (i : Nat) (x : Slice) : (s.setSlice i x).hostData = s.hostData := rfl
@[simp] theorem State.setSlice_hostStat (s : State) (i : Nat) (x : Slice) : (s.setSlice i x).hostStat = s.hostStat := rfl
@[simp] theorem State.setSlice_latches (s : State) (i : Nat) (x : Slice) : (s.setSlice i x).latches = s.latches := rfl
@[simp] theorem State.setSlice_hostNo (s : State) (i : Nat) (x : Slice) : (s.setSlice i x).hostNo = s.hostNo := rfl
@[simp] theorem State.setSlice_guardKey (s : State) (i : Nat) (x : Slice) : (s.setSlice i x).guardKey = s.guardKey := rfl
@[simp] theorem State.setSlice_testKey (s : State) (i : Nat) (x : Slice) : (s.setSlice i x).testKey = s.testKey := rfl
@[simp] theorem State.setSlice_testEn (s : State) (i : Nat) (x : Slice) : (s.setSlice i x).testEn = s.testEn := rfl
@[simp] theorem State.setSlice_linkFails (s : State) (i : Nat) (x : Slice) : (s.setSlice i x).linkFails = s.linkFails := rfl
@[simp] theorem State.setSlice_linkDown (s : State) (i : Nat) (x : Slice) : (s.setSlice i x).linkDown = s.linkDown := rfl
@[simp] theorem State.setSlice_ckLost (s : State) (i : Nat) (x : Slice) : (s.setSlice i x).ckLost = s.ckLost := rfl
@[simp] theorem State.setSlice_late (s : State) (i : Nat) (x : Slice) : (s.setSlice i x).late = s.late := rfl
@[simp] theorem State.setSlice_commitReq (s : State) (i : Nat) (x : Slice) : (s.setSlice i x).commitReq = s.commitReq := rfl
@[simp] theorem State.setSlice_commitRun (s : State) (i : Nat) (x : Slice) : (s.setSlice i x).commitRun = s.commitRun := rfl
@[simp] theorem State.setSlice_gridAt (s : State) (i : Nat) (x : Slice) : (s.setSlice i x).gridAt = s.gridAt := rfl
@[simp] theorem State.setSlice_timeAt (s : State) (i : Nat) (x : Slice) : (s.setSlice i x).timeAt = s.timeAt := rfl
@[simp] theorem State.setSlice_jumps (s : State) (i : Nat) (x : Slice) : (s.setSlice i x).jumps = s.jumps := rfl
@[simp] theorem State.setSlice_refCrc (s : State) (i : Nat) (x : Slice) : (s.setSlice i x).refCrc = s.refCrc := rfl
@[simp] theorem State.setSlice_tick (s : State) (i : Nat) (x : Slice) : (s.setSlice i x).tick = s.tick := rfl
@[simp] theorem State.setSlice_tickAt (s : State) (i : Nat) (x : Slice) : (s.setSlice i x).tickAt = s.tickAt := rfl
@[simp] theorem State.setSlice_logMem (s : State) (i : Nat) (x : Slice) : (s.setSlice i x).logMem = s.logMem := rfl
@[simp] theorem State.setSlice_logSeq (s : State) (i : Nat) (x : Slice) : (s.setSlice i x).logSeq = s.logSeq := rfl
@[simp] theorem State.setSlice_offCount (s : State) (i : Nat) (x : Slice) : (s.setSlice i x).offCount = s.offCount := rfl
@[simp] theorem State.setSlice_offLast (s : State) (i : Nat) (x : Slice) : (s.setSlice i x).offLast = s.offLast := rfl
@[simp] theorem State.setSlice_retryCount (s : State) (i : Nat) (x : Slice) : (s.setSlice i x).retryCount = s.retryCount := rfl
@[simp] theorem State.setSlice_retryLast (s : State) (i : Nat) (x : Slice) : (s.setSlice i x).retryLast = s.retryLast := rfl
@[simp] theorem State.setSlice_spoolSet (s : State) (i : Nat) (x : Slice) : (s.setSlice i x).spoolSet = s.spoolSet := rfl
@[simp] theorem State.setSlice_spoolRst (s : State) (i : Nat) (x : Slice) : (s.setSlice i x).spoolRst = s.spoolRst := rfl
@[simp] theorem State.setSlice_seqReg (s : State) (i : Nat) (x : Slice) : (s.setSlice i x).seqReg = s.seqReg := rfl
@[simp] theorem State.setSlice_seqInj (s : State) (i : Nat) (x : Slice) : (s.setSlice i x).seqInj = s.seqInj := rfl
@[simp] theorem State.setSlice_seqLoop (s : State) (i : Nat) (x : Slice) : (s.setSlice i x).seqLoop = s.seqLoop := rfl
@[simp] theorem State.setSlice_seqRec (s : State) (i : Nat) (x : Slice) : (s.setSlice i x).seqRec = s.seqRec := rfl
@[simp] theorem State.setSlice_seq (s : State) (i : Nat) (x : Slice) : (s.setSlice i x).seq = s.seq := rfl
@[simp] theorem State.setSlice_inj (s : State) (i : Nat) (x : Slice) : (s.setSlice i x).inj = s.inj := rfl
@[simp] theorem State.setSlice_accs (s : State) (i : Nat) (x : Slice) : (s.setSlice i x).accs = s.accs := rfl
@[simp] theorem State.setSlice_newReg (s : State) (i : Nat) (x : Slice) : (s.setSlice i x).newReg = s.newReg := rfl
@[simp] theorem State.setSlice_newInj (s : State) (i : Nat) (x : Slice) : (s.setSlice i x).newInj = s.newInj := rfl
@[simp] theorem State.setSlice_mains (s : State) (i : Nat) (x : Slice) : (s.setSlice i x).mains = s.mains := rfl
@[simp] theorem State.setSlice_reel (s : State) (i : Nat) (x : Slice) : (s.setSlice i x).reel = s.reel := rfl
@[simp] theorem State.setSlice_cal (s : State) (i : Nat) (x : Slice) : (s.setSlice i x).cal = s.cal := rfl
@[simp] theorem State.setSlice_refSince (s : State) (i : Nat) (x : Slice) : (s.setSlice i x).refSince = s.refSince := rfl
@[simp] theorem State.setSlice_excMode (s : State) (i : Nat) (x : Slice) : (s.setSlice i x).excMode = s.excMode := rfl
@[simp] theorem State.setSlice_ports (s : State) (i : Nat) (x : Slice) : (s.setSlice i x).ports = s.ports := rfl
@[simp] theorem State.setSlice_keepers (s : State) (i : Nat) (x : Slice) : (s.setSlice i x).keepers = s.keepers := rfl
@[simp] theorem State.setSlice_modems (s : State) (i : Nat) (x : Slice) : (s.setSlice i x).modems = s.modems := rfl
@[simp] theorem State.setSlice_lanes (s : State) (i : Nat) (x : Slice) : (s.setSlice i x).lanes = s.lanes := rfl
@[simp] theorem State.setSlice_actQueue (s : State) (i : Nat) (x : Slice) : (s.setSlice i x).actQueue = s.actQueue := rfl
@[simp] theorem State.setSlice_engBusy (s : State) (i : Nat) (x : Slice) : (s.setSlice i x).engBusy = s.engBusy := rfl
@[simp] theorem State.setSlice_keeperCore (s : State) (i : Nat) (x : Slice) : (s.setSlice i x).keeperCore = s.keeperCore := rfl
@[simp] theorem State.setSlice_od (s : State) (i : Nat) (x : Slice) : (s.setSlice i x).od = s.od := rfl
@[simp] theorem State.setSlice_trunks (s : State) (i : Nat) (x : Slice) : (s.setSlice i x).trunks = s.trunks := rfl
@[simp] theorem State.setSlice_ring (s : State) (i : Nat) (x : Slice) : (s.setSlice i x).ring = s.ring := rfl
@[simp] theorem State.setSlice_wdtFrom (s : State) (i : Nat) (x : Slice) : (s.setSlice i x).wdtFrom = s.wdtFrom := rfl
@[simp] theorem State.setSlice_pwr (s : State) (i : Nat) (x : Slice) : (s.setSlice i x).pwr = s.pwr := rfl
@[simp] theorem State.setSlice_tether (s : State) (i : Nat) (x : Slice) : (s.setSlice i x).tether = s.tether := rfl
@[simp] theorem State.setSlice_freeN (s : State) (i : Nat) (x : Slice) : (s.setSlice i x).freeN = s.freeN := rfl
@[simp] theorem State.setSlice_reg (s : State) (i : Nat) (x : Slice) (a : Nat) : (s.setSlice i x).reg a = s.reg a := rfl

/-! ### setPort -/

@[simp] theorem State.setPort_pending (s : State) (i : Nat) (x : Port) : (s.setPort i x).pending = s.pending := rfl
@[simp] theorem State.setPort_regs (s : State) (i : Nat) (x : Port) : (s.setPort i x).regs = s.regs := rfl
@[simp] theorem State.setPort_sram (s : State) (i : Nat) (x : Port) : (s.setPort i x).sram = s.sram := rfl
@[simp] theorem State.setPort_sramEpoch (s : State) (i : Nat) (x : Port) : (s.setPort i x).sramEpoch = s.sramEpoch := rfl
@[simp] theorem State.setPort_fuses (s : State) (i : Nat) (x : Port) : (s.setPort i x).fuses = s.fuses := rfl
@[simp] theorem State.setPort_ck (s : State) (i : Nat) (x : Port) : (s.setPort i x).ck = s.ck := rfl
@[simp] theorem State.setPort_time (s : State) (i : Nat) (x : Port) : (s.setPort i x).time = s.time := rfl
@[simp] theorem State.setPort_tbValid (s : State) (i : Nat) (x : Port) : (s.setPort i x).tbValid = s.tbValid := rfl
@[simp] theorem State.setPort_tbLoad (s : State) (i : Nat) (x : Port) : (s.setPort i x).tbLoad = s.tbLoad := rfl
@[simp] theorem State.setPort_timers (s : State) (i : Nat) (x : Port) : (s.setPort i x).timers = s.timers := rfl
@[simp] theorem State.setPort_hostData (s : State) (i : Nat) (x : Port) : (s.setPort i x).hostData = s.hostData := rfl
@[simp] theorem State.setPort_hostStat (s : State) (i : Nat) (x : Port) : (s.setPort i x).hostStat = s.hostStat := rfl
@[simp] theorem State.setPort_latches (s : State) (i : Nat) (x : Port) : (s.setPort i x).latches = s.latches := rfl
@[simp] theorem State.setPort_hostNo (s : State) (i : Nat) (x : Port) : (s.setPort i x).hostNo = s.hostNo := rfl
@[simp] theorem State.setPort_guardKey (s : State) (i : Nat) (x : Port) : (s.setPort i x).guardKey = s.guardKey := rfl
@[simp] theorem State.setPort_testKey (s : State) (i : Nat) (x : Port) : (s.setPort i x).testKey = s.testKey := rfl
@[simp] theorem State.setPort_testEn (s : State) (i : Nat) (x : Port) : (s.setPort i x).testEn = s.testEn := rfl
@[simp] theorem State.setPort_linkFails (s : State) (i : Nat) (x : Port) : (s.setPort i x).linkFails = s.linkFails := rfl
@[simp] theorem State.setPort_linkDown (s : State) (i : Nat) (x : Port) : (s.setPort i x).linkDown = s.linkDown := rfl
@[simp] theorem State.setPort_ckLost (s : State) (i : Nat) (x : Port) : (s.setPort i x).ckLost = s.ckLost := rfl
@[simp] theorem State.setPort_late (s : State) (i : Nat) (x : Port) : (s.setPort i x).late = s.late := rfl
@[simp] theorem State.setPort_commitReq (s : State) (i : Nat) (x : Port) : (s.setPort i x).commitReq = s.commitReq := rfl
@[simp] theorem State.setPort_commitRun (s : State) (i : Nat) (x : Port) : (s.setPort i x).commitRun = s.commitRun := rfl
@[simp] theorem State.setPort_gridAt (s : State) (i : Nat) (x : Port) : (s.setPort i x).gridAt = s.gridAt := rfl
@[simp] theorem State.setPort_timeAt (s : State) (i : Nat) (x : Port) : (s.setPort i x).timeAt = s.timeAt := rfl
@[simp] theorem State.setPort_jumps (s : State) (i : Nat) (x : Port) : (s.setPort i x).jumps = s.jumps := rfl
@[simp] theorem State.setPort_refCrc (s : State) (i : Nat) (x : Port) : (s.setPort i x).refCrc = s.refCrc := rfl
@[simp] theorem State.setPort_tick (s : State) (i : Nat) (x : Port) : (s.setPort i x).tick = s.tick := rfl
@[simp] theorem State.setPort_tickAt (s : State) (i : Nat) (x : Port) : (s.setPort i x).tickAt = s.tickAt := rfl
@[simp] theorem State.setPort_logMem (s : State) (i : Nat) (x : Port) : (s.setPort i x).logMem = s.logMem := rfl
@[simp] theorem State.setPort_logSeq (s : State) (i : Nat) (x : Port) : (s.setPort i x).logSeq = s.logSeq := rfl
@[simp] theorem State.setPort_offCount (s : State) (i : Nat) (x : Port) : (s.setPort i x).offCount = s.offCount := rfl
@[simp] theorem State.setPort_offLast (s : State) (i : Nat) (x : Port) : (s.setPort i x).offLast = s.offLast := rfl
@[simp] theorem State.setPort_retryCount (s : State) (i : Nat) (x : Port) : (s.setPort i x).retryCount = s.retryCount := rfl
@[simp] theorem State.setPort_retryLast (s : State) (i : Nat) (x : Port) : (s.setPort i x).retryLast = s.retryLast := rfl
@[simp] theorem State.setPort_spoolSet (s : State) (i : Nat) (x : Port) : (s.setPort i x).spoolSet = s.spoolSet := rfl
@[simp] theorem State.setPort_spoolRst (s : State) (i : Nat) (x : Port) : (s.setPort i x).spoolRst = s.spoolRst := rfl
@[simp] theorem State.setPort_seqReg (s : State) (i : Nat) (x : Port) : (s.setPort i x).seqReg = s.seqReg := rfl
@[simp] theorem State.setPort_seqInj (s : State) (i : Nat) (x : Port) : (s.setPort i x).seqInj = s.seqInj := rfl
@[simp] theorem State.setPort_seqLoop (s : State) (i : Nat) (x : Port) : (s.setPort i x).seqLoop = s.seqLoop := rfl
@[simp] theorem State.setPort_seqRec (s : State) (i : Nat) (x : Port) : (s.setPort i x).seqRec = s.seqRec := rfl
@[simp] theorem State.setPort_slices (s : State) (i : Nat) (x : Port) : (s.setPort i x).slices = s.slices := rfl
@[simp] theorem State.setPort_seq (s : State) (i : Nat) (x : Port) : (s.setPort i x).seq = s.seq := rfl
@[simp] theorem State.setPort_inj (s : State) (i : Nat) (x : Port) : (s.setPort i x).inj = s.inj := rfl
@[simp] theorem State.setPort_accs (s : State) (i : Nat) (x : Port) : (s.setPort i x).accs = s.accs := rfl
@[simp] theorem State.setPort_newReg (s : State) (i : Nat) (x : Port) : (s.setPort i x).newReg = s.newReg := rfl
@[simp] theorem State.setPort_newInj (s : State) (i : Nat) (x : Port) : (s.setPort i x).newInj = s.newInj := rfl
@[simp] theorem State.setPort_mains (s : State) (i : Nat) (x : Port) : (s.setPort i x).mains = s.mains := rfl
@[simp] theorem State.setPort_reel (s : State) (i : Nat) (x : Port) : (s.setPort i x).reel = s.reel := rfl
@[simp] theorem State.setPort_cal (s : State) (i : Nat) (x : Port) : (s.setPort i x).cal = s.cal := rfl
@[simp] theorem State.setPort_refSince (s : State) (i : Nat) (x : Port) : (s.setPort i x).refSince = s.refSince := rfl
@[simp] theorem State.setPort_excMode (s : State) (i : Nat) (x : Port) : (s.setPort i x).excMode = s.excMode := rfl
@[simp] theorem State.setPort_keepers (s : State) (i : Nat) (x : Port) : (s.setPort i x).keepers = s.keepers := rfl
@[simp] theorem State.setPort_modems (s : State) (i : Nat) (x : Port) : (s.setPort i x).modems = s.modems := rfl
@[simp] theorem State.setPort_lanes (s : State) (i : Nat) (x : Port) : (s.setPort i x).lanes = s.lanes := rfl
@[simp] theorem State.setPort_actQueue (s : State) (i : Nat) (x : Port) : (s.setPort i x).actQueue = s.actQueue := rfl
@[simp] theorem State.setPort_engBusy (s : State) (i : Nat) (x : Port) : (s.setPort i x).engBusy = s.engBusy := rfl
@[simp] theorem State.setPort_keeperCore (s : State) (i : Nat) (x : Port) : (s.setPort i x).keeperCore = s.keeperCore := rfl
@[simp] theorem State.setPort_od (s : State) (i : Nat) (x : Port) : (s.setPort i x).od = s.od := rfl
@[simp] theorem State.setPort_trunks (s : State) (i : Nat) (x : Port) : (s.setPort i x).trunks = s.trunks := rfl
@[simp] theorem State.setPort_ring (s : State) (i : Nat) (x : Port) : (s.setPort i x).ring = s.ring := rfl
@[simp] theorem State.setPort_wdtFrom (s : State) (i : Nat) (x : Port) : (s.setPort i x).wdtFrom = s.wdtFrom := rfl
@[simp] theorem State.setPort_pwr (s : State) (i : Nat) (x : Port) : (s.setPort i x).pwr = s.pwr := rfl
@[simp] theorem State.setPort_tether (s : State) (i : Nat) (x : Port) : (s.setPort i x).tether = s.tether := rfl
@[simp] theorem State.setPort_freeN (s : State) (i : Nat) (x : Port) : (s.setPort i x).freeN = s.freeN := rfl
@[simp] theorem State.setPort_reg (s : State) (i : Nat) (x : Port) (a : Nat) : (s.setPort i x).reg a = s.reg a := rfl

/-! ### setModem -/

@[simp] theorem State.setModem_pending (s : State) (i : Nat) (x : Modem) : (s.setModem i x).pending = s.pending := rfl
@[simp] theorem State.setModem_regs (s : State) (i : Nat) (x : Modem) : (s.setModem i x).regs = s.regs := rfl
@[simp] theorem State.setModem_sram (s : State) (i : Nat) (x : Modem) : (s.setModem i x).sram = s.sram := rfl
@[simp] theorem State.setModem_sramEpoch (s : State) (i : Nat) (x : Modem) : (s.setModem i x).sramEpoch = s.sramEpoch := rfl
@[simp] theorem State.setModem_fuses (s : State) (i : Nat) (x : Modem) : (s.setModem i x).fuses = s.fuses := rfl
@[simp] theorem State.setModem_ck (s : State) (i : Nat) (x : Modem) : (s.setModem i x).ck = s.ck := rfl
@[simp] theorem State.setModem_time (s : State) (i : Nat) (x : Modem) : (s.setModem i x).time = s.time := rfl
@[simp] theorem State.setModem_tbValid (s : State) (i : Nat) (x : Modem) : (s.setModem i x).tbValid = s.tbValid := rfl
@[simp] theorem State.setModem_tbLoad (s : State) (i : Nat) (x : Modem) : (s.setModem i x).tbLoad = s.tbLoad := rfl
@[simp] theorem State.setModem_timers (s : State) (i : Nat) (x : Modem) : (s.setModem i x).timers = s.timers := rfl
@[simp] theorem State.setModem_hostData (s : State) (i : Nat) (x : Modem) : (s.setModem i x).hostData = s.hostData := rfl
@[simp] theorem State.setModem_hostStat (s : State) (i : Nat) (x : Modem) : (s.setModem i x).hostStat = s.hostStat := rfl
@[simp] theorem State.setModem_latches (s : State) (i : Nat) (x : Modem) : (s.setModem i x).latches = s.latches := rfl
@[simp] theorem State.setModem_hostNo (s : State) (i : Nat) (x : Modem) : (s.setModem i x).hostNo = s.hostNo := rfl
@[simp] theorem State.setModem_guardKey (s : State) (i : Nat) (x : Modem) : (s.setModem i x).guardKey = s.guardKey := rfl
@[simp] theorem State.setModem_testKey (s : State) (i : Nat) (x : Modem) : (s.setModem i x).testKey = s.testKey := rfl
@[simp] theorem State.setModem_testEn (s : State) (i : Nat) (x : Modem) : (s.setModem i x).testEn = s.testEn := rfl
@[simp] theorem State.setModem_linkFails (s : State) (i : Nat) (x : Modem) : (s.setModem i x).linkFails = s.linkFails := rfl
@[simp] theorem State.setModem_linkDown (s : State) (i : Nat) (x : Modem) : (s.setModem i x).linkDown = s.linkDown := rfl
@[simp] theorem State.setModem_ckLost (s : State) (i : Nat) (x : Modem) : (s.setModem i x).ckLost = s.ckLost := rfl
@[simp] theorem State.setModem_late (s : State) (i : Nat) (x : Modem) : (s.setModem i x).late = s.late := rfl
@[simp] theorem State.setModem_commitReq (s : State) (i : Nat) (x : Modem) : (s.setModem i x).commitReq = s.commitReq := rfl
@[simp] theorem State.setModem_commitRun (s : State) (i : Nat) (x : Modem) : (s.setModem i x).commitRun = s.commitRun := rfl
@[simp] theorem State.setModem_gridAt (s : State) (i : Nat) (x : Modem) : (s.setModem i x).gridAt = s.gridAt := rfl
@[simp] theorem State.setModem_timeAt (s : State) (i : Nat) (x : Modem) : (s.setModem i x).timeAt = s.timeAt := rfl
@[simp] theorem State.setModem_jumps (s : State) (i : Nat) (x : Modem) : (s.setModem i x).jumps = s.jumps := rfl
@[simp] theorem State.setModem_refCrc (s : State) (i : Nat) (x : Modem) : (s.setModem i x).refCrc = s.refCrc := rfl
@[simp] theorem State.setModem_tick (s : State) (i : Nat) (x : Modem) : (s.setModem i x).tick = s.tick := rfl
@[simp] theorem State.setModem_tickAt (s : State) (i : Nat) (x : Modem) : (s.setModem i x).tickAt = s.tickAt := rfl
@[simp] theorem State.setModem_logMem (s : State) (i : Nat) (x : Modem) : (s.setModem i x).logMem = s.logMem := rfl
@[simp] theorem State.setModem_logSeq (s : State) (i : Nat) (x : Modem) : (s.setModem i x).logSeq = s.logSeq := rfl
@[simp] theorem State.setModem_offCount (s : State) (i : Nat) (x : Modem) : (s.setModem i x).offCount = s.offCount := rfl
@[simp] theorem State.setModem_offLast (s : State) (i : Nat) (x : Modem) : (s.setModem i x).offLast = s.offLast := rfl
@[simp] theorem State.setModem_retryCount (s : State) (i : Nat) (x : Modem) : (s.setModem i x).retryCount = s.retryCount := rfl
@[simp] theorem State.setModem_retryLast (s : State) (i : Nat) (x : Modem) : (s.setModem i x).retryLast = s.retryLast := rfl
@[simp] theorem State.setModem_spoolSet (s : State) (i : Nat) (x : Modem) : (s.setModem i x).spoolSet = s.spoolSet := rfl
@[simp] theorem State.setModem_spoolRst (s : State) (i : Nat) (x : Modem) : (s.setModem i x).spoolRst = s.spoolRst := rfl
@[simp] theorem State.setModem_seqReg (s : State) (i : Nat) (x : Modem) : (s.setModem i x).seqReg = s.seqReg := rfl
@[simp] theorem State.setModem_seqInj (s : State) (i : Nat) (x : Modem) : (s.setModem i x).seqInj = s.seqInj := rfl
@[simp] theorem State.setModem_seqLoop (s : State) (i : Nat) (x : Modem) : (s.setModem i x).seqLoop = s.seqLoop := rfl
@[simp] theorem State.setModem_seqRec (s : State) (i : Nat) (x : Modem) : (s.setModem i x).seqRec = s.seqRec := rfl
@[simp] theorem State.setModem_slices (s : State) (i : Nat) (x : Modem) : (s.setModem i x).slices = s.slices := rfl
@[simp] theorem State.setModem_seq (s : State) (i : Nat) (x : Modem) : (s.setModem i x).seq = s.seq := rfl
@[simp] theorem State.setModem_inj (s : State) (i : Nat) (x : Modem) : (s.setModem i x).inj = s.inj := rfl
@[simp] theorem State.setModem_accs (s : State) (i : Nat) (x : Modem) : (s.setModem i x).accs = s.accs := rfl
@[simp] theorem State.setModem_newReg (s : State) (i : Nat) (x : Modem) : (s.setModem i x).newReg = s.newReg := rfl
@[simp] theorem State.setModem_newInj (s : State) (i : Nat) (x : Modem) : (s.setModem i x).newInj = s.newInj := rfl
@[simp] theorem State.setModem_mains (s : State) (i : Nat) (x : Modem) : (s.setModem i x).mains = s.mains := rfl
@[simp] theorem State.setModem_reel (s : State) (i : Nat) (x : Modem) : (s.setModem i x).reel = s.reel := rfl
@[simp] theorem State.setModem_cal (s : State) (i : Nat) (x : Modem) : (s.setModem i x).cal = s.cal := rfl
@[simp] theorem State.setModem_refSince (s : State) (i : Nat) (x : Modem) : (s.setModem i x).refSince = s.refSince := rfl
@[simp] theorem State.setModem_excMode (s : State) (i : Nat) (x : Modem) : (s.setModem i x).excMode = s.excMode := rfl
@[simp] theorem State.setModem_ports (s : State) (i : Nat) (x : Modem) : (s.setModem i x).ports = s.ports := rfl
@[simp] theorem State.setModem_keepers (s : State) (i : Nat) (x : Modem) : (s.setModem i x).keepers = s.keepers := rfl
@[simp] theorem State.setModem_lanes (s : State) (i : Nat) (x : Modem) : (s.setModem i x).lanes = s.lanes := rfl
@[simp] theorem State.setModem_actQueue (s : State) (i : Nat) (x : Modem) : (s.setModem i x).actQueue = s.actQueue := rfl
@[simp] theorem State.setModem_engBusy (s : State) (i : Nat) (x : Modem) : (s.setModem i x).engBusy = s.engBusy := rfl
@[simp] theorem State.setModem_keeperCore (s : State) (i : Nat) (x : Modem) : (s.setModem i x).keeperCore = s.keeperCore := rfl
@[simp] theorem State.setModem_od (s : State) (i : Nat) (x : Modem) : (s.setModem i x).od = s.od := rfl
@[simp] theorem State.setModem_trunks (s : State) (i : Nat) (x : Modem) : (s.setModem i x).trunks = s.trunks := rfl
@[simp] theorem State.setModem_ring (s : State) (i : Nat) (x : Modem) : (s.setModem i x).ring = s.ring := rfl
@[simp] theorem State.setModem_wdtFrom (s : State) (i : Nat) (x : Modem) : (s.setModem i x).wdtFrom = s.wdtFrom := rfl
@[simp] theorem State.setModem_pwr (s : State) (i : Nat) (x : Modem) : (s.setModem i x).pwr = s.pwr := rfl
@[simp] theorem State.setModem_tether (s : State) (i : Nat) (x : Modem) : (s.setModem i x).tether = s.tether := rfl
@[simp] theorem State.setModem_freeN (s : State) (i : Nat) (x : Modem) : (s.setModem i x).freeN = s.freeN := rfl
@[simp] theorem State.setModem_reg (s : State) (i : Nat) (x : Modem) (a : Nat) : (s.setModem i x).reg a = s.reg a := rfl

/-! ### setKeeper -/

@[simp] theorem State.setKeeper_pending (s : State) (i : Nat) (x : Keeper) : (s.setKeeper i x).pending = s.pending := rfl
@[simp] theorem State.setKeeper_regs (s : State) (i : Nat) (x : Keeper) : (s.setKeeper i x).regs = s.regs := rfl
@[simp] theorem State.setKeeper_sram (s : State) (i : Nat) (x : Keeper) : (s.setKeeper i x).sram = s.sram := rfl
@[simp] theorem State.setKeeper_sramEpoch (s : State) (i : Nat) (x : Keeper) : (s.setKeeper i x).sramEpoch = s.sramEpoch := rfl
@[simp] theorem State.setKeeper_fuses (s : State) (i : Nat) (x : Keeper) : (s.setKeeper i x).fuses = s.fuses := rfl
@[simp] theorem State.setKeeper_ck (s : State) (i : Nat) (x : Keeper) : (s.setKeeper i x).ck = s.ck := rfl
@[simp] theorem State.setKeeper_time (s : State) (i : Nat) (x : Keeper) : (s.setKeeper i x).time = s.time := rfl
@[simp] theorem State.setKeeper_tbValid (s : State) (i : Nat) (x : Keeper) : (s.setKeeper i x).tbValid = s.tbValid := rfl
@[simp] theorem State.setKeeper_tbLoad (s : State) (i : Nat) (x : Keeper) : (s.setKeeper i x).tbLoad = s.tbLoad := rfl
@[simp] theorem State.setKeeper_timers (s : State) (i : Nat) (x : Keeper) : (s.setKeeper i x).timers = s.timers := rfl
@[simp] theorem State.setKeeper_hostData (s : State) (i : Nat) (x : Keeper) : (s.setKeeper i x).hostData = s.hostData := rfl
@[simp] theorem State.setKeeper_hostStat (s : State) (i : Nat) (x : Keeper) : (s.setKeeper i x).hostStat = s.hostStat := rfl
@[simp] theorem State.setKeeper_latches (s : State) (i : Nat) (x : Keeper) : (s.setKeeper i x).latches = s.latches := rfl
@[simp] theorem State.setKeeper_hostNo (s : State) (i : Nat) (x : Keeper) : (s.setKeeper i x).hostNo = s.hostNo := rfl
@[simp] theorem State.setKeeper_guardKey (s : State) (i : Nat) (x : Keeper) : (s.setKeeper i x).guardKey = s.guardKey := rfl
@[simp] theorem State.setKeeper_testKey (s : State) (i : Nat) (x : Keeper) : (s.setKeeper i x).testKey = s.testKey := rfl
@[simp] theorem State.setKeeper_testEn (s : State) (i : Nat) (x : Keeper) : (s.setKeeper i x).testEn = s.testEn := rfl
@[simp] theorem State.setKeeper_linkFails (s : State) (i : Nat) (x : Keeper) : (s.setKeeper i x).linkFails = s.linkFails := rfl
@[simp] theorem State.setKeeper_linkDown (s : State) (i : Nat) (x : Keeper) : (s.setKeeper i x).linkDown = s.linkDown := rfl
@[simp] theorem State.setKeeper_ckLost (s : State) (i : Nat) (x : Keeper) : (s.setKeeper i x).ckLost = s.ckLost := rfl
@[simp] theorem State.setKeeper_late (s : State) (i : Nat) (x : Keeper) : (s.setKeeper i x).late = s.late := rfl
@[simp] theorem State.setKeeper_commitReq (s : State) (i : Nat) (x : Keeper) : (s.setKeeper i x).commitReq = s.commitReq := rfl
@[simp] theorem State.setKeeper_commitRun (s : State) (i : Nat) (x : Keeper) : (s.setKeeper i x).commitRun = s.commitRun := rfl
@[simp] theorem State.setKeeper_gridAt (s : State) (i : Nat) (x : Keeper) : (s.setKeeper i x).gridAt = s.gridAt := rfl
@[simp] theorem State.setKeeper_timeAt (s : State) (i : Nat) (x : Keeper) : (s.setKeeper i x).timeAt = s.timeAt := rfl
@[simp] theorem State.setKeeper_jumps (s : State) (i : Nat) (x : Keeper) : (s.setKeeper i x).jumps = s.jumps := rfl
@[simp] theorem State.setKeeper_refCrc (s : State) (i : Nat) (x : Keeper) : (s.setKeeper i x).refCrc = s.refCrc := rfl
@[simp] theorem State.setKeeper_tick (s : State) (i : Nat) (x : Keeper) : (s.setKeeper i x).tick = s.tick := rfl
@[simp] theorem State.setKeeper_tickAt (s : State) (i : Nat) (x : Keeper) : (s.setKeeper i x).tickAt = s.tickAt := rfl
@[simp] theorem State.setKeeper_logMem (s : State) (i : Nat) (x : Keeper) : (s.setKeeper i x).logMem = s.logMem := rfl
@[simp] theorem State.setKeeper_logSeq (s : State) (i : Nat) (x : Keeper) : (s.setKeeper i x).logSeq = s.logSeq := rfl
@[simp] theorem State.setKeeper_offCount (s : State) (i : Nat) (x : Keeper) : (s.setKeeper i x).offCount = s.offCount := rfl
@[simp] theorem State.setKeeper_offLast (s : State) (i : Nat) (x : Keeper) : (s.setKeeper i x).offLast = s.offLast := rfl
@[simp] theorem State.setKeeper_retryCount (s : State) (i : Nat) (x : Keeper) : (s.setKeeper i x).retryCount = s.retryCount := rfl
@[simp] theorem State.setKeeper_retryLast (s : State) (i : Nat) (x : Keeper) : (s.setKeeper i x).retryLast = s.retryLast := rfl
@[simp] theorem State.setKeeper_spoolSet (s : State) (i : Nat) (x : Keeper) : (s.setKeeper i x).spoolSet = s.spoolSet := rfl
@[simp] theorem State.setKeeper_spoolRst (s : State) (i : Nat) (x : Keeper) : (s.setKeeper i x).spoolRst = s.spoolRst := rfl
@[simp] theorem State.setKeeper_seqReg (s : State) (i : Nat) (x : Keeper) : (s.setKeeper i x).seqReg = s.seqReg := rfl
@[simp] theorem State.setKeeper_seqInj (s : State) (i : Nat) (x : Keeper) : (s.setKeeper i x).seqInj = s.seqInj := rfl
@[simp] theorem State.setKeeper_seqLoop (s : State) (i : Nat) (x : Keeper) : (s.setKeeper i x).seqLoop = s.seqLoop := rfl
@[simp] theorem State.setKeeper_seqRec (s : State) (i : Nat) (x : Keeper) : (s.setKeeper i x).seqRec = s.seqRec := rfl
@[simp] theorem State.setKeeper_slices (s : State) (i : Nat) (x : Keeper) : (s.setKeeper i x).slices = s.slices := rfl
@[simp] theorem State.setKeeper_seq (s : State) (i : Nat) (x : Keeper) : (s.setKeeper i x).seq = s.seq := rfl
@[simp] theorem State.setKeeper_inj (s : State) (i : Nat) (x : Keeper) : (s.setKeeper i x).inj = s.inj := rfl
@[simp] theorem State.setKeeper_accs (s : State) (i : Nat) (x : Keeper) : (s.setKeeper i x).accs = s.accs := rfl
@[simp] theorem State.setKeeper_newReg (s : State) (i : Nat) (x : Keeper) : (s.setKeeper i x).newReg = s.newReg := rfl
@[simp] theorem State.setKeeper_newInj (s : State) (i : Nat) (x : Keeper) : (s.setKeeper i x).newInj = s.newInj := rfl
@[simp] theorem State.setKeeper_mains (s : State) (i : Nat) (x : Keeper) : (s.setKeeper i x).mains = s.mains := rfl
@[simp] theorem State.setKeeper_reel (s : State) (i : Nat) (x : Keeper) : (s.setKeeper i x).reel = s.reel := rfl
@[simp] theorem State.setKeeper_cal (s : State) (i : Nat) (x : Keeper) : (s.setKeeper i x).cal = s.cal := rfl
@[simp] theorem State.setKeeper_refSince (s : State) (i : Nat) (x : Keeper) : (s.setKeeper i x).refSince = s.refSince := rfl
@[simp] theorem State.setKeeper_excMode (s : State) (i : Nat) (x : Keeper) : (s.setKeeper i x).excMode = s.excMode := rfl
@[simp] theorem State.setKeeper_ports (s : State) (i : Nat) (x : Keeper) : (s.setKeeper i x).ports = s.ports := rfl
@[simp] theorem State.setKeeper_modems (s : State) (i : Nat) (x : Keeper) : (s.setKeeper i x).modems = s.modems := rfl
@[simp] theorem State.setKeeper_lanes (s : State) (i : Nat) (x : Keeper) : (s.setKeeper i x).lanes = s.lanes := rfl
@[simp] theorem State.setKeeper_actQueue (s : State) (i : Nat) (x : Keeper) : (s.setKeeper i x).actQueue = s.actQueue := rfl
@[simp] theorem State.setKeeper_engBusy (s : State) (i : Nat) (x : Keeper) : (s.setKeeper i x).engBusy = s.engBusy := rfl
@[simp] theorem State.setKeeper_keeperCore (s : State) (i : Nat) (x : Keeper) : (s.setKeeper i x).keeperCore = s.keeperCore := rfl
@[simp] theorem State.setKeeper_od (s : State) (i : Nat) (x : Keeper) : (s.setKeeper i x).od = s.od := rfl
@[simp] theorem State.setKeeper_trunks (s : State) (i : Nat) (x : Keeper) : (s.setKeeper i x).trunks = s.trunks := rfl
@[simp] theorem State.setKeeper_ring (s : State) (i : Nat) (x : Keeper) : (s.setKeeper i x).ring = s.ring := rfl
@[simp] theorem State.setKeeper_wdtFrom (s : State) (i : Nat) (x : Keeper) : (s.setKeeper i x).wdtFrom = s.wdtFrom := rfl
@[simp] theorem State.setKeeper_pwr (s : State) (i : Nat) (x : Keeper) : (s.setKeeper i x).pwr = s.pwr := rfl
@[simp] theorem State.setKeeper_tether (s : State) (i : Nat) (x : Keeper) : (s.setKeeper i x).tether = s.tether := rfl
@[simp] theorem State.setKeeper_freeN (s : State) (i : Nat) (x : Keeper) : (s.setKeeper i x).freeN = s.freeN := rfl
@[simp] theorem State.setKeeper_reg (s : State) (i : Nat) (x : Keeper) (a : Nat) : (s.setKeeper i x).reg a = s.reg a := rfl

/-! ### setLane -/

@[simp] theorem State.setLane_pending (s : State) (i : Nat) (x : Lane) : (s.setLane i x).pending = s.pending := rfl
@[simp] theorem State.setLane_regs (s : State) (i : Nat) (x : Lane) : (s.setLane i x).regs = s.regs := rfl
@[simp] theorem State.setLane_sram (s : State) (i : Nat) (x : Lane) : (s.setLane i x).sram = s.sram := rfl
@[simp] theorem State.setLane_sramEpoch (s : State) (i : Nat) (x : Lane) : (s.setLane i x).sramEpoch = s.sramEpoch := rfl
@[simp] theorem State.setLane_fuses (s : State) (i : Nat) (x : Lane) : (s.setLane i x).fuses = s.fuses := rfl
@[simp] theorem State.setLane_ck (s : State) (i : Nat) (x : Lane) : (s.setLane i x).ck = s.ck := rfl
@[simp] theorem State.setLane_time (s : State) (i : Nat) (x : Lane) : (s.setLane i x).time = s.time := rfl
@[simp] theorem State.setLane_tbValid (s : State) (i : Nat) (x : Lane) : (s.setLane i x).tbValid = s.tbValid := rfl
@[simp] theorem State.setLane_tbLoad (s : State) (i : Nat) (x : Lane) : (s.setLane i x).tbLoad = s.tbLoad := rfl
@[simp] theorem State.setLane_timers (s : State) (i : Nat) (x : Lane) : (s.setLane i x).timers = s.timers := rfl
@[simp] theorem State.setLane_hostData (s : State) (i : Nat) (x : Lane) : (s.setLane i x).hostData = s.hostData := rfl
@[simp] theorem State.setLane_hostStat (s : State) (i : Nat) (x : Lane) : (s.setLane i x).hostStat = s.hostStat := rfl
@[simp] theorem State.setLane_latches (s : State) (i : Nat) (x : Lane) : (s.setLane i x).latches = s.latches := rfl
@[simp] theorem State.setLane_hostNo (s : State) (i : Nat) (x : Lane) : (s.setLane i x).hostNo = s.hostNo := rfl
@[simp] theorem State.setLane_guardKey (s : State) (i : Nat) (x : Lane) : (s.setLane i x).guardKey = s.guardKey := rfl
@[simp] theorem State.setLane_testKey (s : State) (i : Nat) (x : Lane) : (s.setLane i x).testKey = s.testKey := rfl
@[simp] theorem State.setLane_testEn (s : State) (i : Nat) (x : Lane) : (s.setLane i x).testEn = s.testEn := rfl
@[simp] theorem State.setLane_linkFails (s : State) (i : Nat) (x : Lane) : (s.setLane i x).linkFails = s.linkFails := rfl
@[simp] theorem State.setLane_linkDown (s : State) (i : Nat) (x : Lane) : (s.setLane i x).linkDown = s.linkDown := rfl
@[simp] theorem State.setLane_ckLost (s : State) (i : Nat) (x : Lane) : (s.setLane i x).ckLost = s.ckLost := rfl
@[simp] theorem State.setLane_late (s : State) (i : Nat) (x : Lane) : (s.setLane i x).late = s.late := rfl
@[simp] theorem State.setLane_commitReq (s : State) (i : Nat) (x : Lane) : (s.setLane i x).commitReq = s.commitReq := rfl
@[simp] theorem State.setLane_commitRun (s : State) (i : Nat) (x : Lane) : (s.setLane i x).commitRun = s.commitRun := rfl
@[simp] theorem State.setLane_gridAt (s : State) (i : Nat) (x : Lane) : (s.setLane i x).gridAt = s.gridAt := rfl
@[simp] theorem State.setLane_timeAt (s : State) (i : Nat) (x : Lane) : (s.setLane i x).timeAt = s.timeAt := rfl
@[simp] theorem State.setLane_jumps (s : State) (i : Nat) (x : Lane) : (s.setLane i x).jumps = s.jumps := rfl
@[simp] theorem State.setLane_refCrc (s : State) (i : Nat) (x : Lane) : (s.setLane i x).refCrc = s.refCrc := rfl
@[simp] theorem State.setLane_tick (s : State) (i : Nat) (x : Lane) : (s.setLane i x).tick = s.tick := rfl
@[simp] theorem State.setLane_tickAt (s : State) (i : Nat) (x : Lane) : (s.setLane i x).tickAt = s.tickAt := rfl
@[simp] theorem State.setLane_logMem (s : State) (i : Nat) (x : Lane) : (s.setLane i x).logMem = s.logMem := rfl
@[simp] theorem State.setLane_logSeq (s : State) (i : Nat) (x : Lane) : (s.setLane i x).logSeq = s.logSeq := rfl
@[simp] theorem State.setLane_offCount (s : State) (i : Nat) (x : Lane) : (s.setLane i x).offCount = s.offCount := rfl
@[simp] theorem State.setLane_offLast (s : State) (i : Nat) (x : Lane) : (s.setLane i x).offLast = s.offLast := rfl
@[simp] theorem State.setLane_retryCount (s : State) (i : Nat) (x : Lane) : (s.setLane i x).retryCount = s.retryCount := rfl
@[simp] theorem State.setLane_retryLast (s : State) (i : Nat) (x : Lane) : (s.setLane i x).retryLast = s.retryLast := rfl
@[simp] theorem State.setLane_spoolSet (s : State) (i : Nat) (x : Lane) : (s.setLane i x).spoolSet = s.spoolSet := rfl
@[simp] theorem State.setLane_spoolRst (s : State) (i : Nat) (x : Lane) : (s.setLane i x).spoolRst = s.spoolRst := rfl
@[simp] theorem State.setLane_seqReg (s : State) (i : Nat) (x : Lane) : (s.setLane i x).seqReg = s.seqReg := rfl
@[simp] theorem State.setLane_seqInj (s : State) (i : Nat) (x : Lane) : (s.setLane i x).seqInj = s.seqInj := rfl
@[simp] theorem State.setLane_seqLoop (s : State) (i : Nat) (x : Lane) : (s.setLane i x).seqLoop = s.seqLoop := rfl
@[simp] theorem State.setLane_seqRec (s : State) (i : Nat) (x : Lane) : (s.setLane i x).seqRec = s.seqRec := rfl
@[simp] theorem State.setLane_slices (s : State) (i : Nat) (x : Lane) : (s.setLane i x).slices = s.slices := rfl
@[simp] theorem State.setLane_seq (s : State) (i : Nat) (x : Lane) : (s.setLane i x).seq = s.seq := rfl
@[simp] theorem State.setLane_inj (s : State) (i : Nat) (x : Lane) : (s.setLane i x).inj = s.inj := rfl
@[simp] theorem State.setLane_accs (s : State) (i : Nat) (x : Lane) : (s.setLane i x).accs = s.accs := rfl
@[simp] theorem State.setLane_newReg (s : State) (i : Nat) (x : Lane) : (s.setLane i x).newReg = s.newReg := rfl
@[simp] theorem State.setLane_newInj (s : State) (i : Nat) (x : Lane) : (s.setLane i x).newInj = s.newInj := rfl
@[simp] theorem State.setLane_mains (s : State) (i : Nat) (x : Lane) : (s.setLane i x).mains = s.mains := rfl
@[simp] theorem State.setLane_reel (s : State) (i : Nat) (x : Lane) : (s.setLane i x).reel = s.reel := rfl
@[simp] theorem State.setLane_cal (s : State) (i : Nat) (x : Lane) : (s.setLane i x).cal = s.cal := rfl
@[simp] theorem State.setLane_refSince (s : State) (i : Nat) (x : Lane) : (s.setLane i x).refSince = s.refSince := rfl
@[simp] theorem State.setLane_excMode (s : State) (i : Nat) (x : Lane) : (s.setLane i x).excMode = s.excMode := rfl
@[simp] theorem State.setLane_ports (s : State) (i : Nat) (x : Lane) : (s.setLane i x).ports = s.ports := rfl
@[simp] theorem State.setLane_keepers (s : State) (i : Nat) (x : Lane) : (s.setLane i x).keepers = s.keepers := rfl
@[simp] theorem State.setLane_modems (s : State) (i : Nat) (x : Lane) : (s.setLane i x).modems = s.modems := rfl
@[simp] theorem State.setLane_actQueue (s : State) (i : Nat) (x : Lane) : (s.setLane i x).actQueue = s.actQueue := rfl
@[simp] theorem State.setLane_engBusy (s : State) (i : Nat) (x : Lane) : (s.setLane i x).engBusy = s.engBusy := rfl
@[simp] theorem State.setLane_keeperCore (s : State) (i : Nat) (x : Lane) : (s.setLane i x).keeperCore = s.keeperCore := rfl
@[simp] theorem State.setLane_od (s : State) (i : Nat) (x : Lane) : (s.setLane i x).od = s.od := rfl
@[simp] theorem State.setLane_trunks (s : State) (i : Nat) (x : Lane) : (s.setLane i x).trunks = s.trunks := rfl
@[simp] theorem State.setLane_ring (s : State) (i : Nat) (x : Lane) : (s.setLane i x).ring = s.ring := rfl
@[simp] theorem State.setLane_wdtFrom (s : State) (i : Nat) (x : Lane) : (s.setLane i x).wdtFrom = s.wdtFrom := rfl
@[simp] theorem State.setLane_pwr (s : State) (i : Nat) (x : Lane) : (s.setLane i x).pwr = s.pwr := rfl
@[simp] theorem State.setLane_tether (s : State) (i : Nat) (x : Lane) : (s.setLane i x).tether = s.tether := rfl
@[simp] theorem State.setLane_freeN (s : State) (i : Nat) (x : Lane) : (s.setLane i x).freeN = s.freeN := rfl
@[simp] theorem State.setLane_reg (s : State) (i : Nat) (x : Lane) (a : Nat) : (s.setLane i x).reg a = s.reg a := rfl

/-! ### setTrunk -/

@[simp] theorem State.setTrunk_pending (s : State) (t : Trx) (x : Trunk) : (s.setTrunk t x).pending = s.pending := rfl
@[simp] theorem State.setTrunk_regs (s : State) (t : Trx) (x : Trunk) : (s.setTrunk t x).regs = s.regs := rfl
@[simp] theorem State.setTrunk_sram (s : State) (t : Trx) (x : Trunk) : (s.setTrunk t x).sram = s.sram := rfl
@[simp] theorem State.setTrunk_sramEpoch (s : State) (t : Trx) (x : Trunk) : (s.setTrunk t x).sramEpoch = s.sramEpoch := rfl
@[simp] theorem State.setTrunk_fuses (s : State) (t : Trx) (x : Trunk) : (s.setTrunk t x).fuses = s.fuses := rfl
@[simp] theorem State.setTrunk_ck (s : State) (t : Trx) (x : Trunk) : (s.setTrunk t x).ck = s.ck := rfl
@[simp] theorem State.setTrunk_time (s : State) (t : Trx) (x : Trunk) : (s.setTrunk t x).time = s.time := rfl
@[simp] theorem State.setTrunk_tbValid (s : State) (t : Trx) (x : Trunk) : (s.setTrunk t x).tbValid = s.tbValid := rfl
@[simp] theorem State.setTrunk_tbLoad (s : State) (t : Trx) (x : Trunk) : (s.setTrunk t x).tbLoad = s.tbLoad := rfl
@[simp] theorem State.setTrunk_timers (s : State) (t : Trx) (x : Trunk) : (s.setTrunk t x).timers = s.timers := rfl
@[simp] theorem State.setTrunk_hostData (s : State) (t : Trx) (x : Trunk) : (s.setTrunk t x).hostData = s.hostData := rfl
@[simp] theorem State.setTrunk_hostStat (s : State) (t : Trx) (x : Trunk) : (s.setTrunk t x).hostStat = s.hostStat := rfl
@[simp] theorem State.setTrunk_latches (s : State) (t : Trx) (x : Trunk) : (s.setTrunk t x).latches = s.latches := rfl
@[simp] theorem State.setTrunk_hostNo (s : State) (t : Trx) (x : Trunk) : (s.setTrunk t x).hostNo = s.hostNo := rfl
@[simp] theorem State.setTrunk_guardKey (s : State) (t : Trx) (x : Trunk) : (s.setTrunk t x).guardKey = s.guardKey := rfl
@[simp] theorem State.setTrunk_testKey (s : State) (t : Trx) (x : Trunk) : (s.setTrunk t x).testKey = s.testKey := rfl
@[simp] theorem State.setTrunk_testEn (s : State) (t : Trx) (x : Trunk) : (s.setTrunk t x).testEn = s.testEn := rfl
@[simp] theorem State.setTrunk_linkFails (s : State) (t : Trx) (x : Trunk) : (s.setTrunk t x).linkFails = s.linkFails := rfl
@[simp] theorem State.setTrunk_linkDown (s : State) (t : Trx) (x : Trunk) : (s.setTrunk t x).linkDown = s.linkDown := rfl
@[simp] theorem State.setTrunk_ckLost (s : State) (t : Trx) (x : Trunk) : (s.setTrunk t x).ckLost = s.ckLost := rfl
@[simp] theorem State.setTrunk_late (s : State) (t : Trx) (x : Trunk) : (s.setTrunk t x).late = s.late := rfl
@[simp] theorem State.setTrunk_commitReq (s : State) (t : Trx) (x : Trunk) : (s.setTrunk t x).commitReq = s.commitReq := rfl
@[simp] theorem State.setTrunk_commitRun (s : State) (t : Trx) (x : Trunk) : (s.setTrunk t x).commitRun = s.commitRun := rfl
@[simp] theorem State.setTrunk_gridAt (s : State) (t : Trx) (x : Trunk) : (s.setTrunk t x).gridAt = s.gridAt := rfl
@[simp] theorem State.setTrunk_timeAt (s : State) (t : Trx) (x : Trunk) : (s.setTrunk t x).timeAt = s.timeAt := rfl
@[simp] theorem State.setTrunk_jumps (s : State) (t : Trx) (x : Trunk) : (s.setTrunk t x).jumps = s.jumps := rfl
@[simp] theorem State.setTrunk_refCrc (s : State) (t : Trx) (x : Trunk) : (s.setTrunk t x).refCrc = s.refCrc := rfl
@[simp] theorem State.setTrunk_tick (s : State) (t : Trx) (x : Trunk) : (s.setTrunk t x).tick = s.tick := rfl
@[simp] theorem State.setTrunk_tickAt (s : State) (t : Trx) (x : Trunk) : (s.setTrunk t x).tickAt = s.tickAt := rfl
@[simp] theorem State.setTrunk_logMem (s : State) (t : Trx) (x : Trunk) : (s.setTrunk t x).logMem = s.logMem := rfl
@[simp] theorem State.setTrunk_logSeq (s : State) (t : Trx) (x : Trunk) : (s.setTrunk t x).logSeq = s.logSeq := rfl
@[simp] theorem State.setTrunk_offCount (s : State) (t : Trx) (x : Trunk) : (s.setTrunk t x).offCount = s.offCount := rfl
@[simp] theorem State.setTrunk_offLast (s : State) (t : Trx) (x : Trunk) : (s.setTrunk t x).offLast = s.offLast := rfl
@[simp] theorem State.setTrunk_retryCount (s : State) (t : Trx) (x : Trunk) : (s.setTrunk t x).retryCount = s.retryCount := rfl
@[simp] theorem State.setTrunk_retryLast (s : State) (t : Trx) (x : Trunk) : (s.setTrunk t x).retryLast = s.retryLast := rfl
@[simp] theorem State.setTrunk_spoolSet (s : State) (t : Trx) (x : Trunk) : (s.setTrunk t x).spoolSet = s.spoolSet := rfl
@[simp] theorem State.setTrunk_spoolRst (s : State) (t : Trx) (x : Trunk) : (s.setTrunk t x).spoolRst = s.spoolRst := rfl
@[simp] theorem State.setTrunk_seqReg (s : State) (t : Trx) (x : Trunk) : (s.setTrunk t x).seqReg = s.seqReg := rfl
@[simp] theorem State.setTrunk_seqInj (s : State) (t : Trx) (x : Trunk) : (s.setTrunk t x).seqInj = s.seqInj := rfl
@[simp] theorem State.setTrunk_seqLoop (s : State) (t : Trx) (x : Trunk) : (s.setTrunk t x).seqLoop = s.seqLoop := rfl
@[simp] theorem State.setTrunk_seqRec (s : State) (t : Trx) (x : Trunk) : (s.setTrunk t x).seqRec = s.seqRec := rfl
@[simp] theorem State.setTrunk_slices (s : State) (t : Trx) (x : Trunk) : (s.setTrunk t x).slices = s.slices := rfl
@[simp] theorem State.setTrunk_seq (s : State) (t : Trx) (x : Trunk) : (s.setTrunk t x).seq = s.seq := rfl
@[simp] theorem State.setTrunk_inj (s : State) (t : Trx) (x : Trunk) : (s.setTrunk t x).inj = s.inj := rfl
@[simp] theorem State.setTrunk_accs (s : State) (t : Trx) (x : Trunk) : (s.setTrunk t x).accs = s.accs := rfl
@[simp] theorem State.setTrunk_newReg (s : State) (t : Trx) (x : Trunk) : (s.setTrunk t x).newReg = s.newReg := rfl
@[simp] theorem State.setTrunk_newInj (s : State) (t : Trx) (x : Trunk) : (s.setTrunk t x).newInj = s.newInj := rfl
@[simp] theorem State.setTrunk_mains (s : State) (t : Trx) (x : Trunk) : (s.setTrunk t x).mains = s.mains := rfl
@[simp] theorem State.setTrunk_reel (s : State) (t : Trx) (x : Trunk) : (s.setTrunk t x).reel = s.reel := rfl
@[simp] theorem State.setTrunk_cal (s : State) (t : Trx) (x : Trunk) : (s.setTrunk t x).cal = s.cal := rfl
@[simp] theorem State.setTrunk_refSince (s : State) (t : Trx) (x : Trunk) : (s.setTrunk t x).refSince = s.refSince := rfl
@[simp] theorem State.setTrunk_excMode (s : State) (t : Trx) (x : Trunk) : (s.setTrunk t x).excMode = s.excMode := rfl
@[simp] theorem State.setTrunk_ports (s : State) (t : Trx) (x : Trunk) : (s.setTrunk t x).ports = s.ports := rfl
@[simp] theorem State.setTrunk_keepers (s : State) (t : Trx) (x : Trunk) : (s.setTrunk t x).keepers = s.keepers := rfl
@[simp] theorem State.setTrunk_modems (s : State) (t : Trx) (x : Trunk) : (s.setTrunk t x).modems = s.modems := rfl
@[simp] theorem State.setTrunk_lanes (s : State) (t : Trx) (x : Trunk) : (s.setTrunk t x).lanes = s.lanes := rfl
@[simp] theorem State.setTrunk_actQueue (s : State) (t : Trx) (x : Trunk) : (s.setTrunk t x).actQueue = s.actQueue := rfl
@[simp] theorem State.setTrunk_engBusy (s : State) (t : Trx) (x : Trunk) : (s.setTrunk t x).engBusy = s.engBusy := rfl
@[simp] theorem State.setTrunk_keeperCore (s : State) (t : Trx) (x : Trunk) : (s.setTrunk t x).keeperCore = s.keeperCore := rfl
@[simp] theorem State.setTrunk_od (s : State) (t : Trx) (x : Trunk) : (s.setTrunk t x).od = s.od := rfl
@[simp] theorem State.setTrunk_ring (s : State) (t : Trx) (x : Trunk) : (s.setTrunk t x).ring = s.ring := rfl
@[simp] theorem State.setTrunk_wdtFrom (s : State) (t : Trx) (x : Trunk) : (s.setTrunk t x).wdtFrom = s.wdtFrom := rfl
@[simp] theorem State.setTrunk_pwr (s : State) (t : Trx) (x : Trunk) : (s.setTrunk t x).pwr = s.pwr := rfl
@[simp] theorem State.setTrunk_tether (s : State) (t : Trx) (x : Trunk) : (s.setTrunk t x).tether = s.tether := rfl
@[simp] theorem State.setTrunk_freeN (s : State) (t : Trx) (x : Trunk) : (s.setTrunk t x).freeN = s.freeN := rfl
@[simp] theorem State.setTrunk_reg (s : State) (t : Trx) (x : Trunk) (a : Nat) : (s.setTrunk t x).reg a = s.reg a := rfl

/-! ### Deadlines -/

@[simp] theorem State.disarm_pending (s : State) (t : Timer) : (s.disarm t).pending = s.pending := rfl
@[simp] theorem State.disarm_regs (s : State) (t : Timer) : (s.disarm t).regs = s.regs := rfl
@[simp] theorem State.disarm_sram (s : State) (t : Timer) : (s.disarm t).sram = s.sram := rfl
@[simp] theorem State.disarm_sramEpoch (s : State) (t : Timer) : (s.disarm t).sramEpoch = s.sramEpoch := rfl
@[simp] theorem State.disarm_fuses (s : State) (t : Timer) : (s.disarm t).fuses = s.fuses := rfl
@[simp] theorem State.disarm_ck (s : State) (t : Timer) : (s.disarm t).ck = s.ck := rfl
@[simp] theorem State.disarm_time (s : State) (t : Timer) : (s.disarm t).time = s.time := rfl
@[simp] theorem State.disarm_tbValid (s : State) (t : Timer) : (s.disarm t).tbValid = s.tbValid := rfl
@[simp] theorem State.disarm_tbLoad (s : State) (t : Timer) : (s.disarm t).tbLoad = s.tbLoad := rfl
@[simp] theorem State.disarm_hostData (s : State) (t : Timer) : (s.disarm t).hostData = s.hostData := rfl
@[simp] theorem State.disarm_hostStat (s : State) (t : Timer) : (s.disarm t).hostStat = s.hostStat := rfl
@[simp] theorem State.disarm_latches (s : State) (t : Timer) : (s.disarm t).latches = s.latches := rfl
@[simp] theorem State.disarm_hostNo (s : State) (t : Timer) : (s.disarm t).hostNo = s.hostNo := rfl
@[simp] theorem State.disarm_guardKey (s : State) (t : Timer) : (s.disarm t).guardKey = s.guardKey := rfl
@[simp] theorem State.disarm_testKey (s : State) (t : Timer) : (s.disarm t).testKey = s.testKey := rfl
@[simp] theorem State.disarm_testEn (s : State) (t : Timer) : (s.disarm t).testEn = s.testEn := rfl
@[simp] theorem State.disarm_linkFails (s : State) (t : Timer) : (s.disarm t).linkFails = s.linkFails := rfl
@[simp] theorem State.disarm_linkDown (s : State) (t : Timer) : (s.disarm t).linkDown = s.linkDown := rfl
@[simp] theorem State.disarm_ckLost (s : State) (t : Timer) : (s.disarm t).ckLost = s.ckLost := rfl
@[simp] theorem State.disarm_late (s : State) (t : Timer) : (s.disarm t).late = s.late := rfl
@[simp] theorem State.disarm_commitReq (s : State) (t : Timer) : (s.disarm t).commitReq = s.commitReq := rfl
@[simp] theorem State.disarm_commitRun (s : State) (t : Timer) : (s.disarm t).commitRun = s.commitRun := rfl
@[simp] theorem State.disarm_gridAt (s : State) (t : Timer) : (s.disarm t).gridAt = s.gridAt := rfl
@[simp] theorem State.disarm_timeAt (s : State) (t : Timer) : (s.disarm t).timeAt = s.timeAt := rfl
@[simp] theorem State.disarm_jumps (s : State) (t : Timer) : (s.disarm t).jumps = s.jumps := rfl
@[simp] theorem State.disarm_refCrc (s : State) (t : Timer) : (s.disarm t).refCrc = s.refCrc := rfl
@[simp] theorem State.disarm_tick (s : State) (t : Timer) : (s.disarm t).tick = s.tick := rfl
@[simp] theorem State.disarm_tickAt (s : State) (t : Timer) : (s.disarm t).tickAt = s.tickAt := rfl
@[simp] theorem State.disarm_logMem (s : State) (t : Timer) : (s.disarm t).logMem = s.logMem := rfl
@[simp] theorem State.disarm_logSeq (s : State) (t : Timer) : (s.disarm t).logSeq = s.logSeq := rfl
@[simp] theorem State.disarm_offCount (s : State) (t : Timer) : (s.disarm t).offCount = s.offCount := rfl
@[simp] theorem State.disarm_offLast (s : State) (t : Timer) : (s.disarm t).offLast = s.offLast := rfl
@[simp] theorem State.disarm_retryCount (s : State) (t : Timer) : (s.disarm t).retryCount = s.retryCount := rfl
@[simp] theorem State.disarm_retryLast (s : State) (t : Timer) : (s.disarm t).retryLast = s.retryLast := rfl
@[simp] theorem State.disarm_spoolSet (s : State) (t : Timer) : (s.disarm t).spoolSet = s.spoolSet := rfl
@[simp] theorem State.disarm_spoolRst (s : State) (t : Timer) : (s.disarm t).spoolRst = s.spoolRst := rfl
@[simp] theorem State.disarm_seqReg (s : State) (t : Timer) : (s.disarm t).seqReg = s.seqReg := rfl
@[simp] theorem State.disarm_seqInj (s : State) (t : Timer) : (s.disarm t).seqInj = s.seqInj := rfl
@[simp] theorem State.disarm_seqLoop (s : State) (t : Timer) : (s.disarm t).seqLoop = s.seqLoop := rfl
@[simp] theorem State.disarm_seqRec (s : State) (t : Timer) : (s.disarm t).seqRec = s.seqRec := rfl
@[simp] theorem State.disarm_slices (s : State) (t : Timer) : (s.disarm t).slices = s.slices := rfl
@[simp] theorem State.disarm_seq (s : State) (t : Timer) : (s.disarm t).seq = s.seq := rfl
@[simp] theorem State.disarm_inj (s : State) (t : Timer) : (s.disarm t).inj = s.inj := rfl
@[simp] theorem State.disarm_accs (s : State) (t : Timer) : (s.disarm t).accs = s.accs := rfl
@[simp] theorem State.disarm_newReg (s : State) (t : Timer) : (s.disarm t).newReg = s.newReg := rfl
@[simp] theorem State.disarm_newInj (s : State) (t : Timer) : (s.disarm t).newInj = s.newInj := rfl
@[simp] theorem State.disarm_mains (s : State) (t : Timer) : (s.disarm t).mains = s.mains := rfl
@[simp] theorem State.disarm_reel (s : State) (t : Timer) : (s.disarm t).reel = s.reel := rfl
@[simp] theorem State.disarm_cal (s : State) (t : Timer) : (s.disarm t).cal = s.cal := rfl
@[simp] theorem State.disarm_refSince (s : State) (t : Timer) : (s.disarm t).refSince = s.refSince := rfl
@[simp] theorem State.disarm_excMode (s : State) (t : Timer) : (s.disarm t).excMode = s.excMode := rfl
@[simp] theorem State.disarm_ports (s : State) (t : Timer) : (s.disarm t).ports = s.ports := rfl
@[simp] theorem State.disarm_keepers (s : State) (t : Timer) : (s.disarm t).keepers = s.keepers := rfl
@[simp] theorem State.disarm_modems (s : State) (t : Timer) : (s.disarm t).modems = s.modems := rfl
@[simp] theorem State.disarm_lanes (s : State) (t : Timer) : (s.disarm t).lanes = s.lanes := rfl
@[simp] theorem State.disarm_actQueue (s : State) (t : Timer) : (s.disarm t).actQueue = s.actQueue := rfl
@[simp] theorem State.disarm_engBusy (s : State) (t : Timer) : (s.disarm t).engBusy = s.engBusy := rfl
@[simp] theorem State.disarm_keeperCore (s : State) (t : Timer) : (s.disarm t).keeperCore = s.keeperCore := rfl
@[simp] theorem State.disarm_od (s : State) (t : Timer) : (s.disarm t).od = s.od := rfl
@[simp] theorem State.disarm_trunks (s : State) (t : Timer) : (s.disarm t).trunks = s.trunks := rfl
@[simp] theorem State.disarm_ring (s : State) (t : Timer) : (s.disarm t).ring = s.ring := rfl
@[simp] theorem State.disarm_wdtFrom (s : State) (t : Timer) : (s.disarm t).wdtFrom = s.wdtFrom := rfl
@[simp] theorem State.disarm_pwr (s : State) (t : Timer) : (s.disarm t).pwr = s.pwr := rfl
@[simp] theorem State.disarm_tether (s : State) (t : Timer) : (s.disarm t).tether = s.tether := rfl
@[simp] theorem State.disarm_freeN (s : State) (t : Timer) : (s.disarm t).freeN = s.freeN := rfl
@[simp] theorem State.arm_pending (s : State) (t : Timer) (n : Nat) : (s.arm t n).pending = s.pending := rfl
@[simp] theorem State.arm_regs (s : State) (t : Timer) (n : Nat) : (s.arm t n).regs = s.regs := rfl
@[simp] theorem State.arm_sram (s : State) (t : Timer) (n : Nat) : (s.arm t n).sram = s.sram := rfl
@[simp] theorem State.arm_sramEpoch (s : State) (t : Timer) (n : Nat) : (s.arm t n).sramEpoch = s.sramEpoch := rfl
@[simp] theorem State.arm_fuses (s : State) (t : Timer) (n : Nat) : (s.arm t n).fuses = s.fuses := rfl
@[simp] theorem State.arm_ck (s : State) (t : Timer) (n : Nat) : (s.arm t n).ck = s.ck := rfl
@[simp] theorem State.arm_time (s : State) (t : Timer) (n : Nat) : (s.arm t n).time = s.time := rfl
@[simp] theorem State.arm_tbValid (s : State) (t : Timer) (n : Nat) : (s.arm t n).tbValid = s.tbValid := rfl
@[simp] theorem State.arm_tbLoad (s : State) (t : Timer) (n : Nat) : (s.arm t n).tbLoad = s.tbLoad := rfl
@[simp] theorem State.arm_hostData (s : State) (t : Timer) (n : Nat) : (s.arm t n).hostData = s.hostData := rfl
@[simp] theorem State.arm_hostStat (s : State) (t : Timer) (n : Nat) : (s.arm t n).hostStat = s.hostStat := rfl
@[simp] theorem State.arm_latches (s : State) (t : Timer) (n : Nat) : (s.arm t n).latches = s.latches := rfl
@[simp] theorem State.arm_hostNo (s : State) (t : Timer) (n : Nat) : (s.arm t n).hostNo = s.hostNo := rfl
@[simp] theorem State.arm_guardKey (s : State) (t : Timer) (n : Nat) : (s.arm t n).guardKey = s.guardKey := rfl
@[simp] theorem State.arm_testKey (s : State) (t : Timer) (n : Nat) : (s.arm t n).testKey = s.testKey := rfl
@[simp] theorem State.arm_testEn (s : State) (t : Timer) (n : Nat) : (s.arm t n).testEn = s.testEn := rfl
@[simp] theorem State.arm_linkFails (s : State) (t : Timer) (n : Nat) : (s.arm t n).linkFails = s.linkFails := rfl
@[simp] theorem State.arm_linkDown (s : State) (t : Timer) (n : Nat) : (s.arm t n).linkDown = s.linkDown := rfl
@[simp] theorem State.arm_ckLost (s : State) (t : Timer) (n : Nat) : (s.arm t n).ckLost = s.ckLost := rfl
@[simp] theorem State.arm_late (s : State) (t : Timer) (n : Nat) : (s.arm t n).late = s.late := rfl
@[simp] theorem State.arm_commitReq (s : State) (t : Timer) (n : Nat) : (s.arm t n).commitReq = s.commitReq := rfl
@[simp] theorem State.arm_commitRun (s : State) (t : Timer) (n : Nat) : (s.arm t n).commitRun = s.commitRun := rfl
@[simp] theorem State.arm_gridAt (s : State) (t : Timer) (n : Nat) : (s.arm t n).gridAt = s.gridAt := rfl
@[simp] theorem State.arm_timeAt (s : State) (t : Timer) (n : Nat) : (s.arm t n).timeAt = s.timeAt := rfl
@[simp] theorem State.arm_jumps (s : State) (t : Timer) (n : Nat) : (s.arm t n).jumps = s.jumps := rfl
@[simp] theorem State.arm_refCrc (s : State) (t : Timer) (n : Nat) : (s.arm t n).refCrc = s.refCrc := rfl
@[simp] theorem State.arm_tick (s : State) (t : Timer) (n : Nat) : (s.arm t n).tick = s.tick := rfl
@[simp] theorem State.arm_tickAt (s : State) (t : Timer) (n : Nat) : (s.arm t n).tickAt = s.tickAt := rfl
@[simp] theorem State.arm_logMem (s : State) (t : Timer) (n : Nat) : (s.arm t n).logMem = s.logMem := rfl
@[simp] theorem State.arm_logSeq (s : State) (t : Timer) (n : Nat) : (s.arm t n).logSeq = s.logSeq := rfl
@[simp] theorem State.arm_offCount (s : State) (t : Timer) (n : Nat) : (s.arm t n).offCount = s.offCount := rfl
@[simp] theorem State.arm_offLast (s : State) (t : Timer) (n : Nat) : (s.arm t n).offLast = s.offLast := rfl
@[simp] theorem State.arm_retryCount (s : State) (t : Timer) (n : Nat) : (s.arm t n).retryCount = s.retryCount := rfl
@[simp] theorem State.arm_retryLast (s : State) (t : Timer) (n : Nat) : (s.arm t n).retryLast = s.retryLast := rfl
@[simp] theorem State.arm_spoolSet (s : State) (t : Timer) (n : Nat) : (s.arm t n).spoolSet = s.spoolSet := rfl
@[simp] theorem State.arm_spoolRst (s : State) (t : Timer) (n : Nat) : (s.arm t n).spoolRst = s.spoolRst := rfl
@[simp] theorem State.arm_seqReg (s : State) (t : Timer) (n : Nat) : (s.arm t n).seqReg = s.seqReg := rfl
@[simp] theorem State.arm_seqInj (s : State) (t : Timer) (n : Nat) : (s.arm t n).seqInj = s.seqInj := rfl
@[simp] theorem State.arm_seqLoop (s : State) (t : Timer) (n : Nat) : (s.arm t n).seqLoop = s.seqLoop := rfl
@[simp] theorem State.arm_seqRec (s : State) (t : Timer) (n : Nat) : (s.arm t n).seqRec = s.seqRec := rfl
@[simp] theorem State.arm_slices (s : State) (t : Timer) (n : Nat) : (s.arm t n).slices = s.slices := rfl
@[simp] theorem State.arm_seq (s : State) (t : Timer) (n : Nat) : (s.arm t n).seq = s.seq := rfl
@[simp] theorem State.arm_inj (s : State) (t : Timer) (n : Nat) : (s.arm t n).inj = s.inj := rfl
@[simp] theorem State.arm_accs (s : State) (t : Timer) (n : Nat) : (s.arm t n).accs = s.accs := rfl
@[simp] theorem State.arm_newReg (s : State) (t : Timer) (n : Nat) : (s.arm t n).newReg = s.newReg := rfl
@[simp] theorem State.arm_newInj (s : State) (t : Timer) (n : Nat) : (s.arm t n).newInj = s.newInj := rfl
@[simp] theorem State.arm_mains (s : State) (t : Timer) (n : Nat) : (s.arm t n).mains = s.mains := rfl
@[simp] theorem State.arm_reel (s : State) (t : Timer) (n : Nat) : (s.arm t n).reel = s.reel := rfl
@[simp] theorem State.arm_cal (s : State) (t : Timer) (n : Nat) : (s.arm t n).cal = s.cal := rfl
@[simp] theorem State.arm_refSince (s : State) (t : Timer) (n : Nat) : (s.arm t n).refSince = s.refSince := rfl
@[simp] theorem State.arm_excMode (s : State) (t : Timer) (n : Nat) : (s.arm t n).excMode = s.excMode := rfl
@[simp] theorem State.arm_ports (s : State) (t : Timer) (n : Nat) : (s.arm t n).ports = s.ports := rfl
@[simp] theorem State.arm_keepers (s : State) (t : Timer) (n : Nat) : (s.arm t n).keepers = s.keepers := rfl
@[simp] theorem State.arm_modems (s : State) (t : Timer) (n : Nat) : (s.arm t n).modems = s.modems := rfl
@[simp] theorem State.arm_lanes (s : State) (t : Timer) (n : Nat) : (s.arm t n).lanes = s.lanes := rfl
@[simp] theorem State.arm_actQueue (s : State) (t : Timer) (n : Nat) : (s.arm t n).actQueue = s.actQueue := rfl
@[simp] theorem State.arm_engBusy (s : State) (t : Timer) (n : Nat) : (s.arm t n).engBusy = s.engBusy := rfl
@[simp] theorem State.arm_keeperCore (s : State) (t : Timer) (n : Nat) : (s.arm t n).keeperCore = s.keeperCore := rfl
@[simp] theorem State.arm_od (s : State) (t : Timer) (n : Nat) : (s.arm t n).od = s.od := rfl
@[simp] theorem State.arm_trunks (s : State) (t : Timer) (n : Nat) : (s.arm t n).trunks = s.trunks := rfl
@[simp] theorem State.arm_ring (s : State) (t : Timer) (n : Nat) : (s.arm t n).ring = s.ring := rfl
@[simp] theorem State.arm_wdtFrom (s : State) (t : Timer) (n : Nat) : (s.arm t n).wdtFrom = s.wdtFrom := rfl
@[simp] theorem State.arm_pwr (s : State) (t : Timer) (n : Nat) : (s.arm t n).pwr = s.pwr := rfl
@[simp] theorem State.arm_tether (s : State) (t : Timer) (n : Nat) : (s.arm t n).tether = s.tether := rfl
@[simp] theorem State.arm_freeN (s : State) (t : Timer) (n : Nat) : (s.arm t n).freeN = s.freeN := rfl
@[simp] theorem State.disarm_reg (s : State) (t : Timer) (a : Nat) : (s.disarm t).reg a = s.reg a := rfl
@[simp] theorem State.arm_reg (s : State) (t : Timer) (n a : Nat) : (s.arm t n).reg a = s.reg a := rfl

/-! ### Elements of a vector -/

theorem vget_vset {α : Type} {n : Nat} (v : Vector α n) (i : Nat) (x d : α) (h : i < n) : vget (vset v i x) i d = x := by
  simp [vget, vset, h]

theorem vget_vset_ne {α : Type} {n : Nat} (v : Vector α n) (i j : Nat) (x d : α) (h : i ≠ j) :
    vget (vset v i x) j d = vget v j d := by
  simp [vget, vset, h]

theorem State.trunk_setTrunk (s : State) (t : Trx) (x : Trunk) : (s.setTrunk t x).trunk t = x := by
  cases t <;> exact vget_vset _ _ _ _ (by decide)

theorem State.trunk_setTrunk_other (s : State) (t : Trx) (x : Trunk) : (s.setTrunk t x).trunk t.other = s.trunk t.other := by
  cases t <;> exact vget_vset_ne _ _ _ _ _ (by decide)

theorem State.slice_setSlice (s : State) (i : SliceId) (x : Slice) : (s.setSlice i x).slice i = x := vget_vset _ _ _ _ i.isLt

theorem State.port_setPort (s : State) (n : PortId) (x : Port) : (s.setPort n x).port n = x := vget_vset _ _ _ _ n.isLt

theorem State.modem_setModem (s : State) (n : PortId) (x : Modem) : (s.setModem n x).modem n = x := vget_vset _ _ _ _ n.isLt

theorem State.lane_setLane (s : State) (n : LaneId) (x : Lane) : (s.setLane n x).lane n = x := vget_vset _ _ _ _ n.isLt

/-! ### Deadlines armed and taken off -/

@[simp] theorem State.dueOf_arm (s : State) (t : Timer) (n : Nat) : (s.arm t n).dueOf t = some (s.ck + n) := by
  simp [State.arm, State.dueOf]

@[simp] theorem State.dueOf_disarm (s : State) (t : Timer) : (s.disarm t).dueOf t = none := by
  simp [State.disarm, State.dueOf, List.find?_eq_none]

theorem State.fall_none (s : State) (t : Timer) (f : State → State) (h : s.dueOf t = none) : s.fall t f = s := by
  simp [State.fall, h]

theorem State.fall_some (s : State) (t : Timer) (f : State → State) (due : Nat) (h : s.dueOf t = some due) :
    s.fall t f = f ((s.passTo due).disarm t) := by
  simp [State.fall, h]

/-! ### Conditions -/

@[simp] theorem State.when_true (s : State) (f : State → State) : s.when true f = f s := rfl
@[simp] theorem State.when_false (s : State) (f : State → State) : s.when false f = s := rfl

end Sys2Proof.Machine
end

