-- ==== Sys2Proof/Laws/Registers.lean ====
section
/-! SUPPORT. What a register and a field read after an update, and what a meaning's last step, the interrupt summary, does. -/

namespace Sys2Proof.Machine

/-! ### Registers -/

@[simp] theorem State.reg_setReg (s : State) (a : Nat) (v : Word) : (s.setReg a v).reg a = v := by
  simp [State.reg, State.setReg]

theorem State.reg_setReg_ne (s : State) (a b : Nat) (v : Word) (h : b ≠ a) : (s.setReg a v).reg b = s.reg b := by
  simp [State.reg, State.setReg, lookupKey_insertKey_ne _ _ _ _ h]

/-- A register after an update of any register. -/
theorem State.reg_setReg_ite (s : State) (a b : Nat) (v : Word) : (s.setReg a v).reg b = if b = a then v else s.reg b := by
  split
  · rename_i h
    rw [h, State.reg_setReg]
  · rename_i h
    exact State.reg_setReg_ne s a b v h

@[simp] theorem State.reg_setFld (s : State) (a : Nat) (f : Fld) (x : Nat) : (s.setFld a f x).reg a = f.set (s.reg a) x :=
  State.reg_setReg s a _

theorem State.reg_setFld_ne (s : State) (a b : Nat) (f : Fld) (x : Nat) (h : b ≠ a) : (s.setFld a f x).reg b = s.reg b :=
  State.reg_setReg_ne s a b _ h

/-! ### Fields -/

/-- A field reads what was put into it. -/
theorem State.fld_setFld (s : State) (a : Nat) (f : Fld) (x : Nat) (h : f.lo + f.len ≤ 32) :
    (s.setFld a f x).fld a f = x % 2 ^ f.len := by
  simp [State.fld, Fld.get_set _ _ _ h]

/-- A field apart from the one written keeps its value. -/
theorem State.fld_setFld_apart (s : State) (a : Nat) (f g : Fld) (x : Nat) (h : g.lo + g.len ≤ 32)
    (d : f.lo + f.len ≤ g.lo ∨ g.lo + g.len ≤ f.lo) : (s.setFld a f x).fld a g = s.fld a g := by
  simp [State.fld, Fld.get_set_apart f g _ x h d]

theorem State.fld_setFld_ne (s : State) (a b : Nat) (f g : Fld) (x : Nat) (h : b ≠ a) :
    (s.setFld a f x).fld b g = s.fld b g := by
  simp [State.fld, State.reg_setFld_ne s a b f x h]

theorem State.flag_raise (s : State) (a : Nat) (f : Fld) (h : f.lo + f.len ≤ 32) (l : f.len = 1) :
    (s.raise a f).flag a f = true := by
  simp [State.flag, State.raise, Fld.on_set_one f _ h l]

theorem State.flag_lower (s : State) (a : Nat) (f : Fld) (h : f.lo + f.len ≤ 32) : (s.lower a f).flag a f = false := by
  simp [State.flag, State.lower, Fld.on_set_zero f _ h]

theorem State.flag_setFld_apart (s : State) (a : Nat) (f g : Fld) (x : Nat) (h : g.lo + g.len ≤ 32)
    (d : f.lo + f.len ≤ g.lo ∨ g.lo + g.len ≤ f.lo) : (s.setFld a f x).flag a g = s.flag a g := by
  simp [State.flag, Fld.on_set_apart f g _ x h d]

theorem State.flag_setFld_ne (s : State) (a b : Nat) (f g : Fld) (x : Nat) (h : b ≠ a) :
    (s.setFld a f x).flag b g = s.flag b g := by
  simp [State.flag, State.reg_setFld_ne s a b f x h]

theorem State.flag_setReg_ne (s : State) (a b : Nat) (v : Word) (g : Fld) (h : b ≠ a) : (s.setReg a v).flag b g = s.flag b g := by
  simp [State.flag, State.reg_setReg_ne s a b v h]

theorem State.fld_setReg_ne (s : State) (a b : Nat) (v : Word) (g : Fld) (h : b ≠ a) : (s.setReg a v).fld b g = s.fld b g := by
  simp [State.fld, State.reg_setReg_ne s a b v h]

/-- Domains are on as before when a register other than PWR_STATUS is written. -/
theorem State.on_setReg (s : State) (a : Nat) (v : Word) (d : Domain) (h : Reg.PWR_STATUS ≠ a) : (s.setReg a v).on d = s.on d := by
  simp [State.on, State.reg_setReg_ne s a _ v h]

/-! ### Counters (R45) -/

/-- A counter below its largest value counts on. -/
theorem State.reg_count (s : State) (a ev n : Nat) (sat : Fld) (h : (s.reg a).toNat + n < 2 ^ 32) :
    (s.count a ev sat n).reg a = s.reg a + BitVec.ofNat 32 n := by
  simp only [State.count, h, if_true, State.reg_setReg]
  apply BitVec.eq_of_toNat_eq
  simp [BitVec.toNat_ofNat, BitVec.toNat_add]

/-- A counter at its end saturates and says so. -/
theorem State.reg_count_sat (s : State) (a ev n : Nat) (sat : Fld) (h : ¬ (s.reg a).toNat + n < 2 ^ 32) (ne : a ≠ ev) :
    (s.count a ev sat n).reg a = 0xFFFFFFFF := by
  simp only [State.count, h, if_false, State.raise]
  rw [State.reg_setFld_ne _ _ _ _ _ ne, State.reg_setReg]

/-! ### The interrupt summary (R52) -/

/-- The summary touches no register but IRQ_STATUS. -/
theorem State.reg_settle_ne (s : State) (a : Nat) (h : a ≠ Reg.IRQ_STATUS) : s.settle.reg a = s.reg a := by
  unfold State.settle
  split
  · exact State.reg_setReg_ne s _ a _ h
  · rfl

/-- The summary touches nothing but IRQ_STATUS. -/
theorem State.settle_eq (s : State) : ∃ w, s.settle = s ∨ s.settle = s.setReg Reg.IRQ_STATUS w := by
  unfold State.settle
  split
  · exact ⟨_, Or.inr rfl⟩
  · exact ⟨0, Or.inl rfl⟩

theorem State.fld_settle (s : State) (a : Nat) (f : Fld) (h : a ≠ Reg.IRQ_STATUS) : s.settle.fld a f = s.fld a f := by
  simp [State.fld, State.reg_settle_ne s a h]

theorem State.flag_settle (s : State) (a : Nat) (f : Fld) (h : a ≠ Reg.IRQ_STATUS) : s.settle.flag a f = s.flag a f := by
  simp [State.flag, State.reg_settle_ne s a h]

@[simp] theorem State.on_settle (s : State) (d : Domain) : s.settle.on d = s.on d := by
  simp [State.on, State.reg_settle_ne s Reg.PWR_STATUS (by decide)]

/-- A block's pending bits do not depend on IRQ_STATUS. -/
theorem State.pends_setIrq (s : State) (ev en : Nat) (w : Word) (h1 : ev ≠ Reg.IRQ_STATUS) (h2 : en ≠ Reg.IRQ_STATUS) :
    (s.setReg Reg.IRQ_STATUS w).pends ev en = s.pends ev en := by
  simp [State.pends, State.reg_setReg_ne s _ _ w h1, State.reg_setReg_ne s _ _ w h2]

/-- Every meaning answers the next state it computes. -/
@[simp] theorem State.done_eq (s : State) : s.done = .next s.settle := rfl

/-! ### What the summary leaves alone -/

@[simp] theorem State.settle_pending (s : State) : s.settle.pending = s.pending := by
  unfold State.settle; split <;> rfl
@[simp] theorem State.settle_sram (s : State) : s.settle.sram = s.sram := by
  unfold State.settle; split <;> rfl
@[simp] theorem State.settle_sramEpoch (s : State) : s.settle.sramEpoch = s.sramEpoch := by
  unfold State.settle; split <;> rfl
@[simp] theorem State.settle_fuses (s : State) : s.settle.fuses = s.fuses := by
  unfold State.settle; split <;> rfl
@[simp] theorem State.settle_ck (s : State) : s.settle.ck = s.ck := by
  unfold State.settle; split <;> rfl
@[simp] theorem State.settle_time (s : State) : s.settle.time = s.time := by
  unfold State.settle; split <;> rfl
@[simp] theorem State.settle_tbValid (s : State) : s.settle.tbValid = s.tbValid := by
  unfold State.settle; split <;> rfl
@[simp] theorem State.settle_tbLoad (s : State) : s.settle.tbLoad = s.tbLoad := by
  unfold State.settle; split <;> rfl
@[simp] theorem State.settle_timers (s : State) : s.settle.timers = s.timers := by
  unfold State.settle; split <;> rfl
@[simp] theorem State.settle_hostData (s : State) : s.settle.hostData = s.hostData := by
  unfold State.settle; split <;> rfl
@[simp] theorem State.settle_hostStat (s : State) : s.settle.hostStat = s.hostStat := by
  unfold State.settle; split <;> rfl
@[simp] theorem State.settle_latches (s : State) : s.settle.latches = s.latches := by
  unfold State.settle; split <;> rfl
@[simp] theorem State.settle_hostNo (s : State) : s.settle.hostNo = s.hostNo := by
  unfold State.settle; split <;> rfl
@[simp] theorem State.settle_guardKey (s : State) : s.settle.guardKey = s.guardKey := by
  unfold State.settle; split <;> rfl
@[simp] theorem State.settle_testKey (s : State) : s.settle.testKey = s.testKey := by
  unfold State.settle; split <;> rfl
@[simp] theorem State.settle_testEn (s : State) : s.settle.testEn = s.testEn := by
  unfold State.settle; split <;> rfl
@[simp] theorem State.settle_linkFails (s : State) : s.settle.linkFails = s.linkFails := by
  unfold State.settle; split <;> rfl
@[simp] theorem State.settle_linkDown (s : State) : s.settle.linkDown = s.linkDown := by
  unfold State.settle; split <;> rfl
@[simp] theorem State.settle_ckLost (s : State) : s.settle.ckLost = s.ckLost := by
  unfold State.settle; split <;> rfl
@[simp] theorem State.settle_late (s : State) : s.settle.late = s.late := by
  unfold State.settle; split <;> rfl
@[simp] theorem State.settle_commitReq (s : State) : s.settle.commitReq = s.commitReq := by
  unfold State.settle; split <;> rfl
@[simp] theorem State.settle_commitRun (s : State) : s.settle.commitRun = s.commitRun := by
  unfold State.settle; split <;> rfl
@[simp] theorem State.settle_gridAt (s : State) : s.settle.gridAt = s.gridAt := by
  unfold State.settle; split <;> rfl
@[simp] theorem State.settle_timeAt (s : State) : s.settle.timeAt = s.timeAt := by
  unfold State.settle; split <;> rfl
@[simp] theorem State.settle_jumps (s : State) : s.settle.jumps = s.jumps := by
  unfold State.settle; split <;> rfl
@[simp] theorem State.settle_refCrc (s : State) : s.settle.refCrc = s.refCrc := by
  unfold State.settle; split <;> rfl
@[simp] theorem State.settle_tick (s : State) : s.settle.tick = s.tick := by
  unfold State.settle; split <;> rfl
@[simp] theorem State.settle_tickAt (s : State) : s.settle.tickAt = s.tickAt := by
  unfold State.settle; split <;> rfl
@[simp] theorem State.settle_logMem (s : State) : s.settle.logMem = s.logMem := by
  unfold State.settle; split <;> rfl
@[simp] theorem State.settle_logSeq (s : State) : s.settle.logSeq = s.logSeq := by
  unfold State.settle; split <;> rfl
@[simp] theorem State.settle_offCount (s : State) : s.settle.offCount = s.offCount := by
  unfold State.settle; split <;> rfl
@[simp] theorem State.settle_offLast (s : State) : s.settle.offLast = s.offLast := by
  unfold State.settle; split <;> rfl
@[simp] theorem State.settle_retryCount (s : State) : s.settle.retryCount = s.retryCount := by
  unfold State.settle; split <;> rfl
@[simp] theorem State.settle_retryLast (s : State) : s.settle.retryLast = s.retryLast := by
  unfold State.settle; split <;> rfl
@[simp] theorem State.settle_spoolSet (s : State) : s.settle.spoolSet = s.spoolSet := by
  unfold State.settle; split <;> rfl
@[simp] theorem State.settle_spoolRst (s : State) : s.settle.spoolRst = s.spoolRst := by
  unfold State.settle; split <;> rfl
@[simp] theorem State.settle_seqReg (s : State) : s.settle.seqReg = s.seqReg := by
  unfold State.settle; split <;> rfl
@[simp] theorem State.settle_seqInj (s : State) : s.settle.seqInj = s.seqInj := by
  unfold State.settle; split <;> rfl
@[simp] theorem State.settle_seqLoop (s : State) : s.settle.seqLoop = s.seqLoop := by
  unfold State.settle; split <;> rfl
@[simp] theorem State.settle_seqRec (s : State) : s.settle.seqRec = s.seqRec := by
  unfold State.settle; split <;> rfl
@[simp] theorem State.settle_slices (s : State) : s.settle.slices = s.slices := by
  unfold State.settle; split <;> rfl
@[simp] theorem State.settle_seq (s : State) : s.settle.seq = s.seq := by
  unfold State.settle; split <;> rfl
@[simp] theorem State.settle_inj (s : State) : s.settle.inj = s.inj := by
  unfold State.settle; split <;> rfl
@[simp] theorem State.settle_accs (s : State) : s.settle.accs = s.accs := by
  unfold State.settle; split <;> rfl
@[simp] theorem State.settle_newReg (s : State) : s.settle.newReg = s.newReg := by
  unfold State.settle; split <;> rfl
@[simp] theorem State.settle_newInj (s : State) : s.settle.newInj = s.newInj := by
  unfold State.settle; split <;> rfl
@[simp] theorem State.settle_mains (s : State) : s.settle.mains = s.mains := by
  unfold State.settle; split <;> rfl
@[simp] theorem State.settle_reel (s : State) : s.settle.reel = s.reel := by
  unfold State.settle; split <;> rfl
@[simp] theorem State.settle_cal (s : State) : s.settle.cal = s.cal := by
  unfold State.settle; split <;> rfl
@[simp] theorem State.settle_refSince (s : State) : s.settle.refSince = s.refSince := by
  unfold State.settle; split <;> rfl
@[simp] theorem State.settle_excMode (s : State) : s.settle.excMode = s.excMode := by
  unfold State.settle; split <;> rfl
@[simp] theorem State.settle_ports (s : State) : s.settle.ports = s.ports := by
  unfold State.settle; split <;> rfl
@[simp] theorem State.settle_keepers (s : State) : s.settle.keepers = s.keepers := by
  unfold State.settle; split <;> rfl
@[simp] theorem State.settle_modems (s : State) : s.settle.modems = s.modems := by
  unfold State.settle; split <;> rfl
@[simp] theorem State.settle_lanes (s : State) : s.settle.lanes = s.lanes := by
  unfold State.settle; split <;> rfl
@[simp] theorem State.settle_actQueue (s : State) : s.settle.actQueue = s.actQueue := by
  unfold State.settle; split <;> rfl
@[simp] theorem State.settle_engBusy (s : State) : s.settle.engBusy = s.engBusy := by
  unfold State.settle; split <;> rfl
@[simp] theorem State.settle_keeperCore (s : State) : s.settle.keeperCore = s.keeperCore := by
  unfold State.settle; split <;> rfl
@[simp] theorem State.settle_od (s : State) : s.settle.od = s.od := by
  unfold State.settle; split <;> rfl
@[simp] theorem State.settle_trunks (s : State) : s.settle.trunks = s.trunks := by
  unfold State.settle; split <;> rfl
@[simp] theorem State.settle_ring (s : State) : s.settle.ring = s.ring := by
  unfold State.settle; split <;> rfl
@[simp] theorem State.settle_wdtFrom (s : State) : s.settle.wdtFrom = s.wdtFrom := by
  unfold State.settle; split <;> rfl
@[simp] theorem State.settle_pwr (s : State) : s.settle.pwr = s.pwr := by
  unfold State.settle; split <;> rfl
@[simp] theorem State.settle_tether (s : State) : s.settle.tether = s.tether := by
  unfold State.settle; split <;> rfl
@[simp] theorem State.settle_freeN (s : State) : s.settle.freeN = s.freeN := by
  unfold State.settle; split <;> rfl

end Sys2Proof.Machine
end

