-- ==== Sys2Proof/Laws/Exec.lean ====
section
/-! SUPPORT. What every command and every step has in common. -/

namespace Sys2Proof.Machine

/-- Every meaning is a next state it computes, with the interrupt summary put up to date last. -/
theorem exec_done (i : Instr) (s : State) : ∃ u, exec i s = State.done u := by
  cases i <;> exact ⟨_, rfl⟩

/-- A step with a command in front is that command on the queue's rest. -/
theorem step_cons (s : State) (c : Instr) (rest : List Instr) (h : s.pending = c :: rest) :
    step s = exec c { s with pending := rest } := by
  simp [step, h]

/-- A step with nothing waiting is one clock cycle. -/
theorem step_nil (s : State) (h : s.pending = []) : step s = .next s.idle := by
  simp [step, h]

end Sys2Proof.Machine
end

