-- ==== Sys2Proof/Laws/Shared.lean ====
section
/-! SUPPORT. What the shared operations can touch: registers and SRAM bytes through record updates, flags, counters, time,
deadlines and the Tail log. -/

namespace Sys2Proof.Machine

/-! ### Reading through a record update -/

theorem State.reg_mk (p rg m me fu ck ti ta' tv tl jm tm hd hs la hn gk tk te lf ld cl lt cr cn rc t ta lm ls oc ol rcn rl ss sr s1 s2 s3 s4
    sl sq ij ac nr ni mn re ca rs em gr po ke mo ln aq eb kc od tr ri wf pw te' fn : _) (a : Nat) :
    (State.mk p rg m me fu ck ti ta' tv tl jm tm hd hs la hn gk tk te lf ld cl lt cr cn rc t ta lm ls oc ol rcn rl ss sr s1 s2 s3 s4
    sl sq ij ac nr ni mn re ca rs em gr po ke mo ln aq eb kc od tr ri wf pw te' fn).reg a = (lookupKey rg a).getD (resetOf fu a) := rfl

/-- A register list and its fuses, read as a register. -/
theorem State.reg_fold (s : State) (f : Fuses) (a : Nat) (h : f = s.fuses) : (lookupKey s.regs a).getD (resetOf f a) = s.reg a := by
  subst h; rfl

/-- States with the same registers and fuses read alike. -/
theorem State.reg_congr (s t : State) (a : Nat) (h : t.regs = s.regs) (f : t.fuses = s.fuses) : t.reg a = s.reg a := by
  simp [State.reg, h, f]

/-! ### Flags, fields and counters -/

@[simp] theorem State.reg_raise (s : State) (a : Nat) (f : Fld) : (s.raise a f).reg a = f.set (s.reg a) 1 := State.reg_setFld s a f 1

@[simp] theorem State.reg_lower (s : State) (a : Nat) (f : Fld) : (s.lower a f).reg a = f.set (s.reg a) 0 := State.reg_setFld s a f 0

@[simp] theorem State.reg_setFlag (s : State) (a : Nat) (f : Fld) (b : Bool) : (s.setFlag a f b).reg a = f.set (s.reg a) (b2n b) :=
  State.reg_setFld s a f _

theorem State.reg_raise_ne (s : State) (a b : Nat) (f : Fld) (h : b ≠ a) : (s.raise a f).reg b = s.reg b :=
  State.reg_setFld_ne s a b f 1 h

theorem State.reg_lower_ne (s : State) (a b : Nat) (f : Fld) (h : b ≠ a) : (s.lower a f).reg b = s.reg b :=
  State.reg_setFld_ne s a b f 0 h

theorem State.reg_setFlag_ne (s : State) (a b : Nat) (f : Fld) (x : Bool) (h : b ≠ a) : (s.setFlag a f x).reg b = s.reg b :=
  State.reg_setFld_ne s a b f _ h

theorem State.reg_count_ne (s : State) (a ev b n : Nat) (f : Fld) (h : b ≠ a) (h2 : b ≠ ev) :
    (s.count a ev f n).reg b = s.reg b := by
  simp only [State.count]
  split
  · exact State.reg_setReg_ne _ _ _ _ h
  · rw [State.reg_raise_ne _ _ _ _ h2, State.reg_setReg_ne _ _ _ _ h]

/-- A counter's event register beside its CTR_SAT bit: a field apart from it keeps its value. -/
theorem State.fld_count_apart (s : State) (a ev n : Nat) (sat g : Fld) (h : g.lo + g.len ≤ 32) (ne : ev ≠ a)
    (d : sat.lo + sat.len ≤ g.lo ∨ g.lo + g.len ≤ sat.lo) : (s.count a ev sat n).fld ev g = s.fld ev g := by
  simp only [State.count]
  split
  · exact State.fld_setReg_ne _ _ _ _ _ ne
  · rw [State.raise, State.fld_setFld_apart _ _ _ _ _ h d, State.fld_setReg_ne _ _ _ _ _ ne]

/-- A counter after its events (R45). -/
theorem State.reg_count_eq (s : State) (a ev n : Nat) (sat : Fld) (ne : a ≠ ev) :
    (s.count a ev sat n).reg a = satAdd (s.reg a) n := by
  unfold satAdd State.count
  dsimp only
  split
  · simp
  · rw [State.reg_raise_ne _ _ _ _ ne, State.reg_setReg]

/-- What a counter's event changes: registers. -/
theorem State.count_frame (s : State) (a ev n : Nat) (sat : Fld) : ∃ r, s.count a ev sat n = { s with regs := r } := by
  simp only [State.count]
  split
  · exact ⟨_, rfl⟩
  · exact ⟨_, rfl⟩

/-- A conditional change that leaves a register alone. -/
theorem State.reg_when (s : State) (c : Bool) (f : State → State) (a : Nat) (h : (f s).reg a = s.reg a) :
    (s.when c f).reg a = s.reg a := by
  cases c
  · rfl
  · exact h

/-! ### Time and deadlines -/

/-- Counting time touches no register but TB_EVENT. -/
theorem State.reg_countTime_ne (s : State) (n a : Nat) (h : a ≠ Reg.TB_EVENT) : (s.countTime n).reg a = s.reg a := by
  simp only [State.countTime]
  split
  · rfl
  · rw [State.reg_raise_ne _ _ _ _ h]
    rfl

/-- TIME that counts up to a tick of elapsed time touches no register but TB_EVENT. -/
theorem State.reg_countTo_ne (s : State) (n a : Nat) (h : a ≠ Reg.TB_EVENT) : (s.countTo n).reg a = s.reg a :=
  State.reg_countTime_ne s _ a h

/-- A load of TIME touches no register but TB_EVENT. -/
theorem State.reg_loadTime_ne (s : State) (v : BitVec 64) (a : Nat) (h : a ≠ Reg.TB_EVENT) : (s.loadTime v).reg a = s.reg a := by
  simp only [State.loadTime]
  rw [State.reg_raise_ne _ _ _ _ h]
  rfl

theorem State.reg_noteJump (s : State) (a : Nat) : s.noteJump.reg a = s.reg a := rfl

/-- A load that falls due touches no register but TB_EVENT. -/
theorem State.reg_loadDue_ne (s : State) (v : BitVec 64) (k a : Nat) (h : a ≠ Reg.TB_EVENT) : (s.loadDue v k).reg a = s.reg a := by
  unfold State.loadDue
  rw [State.reg_loadTime_ne _ _ _ h]
  exact (State.reg_noteJump _ a).trans (State.reg_countTo_ne s _ a h)

theorem State.reg_tickTo_ne (s : State) (t a : Nat) (h : a ≠ Reg.TB_EVENT) : (s.tickTo t).reg a = s.reg a := by
  unfold State.tickTo
  split
  · split
    · rw [State.reg_countTo_ne _ _ _ h, State.reg_loadDue_ne _ _ _ _ h]
    · exact State.reg_countTo_ne _ _ _ h
  · exact State.reg_countTo_ne _ _ _ h

/-- Time that passes touches no register but TB_EVENT. -/
theorem State.reg_pass_ne (s : State) (n a : Nat) (h : a ≠ Reg.TB_EVENT) : (s.pass n).reg a = s.reg a :=
  State.reg_tickTo_ne s _ a h

theorem State.reg_passTo_ne (s : State) (n a : Nat) (h : a ≠ Reg.TB_EVENT) : (s.passTo n).reg a = s.reg a := by
  unfold State.passTo
  split
  · exact State.reg_pass_ne _ _ _ h
  · rfl

/-- Elapsed time after a pass. -/
@[simp] theorem State.pass_ck (s : State) (n : Nat) : (s.pass n).ck = s.ck + n := rfl

/-- Elapsed time after passing up to an instant. -/
theorem State.passTo_ck (s : State) (n : Nat) : (s.passTo n).ck = max s.ck n := by
  unfold State.passTo
  split
  · rw [State.pass_ck]
    omega
  · omega

/-- Counting time keeps the SRAM. -/
@[simp] theorem State.countTime_sram (s : State) (n : Nat) : (s.countTime n).sram = s.sram := by
  simp only [State.countTime]
  split <;> rfl

@[simp] theorem State.countTime_sramEpoch (s : State) (n : Nat) : (s.countTime n).sramEpoch = s.sramEpoch := by
  simp only [State.countTime]
  split <;> rfl

@[simp] theorem State.countTo_sram (s : State) (n : Nat) : (s.countTo n).sram = s.sram := State.countTime_sram s _

@[simp] theorem State.countTo_sramEpoch (s : State) (n : Nat) : (s.countTo n).sramEpoch = s.sramEpoch := State.countTime_sramEpoch s _

@[simp] theorem State.loadDue_sram (s : State) (v : BitVec 64) (k : Nat) : (s.loadDue v k).sram = s.sram := State.countTo_sram s _

@[simp] theorem State.loadDue_sramEpoch (s : State) (v : BitVec 64) (k : Nat) : (s.loadDue v k).sramEpoch = s.sramEpoch :=
  State.countTo_sramEpoch s _

/-- Time that passes keeps the SRAM. -/
@[simp] theorem State.pass_sram (s : State) (n : Nat) : (s.pass n).sram = s.sram := by
  show (s.tickTo _).sram = s.sram
  unfold State.tickTo
  repeat' split
  all_goals simp

@[simp] theorem State.pass_sramEpoch (s : State) (n : Nat) : (s.pass n).sramEpoch = s.sramEpoch := by
  show (s.tickTo _).sramEpoch = s.sramEpoch
  unfold State.tickTo
  repeat' split
  all_goals simp

/-! ### The Tail log (R308) -/

/-- A log entry touches no register but the log's own. -/
theorem State.reg_log_ne (s : State) (sev : Sev) (code cls idx : Nat) (d0 d1 d2 : Word) (a : Nat) (h : a ∉ logTouches) :
    (s.log sev code cls idx d0 d1 d2).reg a = s.reg a := by
  simp only [logTouches, List.mem_cons, List.not_mem_nil, or_false, not_or] at h
  obtain ⟨h1, h2, h3, h4⟩ := h
  unfold State.log
  split
  · rfl
  · split
    · exact State.reg_count_ne _ _ _ _ _ _ h2 h3
    · unfold State.logPut
      refine (State.reg_when _ _ _ _ ?_).trans ((State.reg_when _ _ _ _ ?_).trans ((State.reg_setReg_ne _ _ _ _ h1).trans
        ((State.reg_when _ _ _ _ ?_).trans rfl)))
      · rw [State.reg_raise_ne _ _ _ _ h3, State.reg_raise_ne _ _ _ _ h4]
      · exact State.reg_raise_ne _ _ _ _ h3
      · rw [State.reg_raise_ne _ _ _ _ h3]
        exact State.reg_count_ne _ _ _ _ _ _ h2 h3

/-- What a log entry changes: registers, the log's own memory and its sequence number. -/
theorem State.log_frame (s : State) (sev : Sev) (code cls idx : Nat) (d0 d1 d2 : Word) :
    ∃ r m q, s.log sev code cls idx d0 d1 d2 = { s with regs := r, logMem := m, logSeq := q } := by
  unfold State.log
  split
  · exact ⟨_, _, _, rfl⟩
  · split
    · obtain ⟨r, h⟩ := State.count_frame s Reg.LOG_LOST Reg.LOG_EVENT 1 Fld.LOG_EVENT_CTR_SAT
      exact ⟨r, _, _, h⟩
    · have h (m : List (Nat × List Word)) (q : BitVec 16) := State.count_frame { s with logMem := m, logSeq := q } Reg.LOG_LOST
        Reg.LOG_EVENT 1 Fld.LOG_EVENT_CTR_SAT
      obtain ⟨r, h⟩ := h (insertKey s.logMem ((s.reg Reg.LOG_WP).toNat % 4096)
        (logWords s.time s.tbValid s.logSeq sev code cls idx d0 d1 d2)) (s.logSeq + 1)
      simp only [State.logPut, State.logLose, State.when, h]
      repeat' split
      all_goals exact ⟨_, _, _, rfl⟩

/-! ### The host port -/

/-- R28: the fields of a command word read back. -/
theorem hostCommand_word (op : HostOp) (z : BitVec 2) (len : BitVec 4) (a : BitVec 24) :
    hostCommand (hostCommandWord op z len a) = (op, z, len, a) := by
  have key : ∀ x : BitVec 2, ((x ++ z ++ len ++ a : BitVec (2 + 2 + 4 + 24)).extractLsb' 30 2 = x) ∧
      ((x ++ z ++ len ++ a : BitVec (2 + 2 + 4 + 24)).extractLsb' 28 2 = z) ∧
      ((x ++ z ++ len ++ a : BitVec (2 + 2 + 4 + 24)).extractLsb' 24 4 = len) ∧
      ((x ++ z ++ len ++ a : BitVec (2 + 2 + 4 + 24)).extractLsb' 0 24 = a) := by
    intro x
    refine ⟨?_, ?_, ?_, ?_⟩ <;> apply BitVec.eq_of_getLsbD_eq <;> intro i hi <;>
      simp only [BitVec.getLsbD_extractLsb', BitVec.getLsbD_append, hi, decide_true, Bool.true_and] <;>
      split_ifs <;> first | omega | (congr 1; omega)
  obtain ⟨h1, h2, h3, h4⟩ := key (BitVec.ofNat 2 (hostOpNum op))
  unfold hostCommand hostCommandWord
  erw [h1, h2, h3, h4]
  cases op <;> rfl

/-- A transaction by its fields: carried out while the port is live; else the fall of HCSn alone, where it is a wake source (log entry 78). -/
theorem State.hostTransaction_word (s : State) (op : HostOp) (z : BitVec 2) (len : BitVec 4) (a : BitVec 24) (aborted : Bool) (d : HostData) :
    s.hostTransaction (hostCommandWord op z len a) aborted d =
      if s.hostLive then (({ s := s.hostBegin : HostRun }).words op z len a d).finish op z aborted
      else s.hostMute.when s.hcsnWakes fun s => s.hcsnFalls.wakeGo := by
  unfold State.hostTransaction
  rw [hostCommand_word]
  cases s.hostLive <;> rfl

/-- A row only the host sends: nothing while the port is not live; a refusal with its code; or its write, as a transaction of its own
(log entry 72). -/
theorem State.hostRow_cases (s : State) (a : Nat) (g : Bool) (f : State → State) :
    (s.hostLive = false ∧ s.hostRow a g f = s.when s.hcsnWakes State.hcsnFalls) ∨
    (s.hostLive = true ∧ s.reachable a = false ∧ s.hostRow a g f =
      (((s.hostBegin.answerAt a a .domainOff).faultAt .write 2 .domainOff a).settle.hostSends [] false HostCode.domainOff.num false)) ∨
    (s.hostOpen a = true ∧ g = true ∧ s.locked = true ∧ s.hostRow a g f =
      (((s.hostBegin.answerAt a a .guardLock).faultAt .write 2 .guardLock a).settle.hostSends [] false HostCode.guardLock.num false)) ∨
    (s.hostOpen a = true ∧ (g = false ∨ s.locked = false) ∧
      s.hostRow a g f = ((s.hostBegin.gRow a f).settle.hostSends [] false 0 false)) := by
  have hr : s.hostBegin.reachable a = s.reachable a := rfl
  have hl : s.hostBegin.locked = s.locked := rfl
  unfold State.hostRow State.hostOpen
  simp only [hr, hl]
  cases s.hostLive <;> cases s.reachable a <;> cases g <;> cases s.locked <;> simp

/-! ### The loop tick of a port -/

/-- One loop tick of a port whose die works, in its parts. -/
theorem State.portTick_runs (s : State) (n : Nat) (x : PortSample) (h : s.portRuns n = true) :
    s.portTick n x =
      let t := (((s.tickReady n).formTarget n).sampleTick n x (s.readback n x) (s.target n)).trimSample n (s.readback n x)
      t.setPort n { t.port n with openT := t.target n } := by
  unfold State.portTick
  rw [h]
  rfl

end Sys2Proof.Machine
end

