-- ==== Sys2Proof/Laws/Frames.lean ====
section
/-! SUPPORT. Field by field: what a field write, a flag, a counter, a log entry and the passing of time leave alone. -/

namespace Sys2Proof.Machine

/-! ### setFld -/

@[simp] theorem State.setFld_pending (s : State) (a : Nat) (f : Fld) (x : Nat) : (s.setFld a f x).pending = s.pending := rfl
@[simp] theorem State.setFld_sram (s : State) (a : Nat) (f : Fld) (x : Nat) : (s.setFld a f x).sram = s.sram := rfl
@[simp] theorem State.setFld_sramEpoch (s : State) (a : Nat) (f : Fld) (x : Nat) : (s.setFld a f x).sramEpoch = s.sramEpoch := rfl
@[simp] theorem State.setFld_fuses (s : State) (a : Nat) (f : Fld) (x : Nat) : (s.setFld a f x).fuses = s.fuses := rfl
@[simp] theorem State.setFld_ck (s : State) (a : Nat) (f : Fld) (x : Nat) : (s.setFld a f x).ck = s.ck := rfl
@[simp] theorem State.setFld_time (s : State) (a : Nat) (f : Fld) (x : Nat) : (s.setFld a f x).time = s.time := rfl
@[simp] theorem State.setFld_tbValid (s : State) (a : Nat) (f : Fld) (x : Nat) : (s.setFld a f x).tbValid = s.tbValid := rfl
@[simp] theorem State.setFld_tbLoad (s : State) (a : Nat) (f : Fld) (x : Nat) : (s.setFld a f x).tbLoad = s.tbLoad := rfl
@[simp] theorem State.setFld_timers (s : State) (a : Nat) (f : Fld) (x : Nat) : (s.setFld a f x).timers = s.timers := rfl
@[simp] theorem State.setFld_hostData (s : State) (a : Nat) (f : Fld) (x : Nat) : (s.setFld a f x).hostData = s.hostData := rfl
@[simp] theorem State.setFld_hostStat (s : State) (a : Nat) (f : Fld) (x : Nat) : (s.setFld a f x).hostStat = s.hostStat := rfl
@[simp] theorem State.setFld_latches (s : State) (a : Nat) (f : Fld) (x : Nat) : (s.setFld a f x).latches = s.latches := rfl
@[simp] theorem State.setFld_hostNo (s : State) (a : Nat) (f : Fld) (x : Nat) : (s.setFld a f x).hostNo = s.hostNo := rfl
@[simp] theorem State.setFld_guardKey (s : State) (a : Nat) (f : Fld) (x : Nat) : (s.setFld a f x).guardKey = s.guardKey := rfl
@[simp] theorem State.setFld_testKey (s : State) (a : Nat) (f : Fld) (x : Nat) : (s.setFld a f x).testKey = s.testKey := rfl
@[simp] theorem State.setFld_testEn (s : State) (a : Nat) (f : Fld) (x : Nat) : (s.setFld a f x).testEn = s.testEn := rfl
@[simp] theorem State.setFld_linkFails (s : State) (a : Nat) (f : Fld) (x : Nat) : (s.setFld a f x).linkFails = s.linkFails := rfl
@[simp] theorem State.setFld_linkDown (s : State) (a : Nat) (f : Fld) (x : Nat) : (s.setFld a f x).linkDown = s.linkDown := rfl
@[simp] theorem State.setFld_ckLost (s : State) (a : Nat) (f : Fld) (x : Nat) : (s.setFld a f x).ckLost = s.ckLost := rfl
@[simp] theorem State.setFld_late (s : State) (a : Nat) (f : Fld) (x : Nat) : (s.setFld a f x).late = s.late := rfl
@[simp] theorem State.setFld_commitReq (s : State) (a : Nat) (f : Fld) (x : Nat) : (s.setFld a f x).commitReq = s.commitReq := rfl
@[simp] theorem State.setFld_commitRun (s : State) (a : Nat) (f : Fld) (x : Nat) : (s.setFld a f x).commitRun = s.commitRun := rfl
@[simp] theorem State.setFld_gridAt (s : State) (a : Nat) (f : Fld) (x : Nat) : (s.setFld a f x).gridAt = s.gridAt := rfl
@[simp] theorem State.setFld_timeAt (s : State) (a : Nat) (f : Fld) (x : Nat) : (s.setFld a f x).timeAt = s.timeAt := rfl
@[simp] theorem State.setFld_jumps (s : State) (a : Nat) (f : Fld) (x : Nat) : (s.setFld a f x).jumps = s.jumps := rfl
@[simp] theorem State.setFld_refCrc (s : State) (a : Nat) (f : Fld) (x : Nat) : (s.setFld a f x).refCrc = s.refCrc := rfl
@[simp] theorem State.setFld_tick (s : State) (a : Nat) (f : Fld) (x : Nat) : (s.setFld a f x).tick = s.tick := rfl
@[simp] theorem State.setFld_tickAt (s : State) (a : Nat) (f : Fld) (x : Nat) : (s.setFld a f x).tickAt = s.tickAt := rfl
@[simp] theorem State.setFld_logMem (s : State) (a : Nat) (f : Fld) (x : Nat) : (s.setFld a f x).logMem = s.logMem := rfl
@[simp] theorem State.setFld_logSeq (s : State) (a : Nat) (f : Fld) (x : Nat) : (s.setFld a f x).logSeq = s.logSeq := rfl
@[simp] theorem State.setFld_offCount (s : State) (a : Nat) (f : Fld) (x : Nat) : (s.setFld a f x).offCount = s.offCount := rfl
@[simp] theorem State.setFld_offLast (s : State) (a : Nat) (f : Fld) (x : Nat) : (s.setFld a f x).offLast = s.offLast := rfl
@[simp] theorem State.setFld_retryCount (s : State) (a : Nat) (f : Fld) (x : Nat) : (s.setFld a f x).retryCount = s.retryCount := rfl
@[simp] theorem State.setFld_retryLast (s : State) (a : Nat) (f : Fld) (x : Nat) : (s.setFld a f x).retryLast = s.retryLast := rfl
@[simp] theorem State.setFld_spoolSet (s : State) (a : Nat) (f : Fld) (x : Nat) : (s.setFld a f x).spoolSet = s.spoolSet := rfl
@[simp] theorem State.setFld_spoolRst (s : State) (a : Nat) (f : Fld) (x : Nat) : (s.setFld a f x).spoolRst = s.spoolRst := rfl
@[simp] theorem State.setFld_seqReg (s : State) (a : Nat) (f : Fld) (x : Nat) : (s.setFld a f x).seqReg = s.seqReg := rfl
@[simp] theorem State.setFld_seqInj (s : State) (a : Nat) (f : Fld) (x : Nat) : (s.setFld a f x).seqInj = s.seqInj := rfl
@[simp] theorem State.setFld_seqLoop (s : State) (a : Nat) (f : Fld) (x : Nat) : (s.setFld a f x).seqLoop = s.seqLoop := rfl
@[simp] theorem State.setFld_seqRec (s : State) (a : Nat) (f : Fld) (x : Nat) : (s.setFld a f x).seqRec = s.seqRec := rfl
@[simp] theorem State.setFld_slices (s : State) (a : Nat) (f : Fld) (x : Nat) : (s.setFld a f x).slices = s.slices := rfl
@[simp] theorem State.setFld_seq (s : State) (a : Nat) (f : Fld) (x : Nat) : (s.setFld a f x).seq = s.seq := rfl
@[simp] theorem State.setFld_inj (s : State) (a : Nat) (f : Fld) (x : Nat) : (s.setFld a f x).inj = s.inj := rfl
@[simp] theorem State.setFld_accs (s : State) (a : Nat) (f : Fld) (x : Nat) : (s.setFld a f x).accs = s.accs := rfl
@[simp] theorem State.setFld_newReg (s : State) (a : Nat) (f : Fld) (x : Nat) : (s.setFld a f x).newReg = s.newReg := rfl
@[simp] theorem State.setFld_newInj (s : State) (a : Nat) (f : Fld) (x : Nat) : (s.setFld a f x).newInj = s.newInj := rfl
@[simp] theorem State.setFld_mains (s : State) (a : Nat) (f : Fld) (x : Nat) : (s.setFld a f x).mains = s.mains := rfl
@[simp] theorem State.setFld_reel (s : State) (a : Nat) (f : Fld) (x : Nat) : (s.setFld a f x).reel = s.reel := rfl
@[simp] theorem State.setFld_cal (s : State) (a : Nat) (f : Fld) (x : Nat) : (s.setFld a f x).cal = s.cal := rfl
@[simp] theorem State.setFld_refSince (s : State) (a : Nat) (f : Fld) (x : Nat) : (s.setFld a f x).refSince = s.refSince := rfl
@[simp] theorem State.setFld_excMode (s : State) (a : Nat) (f : Fld) (x : Nat) : (s.setFld a f x).excMode = s.excMode := rfl
@[simp] theorem State.setFld_ports (s : State) (a : Nat) (f : Fld) (x : Nat) : (s.setFld a f x).ports = s.ports := rfl
@[simp] theorem State.setFld_keepers (s : State) (a : Nat) (f : Fld) (x : Nat) : (s.setFld a f x).keepers = s.keepers := rfl
@[simp] theorem State.setFld_modems (s : State) (a : Nat) (f : Fld) (x : Nat) : (s.setFld a f x).modems = s.modems := rfl
@[simp] theorem State.setFld_lanes (s : State) (a : Nat) (f : Fld) (x : Nat) : (s.setFld a f x).lanes = s.lanes := rfl
@[simp] theorem State.setFld_actQueue (s : State) (a : Nat) (f : Fld) (x : Nat) : (s.setFld a f x).actQueue = s.actQueue := rfl
@[simp] theorem State.setFld_engBusy (s : State) (a : Nat) (f : Fld) (x : Nat) : (s.setFld a f x).engBusy = s.engBusy := rfl
@[simp] theorem State.setFld_keeperCore (s : State) (a : Nat) (f : Fld) (x : Nat) : (s.setFld a f x).keeperCore = s.keeperCore := rfl
@[simp] theorem State.setFld_od (s : State) (a : Nat) (f : Fld) (x : Nat) : (s.setFld a f x).od = s.od := rfl
@[simp] theorem State.setFld_trunks (s : State) (a : Nat) (f : Fld) (x : Nat) : (s.setFld a f x).trunks = s.trunks := rfl
@[simp] theorem State.setFld_ring (s : State) (a : Nat) (f : Fld) (x : Nat) : (s.setFld a f x).ring = s.ring := rfl
@[simp] theorem State.setFld_wdtFrom (s : State) (a : Nat) (f : Fld) (x : Nat) : (s.setFld a f x).wdtFrom = s.wdtFrom := rfl
@[simp] theorem State.setFld_pwr (s : State) (a : Nat) (f : Fld) (x : Nat) : (s.setFld a f x).pwr = s.pwr := rfl
@[simp] theorem State.setFld_tether (s : State) (a : Nat) (f : Fld) (x : Nat) : (s.setFld a f x).tether = s.tether := rfl
@[simp] theorem State.setFld_freeN (s : State) (a : Nat) (f : Fld) (x : Nat) : (s.setFld a f x).freeN = s.freeN := rfl

/-! ### raise -/

@[simp] theorem State.raise_pending (s : State) (a : Nat) (f : Fld) : (s.raise a f).pending = s.pending := rfl
@[simp] theorem State.raise_sram (s : State) (a : Nat) (f : Fld) : (s.raise a f).sram = s.sram := rfl
@[simp] theorem State.raise_sramEpoch (s : State) (a : Nat) (f : Fld) : (s.raise a f).sramEpoch = s.sramEpoch := rfl
@[simp] theorem State.raise_fuses (s : State) (a : Nat) (f : Fld) : (s.raise a f).fuses = s.fuses := rfl
@[simp] theorem State.raise_ck (s : State) (a : Nat) (f : Fld) : (s.raise a f).ck = s.ck := rfl
@[simp] theorem State.raise_time (s : State) (a : Nat) (f : Fld) : (s.raise a f).time = s.time := rfl
@[simp] theorem State.raise_tbValid (s : State) (a : Nat) (f : Fld) : (s.raise a f).tbValid = s.tbValid := rfl
@[simp] theorem State.raise_tbLoad (s : State) (a : Nat) (f : Fld) : (s.raise a f).tbLoad = s.tbLoad := rfl
@[simp] theorem State.raise_timers (s : State) (a : Nat) (f : Fld) : (s.raise a f).timers = s.timers := rfl
@[simp] theorem State.raise_hostData (s : State) (a : Nat) (f : Fld) : (s.raise a f).hostData = s.hostData := rfl
@[simp] theorem State.raise_hostStat (s : State) (a : Nat) (f : Fld) : (s.raise a f).hostStat = s.hostStat := rfl
@[simp] theorem State.raise_latches (s : State) (a : Nat) (f : Fld) : (s.raise a f).latches = s.latches := rfl
@[simp] theorem State.raise_hostNo (s : State) (a : Nat) (f : Fld) : (s.raise a f).hostNo = s.hostNo := rfl
@[simp] theorem State.raise_guardKey (s : State) (a : Nat) (f : Fld) : (s.raise a f).guardKey = s.guardKey := rfl
@[simp] theorem State.raise_testKey (s : State) (a : Nat) (f : Fld) : (s.raise a f).testKey = s.testKey := rfl
@[simp] theorem State.raise_testEn (s : State) (a : Nat) (f : Fld) : (s.raise a f).testEn = s.testEn := rfl
@[simp] theorem State.raise_linkFails (s : State) (a : Nat) (f : Fld) : (s.raise a f).linkFails = s.linkFails := rfl
@[simp] theorem State.raise_linkDown (s : State) (a : Nat) (f : Fld) : (s.raise a f).linkDown = s.linkDown := rfl
@[simp] theorem State.raise_ckLost (s : State) (a : Nat) (f : Fld) : (s.raise a f).ckLost = s.ckLost := rfl
@[simp] theorem State.raise_late (s : State) (a : Nat) (f : Fld) : (s.raise a f).late = s.late := rfl
@[simp] theorem State.raise_commitReq (s : State) (a : Nat) (f : Fld) : (s.raise a f).commitReq = s.commitReq := rfl
@[simp] theorem State.raise_commitRun (s : State) (a : Nat) (f : Fld) : (s.raise a f).commitRun = s.commitRun := rfl
@[simp] theorem State.raise_gridAt (s : State) (a : Nat) (f : Fld) : (s.raise a f).gridAt = s.gridAt := rfl
@[simp] theorem State.raise_timeAt (s : State) (a : Nat) (f : Fld) : (s.raise a f).timeAt = s.timeAt := rfl
@[simp] theorem State.raise_jumps (s : State) (a : Nat) (f : Fld) : (s.raise a f).jumps = s.jumps := rfl
@[simp] theorem State.raise_refCrc (s : State) (a : Nat) (f : Fld) : (s.raise a f).refCrc = s.refCrc := rfl
@[simp] theorem State.raise_tick (s : State) (a : Nat) (f : Fld) : (s.raise a f).tick = s.tick := rfl
@[simp] theorem State.raise_tickAt (s : State) (a : Nat) (f : Fld) : (s.raise a f).tickAt = s.tickAt := rfl
@[simp] theorem State.raise_logMem (s : State) (a : Nat) (f : Fld) : (s.raise a f).logMem = s.logMem := rfl
@[simp] theorem State.raise_logSeq (s : State) (a : Nat) (f : Fld) : (s.raise a f).logSeq = s.logSeq := rfl
@[simp] theorem State.raise_offCount (s : State) (a : Nat) (f : Fld) : (s.raise a f).offCount = s.offCount := rfl
@[simp] theorem State.raise_offLast (s : State) (a : Nat) (f : Fld) : (s.raise a f).offLast = s.offLast := rfl
@[simp] theorem State.raise_retryCount (s : State) (a : Nat) (f : Fld) : (s.raise a f).retryCount = s.retryCount := rfl
@[simp] theorem State.raise_retryLast (s : State) (a : Nat) (f : Fld) : (s.raise a f).retryLast = s.retryLast := rfl
@[simp] theorem State.raise_spoolSet (s : State) (a : Nat) (f : Fld) : (s.raise a f).spoolSet = s.spoolSet := rfl
@[simp] theorem State.raise_spoolRst (s : State) (a : Nat) (f : Fld) : (s.raise a f).spoolRst = s.spoolRst := rfl
@[simp] theorem State.raise_seqReg (s : State) (a : Nat) (f : Fld) : (s.raise a f).seqReg = s.seqReg := rfl
@[simp] theorem State.raise_seqInj (s : State) (a : Nat) (f : Fld) : (s.raise a f).seqInj = s.seqInj := rfl
@[simp] theorem State.raise_seqLoop (s : State) (a : Nat) (f : Fld) : (s.raise a f).seqLoop = s.seqLoop := rfl
@[simp] theorem State.raise_seqRec (s : State) (a : Nat) (f : Fld) : (s.raise a f).seqRec = s.seqRec := rfl
@[simp] theorem State.raise_slices (s : State) (a : Nat) (f : Fld) : (s.raise a f).slices = s.slices := rfl
@[simp] theorem State.raise_seq (s : State) (a : Nat) (f : Fld) : (s.raise a f).seq = s.seq := rfl
@[simp] theorem State.raise_inj (s : State) (a : Nat) (f : Fld) : (s.raise a f).inj = s.inj := rfl
@[simp] theorem State.raise_accs (s : State) (a : Nat) (f : Fld) : (s.raise a f).accs = s.accs := rfl
@[simp] theorem State.raise_newReg (s : State) (a : Nat) (f : Fld) : (s.raise a f).newReg = s.newReg := rfl
@[simp] theorem State.raise_newInj (s : State) (a : Nat) (f : Fld) : (s.raise a f).newInj = s.newInj := rfl
@[simp] theorem State.raise_mains (s : State) (a : Nat) (f : Fld) : (s.raise a f).mains = s.mains := rfl
@[simp] theorem State.raise_reel (s : State) (a : Nat) (f : Fld) : (s.raise a f).reel = s.reel := rfl
@[simp] theorem State.raise_cal (s : State) (a : Nat) (f : Fld) : (s.raise a f).cal = s.cal := rfl
@[simp] theorem State.raise_refSince (s : State) (a : Nat) (f : Fld) : (s.raise a f).refSince = s.refSince := rfl
@[simp] theorem State.raise_excMode (s : State) (a : Nat) (f : Fld) : (s.raise a f).excMode = s.excMode := rfl
@[simp] theorem State.raise_ports (s : State) (a : Nat) (f : Fld) : (s.raise a f).ports = s.ports := rfl
@[simp] theorem State.raise_keepers (s : State) (a : Nat) (f : Fld) : (s.raise a f).keepers = s.keepers := rfl
@[simp] theorem State.raise_modems (s : State) (a : Nat) (f : Fld) : (s.raise a f).modems = s.modems := rfl
@[simp] theorem State.raise_lanes (s : State) (a : Nat) (f : Fld) : (s.raise a f).lanes = s.lanes := rfl
@[simp] theorem State.raise_actQueue (s : State) (a : Nat) (f : Fld) : (s.raise a f).actQueue = s.actQueue := rfl
@[simp] theorem State.raise_engBusy (s : State) (a : Nat) (f : Fld) : (s.raise a f).engBusy = s.engBusy := rfl
@[simp] theorem State.raise_keeperCore (s : State) (a : Nat) (f : Fld) : (s.raise a f).keeperCore = s.keeperCore := rfl
@[simp] theorem State.raise_od (s : State) (a : Nat) (f : Fld) : (s.raise a f).od = s.od := rfl
@[simp] theorem State.raise_trunks (s : State) (a : Nat) (f : Fld) : (s.raise a f).trunks = s.trunks := rfl
@[simp] theorem State.raise_ring (s : State) (a : Nat) (f : Fld) : (s.raise a f).ring = s.ring := rfl
@[simp] theorem State.raise_wdtFrom (s : State) (a : Nat) (f : Fld) : (s.raise a f).wdtFrom = s.wdtFrom := rfl
@[simp] theorem State.raise_pwr (s : State) (a : Nat) (f : Fld) : (s.raise a f).pwr = s.pwr := rfl
@[simp] theorem State.raise_tether (s : State) (a : Nat) (f : Fld) : (s.raise a f).tether = s.tether := rfl
@[simp] theorem State.raise_freeN (s : State) (a : Nat) (f : Fld) : (s.raise a f).freeN = s.freeN := rfl

/-! ### lower -/

@[simp] theorem State.lower_pending (s : State) (a : Nat) (f : Fld) : (s.lower a f).pending = s.pending := rfl
@[simp] theorem State.lower_sram (s : State) (a : Nat) (f : Fld) : (s.lower a f).sram = s.sram := rfl
@[simp] theorem State.lower_sramEpoch (s : State) (a : Nat) (f : Fld) : (s.lower a f).sramEpoch = s.sramEpoch := rfl
@[simp] theorem State.lower_fuses (s : State) (a : Nat) (f : Fld) : (s.lower a f).fuses = s.fuses := rfl
@[simp] theorem State.lower_ck (s : State) (a : Nat) (f : Fld) : (s.lower a f).ck = s.ck := rfl
@[simp] theorem State.lower_time (s : State) (a : Nat) (f : Fld) : (s.lower a f).time = s.time := rfl
@[simp] theorem State.lower_tbValid (s : State) (a : Nat) (f : Fld) : (s.lower a f).tbValid = s.tbValid := rfl
@[simp] theorem State.lower_tbLoad (s : State) (a : Nat) (f : Fld) : (s.lower a f).tbLoad = s.tbLoad := rfl
@[simp] theorem State.lower_timers (s : State) (a : Nat) (f : Fld) : (s.lower a f).timers = s.timers := rfl
@[simp] theorem State.lower_hostData (s : State) (a : Nat) (f : Fld) : (s.lower a f).hostData = s.hostData := rfl
@[simp] theorem State.lower_hostStat (s : State) (a : Nat) (f : Fld) : (s.lower a f).hostStat = s.hostStat := rfl
@[simp] theorem State.lower_latches (s : State) (a : Nat) (f : Fld) : (s.lower a f).latches = s.latches := rfl
@[simp] theorem State.lower_hostNo (s : State) (a : Nat) (f : Fld) : (s.lower a f).hostNo = s.hostNo := rfl
@[simp] theorem State.lower_guardKey (s : State) (a : Nat) (f : Fld) : (s.lower a f).guardKey = s.guardKey := rfl
@[simp] theorem State.lower_testKey (s : State) (a : Nat) (f : Fld) : (s.lower a f).testKey = s.testKey := rfl
@[simp] theorem State.lower_testEn (s : State) (a : Nat) (f : Fld) : (s.lower a f).testEn = s.testEn := rfl
@[simp] theorem State.lower_linkFails (s : State) (a : Nat) (f : Fld) : (s.lower a f).linkFails = s.linkFails := rfl
@[simp] theorem State.lower_linkDown (s : State) (a : Nat) (f : Fld) : (s.lower a f).linkDown = s.linkDown := rfl
@[simp] theorem State.lower_ckLost (s : State) (a : Nat) (f : Fld) : (s.lower a f).ckLost = s.ckLost := rfl
@[simp] theorem State.lower_late (s : State) (a : Nat) (f : Fld) : (s.lower a f).late = s.late := rfl
@[simp] theorem State.lower_commitReq (s : State) (a : Nat) (f : Fld) : (s.lower a f).commitReq = s.commitReq := rfl
@[simp] theorem State.lower_commitRun (s : State) (a : Nat) (f : Fld) : (s.lower a f).commitRun = s.commitRun := rfl
@[simp] theorem State.lower_gridAt (s : State) (a : Nat) (f : Fld) : (s.lower a f).gridAt = s.gridAt := rfl
@[simp] theorem State.lower_timeAt (s : State) (a : Nat) (f : Fld) : (s.lower a f).timeAt = s.timeAt := rfl
@[simp] theorem State.lower_jumps (s : State) (a : Nat) (f : Fld) : (s.lower a f).jumps = s.jumps := rfl
@[simp] theorem State.lower_refCrc (s : State) (a : Nat) (f : Fld) : (s.lower a f).refCrc = s.refCrc := rfl
@[simp] theorem State.lower_tick (s : State) (a : Nat) (f : Fld) : (s.lower a f).tick = s.tick := rfl
@[simp] theorem State.lower_tickAt (s : State) (a : Nat) (f : Fld) : (s.lower a f).tickAt = s.tickAt := rfl
@[simp] theorem State.lower_logMem (s : State) (a : Nat) (f : Fld) : (s.lower a f).logMem = s.logMem := rfl
@[simp] theorem State.lower_logSeq (s : State) (a : Nat) (f : Fld) : (s.lower a f).logSeq = s.logSeq := rfl
@[simp] theorem State.lower_offCount (s : State) (a : Nat) (f : Fld) : (s.lower a f).offCount = s.offCount := rfl
@[simp] theorem State.lower_offLast (s : State) (a : Nat) (f : Fld) : (s.lower a f).offLast = s.offLast := rfl
@[simp] theorem State.lower_retryCount (s : State) (a : Nat) (f : Fld) : (s.lower a f).retryCount = s.retryCount := rfl
@[simp] theorem State.lower_retryLast (s : State) (a : Nat) (f : Fld) : (s.lower a f).retryLast = s.retryLast := rfl
@[simp] theorem State.lower_spoolSet (s : State) (a : Nat) (f : Fld) : (s.lower a f).spoolSet = s.spoolSet := rfl
@[simp] theorem State.lower_spoolRst (s : State) (a : Nat) (f : Fld) : (s.lower a f).spoolRst = s.spoolRst := rfl
@[simp] theorem State.lower_seqReg (s : State) (a : Nat) (f : Fld) : (s.lower a f).seqReg = s.seqReg := rfl
@[simp] theorem State.lower_seqInj (s : State) (a : Nat) (f : Fld) : (s.lower a f).seqInj = s.seqInj := rfl
@[simp] theorem State.lower_seqLoop (s : State) (a : Nat) (f : Fld) : (s.lower a f).seqLoop = s.seqLoop := rfl
@[simp] theorem State.lower_seqRec (s : State) (a : Nat) (f : Fld) : (s.lower a f).seqRec = s.seqRec := rfl
@[simp] theorem State.lower_slices (s : State) (a : Nat) (f : Fld) : (s.lower a f).slices = s.slices := rfl
@[simp] theorem State.lower_seq (s : State) (a : Nat) (f : Fld) : (s.lower a f).seq = s.seq := rfl
@[simp] theorem State.lower_inj (s : State) (a : Nat) (f : Fld) : (s.lower a f).inj = s.inj := rfl
@[simp] theorem State.lower_accs (s : State) (a : Nat) (f : Fld) : (s.lower a f).accs = s.accs := rfl
@[simp] theorem State.lower_newReg (s : State) (a : Nat) (f : Fld) : (s.lower a f).newReg = s.newReg := rfl
@[simp] theorem State.lower_newInj (s : State) (a : Nat) (f : Fld) : (s.lower a f).newInj = s.newInj := rfl
@[simp] theorem State.lower_mains (s : State) (a : Nat) (f : Fld) : (s.lower a f).mains = s.mains := rfl
@[simp] theorem State.lower_reel (s : State) (a : Nat) (f : Fld) : (s.lower a f).reel = s.reel := rfl
@[simp] theorem State.lower_cal (s : State) (a : Nat) (f : Fld) : (s.lower a f).cal = s.cal := rfl
@[simp] theorem State.lower_refSince (s : State) (a : Nat) (f : Fld) : (s.lower a f).refSince = s.refSince := rfl
@[simp] theorem State.lower_excMode (s : State) (a : Nat) (f : Fld) : (s.lower a f).excMode = s.excMode := rfl
@[simp] theorem State.lower_ports (s : State) (a : Nat) (f : Fld) : (s.lower a f).ports = s.ports := rfl
@[simp] theorem State.lower_keepers (s : State) (a : Nat) (f : Fld) : (s.lower a f).keepers = s.keepers := rfl
@[simp] theorem State.lower_modems (s : State) (a : Nat) (f : Fld) : (s.lower a f).modems = s.modems := rfl
@[simp] theorem State.lower_lanes (s : State) (a : Nat) (f : Fld) : (s.lower a f).lanes = s.lanes := rfl
@[simp] theorem State.lower_actQueue (s : State) (a : Nat) (f : Fld) : (s.lower a f).actQueue = s.actQueue := rfl
@[simp] theorem State.lower_engBusy (s : State) (a : Nat) (f : Fld) : (s.lower a f).engBusy = s.engBusy := rfl
@[simp] theorem State.lower_keeperCore (s : State) (a : Nat) (f : Fld) : (s.lower a f).keeperCore = s.keeperCore := rfl
@[simp] theorem State.lower_od (s : State) (a : Nat) (f : Fld) : (s.lower a f).od = s.od := rfl
@[simp] theorem State.lower_trunks (s : State) (a : Nat) (f : Fld) : (s.lower a f).trunks = s.trunks := rfl
@[simp] theorem State.lower_ring (s : State) (a : Nat) (f : Fld) : (s.lower a f).ring = s.ring := rfl
@[simp] theorem State.lower_wdtFrom (s : State) (a : Nat) (f : Fld) : (s.lower a f).wdtFrom = s.wdtFrom := rfl
@[simp] theorem State.lower_pwr (s : State) (a : Nat) (f : Fld) : (s.lower a f).pwr = s.pwr := rfl
@[simp] theorem State.lower_tether (s : State) (a : Nat) (f : Fld) : (s.lower a f).tether = s.tether := rfl
@[simp] theorem State.lower_freeN (s : State) (a : Nat) (f : Fld) : (s.lower a f).freeN = s.freeN := rfl

/-! ### setFlag -/

@[simp] theorem State.setFlag_pending (s : State) (a : Nat) (f : Fld) (b : Bool) : (s.setFlag a f b).pending = s.pending := rfl
@[simp] theorem State.setFlag_sram (s : State) (a : Nat) (f : Fld) (b : Bool) : (s.setFlag a f b).sram = s.sram := rfl
@[simp] theorem State.setFlag_sramEpoch (s : State) (a : Nat) (f : Fld) (b : Bool) : (s.setFlag a f b).sramEpoch = s.sramEpoch := rfl
@[simp] theorem State.setFlag_fuses (s : State) (a : Nat) (f : Fld) (b : Bool) : (s.setFlag a f b).fuses = s.fuses := rfl
@[simp] theorem State.setFlag_ck (s : State) (a : Nat) (f : Fld) (b : Bool) : (s.setFlag a f b).ck = s.ck := rfl
@[simp] theorem State.setFlag_time (s : State) (a : Nat) (f : Fld) (b : Bool) : (s.setFlag a f b).time = s.time := rfl
@[simp] theorem State.setFlag_tbValid (s : State) (a : Nat) (f : Fld) (b : Bool) : (s.setFlag a f b).tbValid = s.tbValid := rfl
@[simp] theorem State.setFlag_tbLoad (s : State) (a : Nat) (f : Fld) (b : Bool) : (s.setFlag a f b).tbLoad = s.tbLoad := rfl
@[simp] theorem State.setFlag_timers (s : State) (a : Nat) (f : Fld) (b : Bool) : (s.setFlag a f b).timers = s.timers := rfl
@[simp] theorem State.setFlag_hostData (s : State) (a : Nat) (f : Fld) (b : Bool) : (s.setFlag a f b).hostData = s.hostData := rfl
@[simp] theorem State.setFlag_hostStat (s : State) (a : Nat) (f : Fld) (b : Bool) : (s.setFlag a f b).hostStat = s.hostStat := rfl
@[simp] theorem State.setFlag_latches (s : State) (a : Nat) (f : Fld) (b : Bool) : (s.setFlag a f b).latches = s.latches := rfl
@[simp] theorem State.setFlag_hostNo (s : State) (a : Nat) (f : Fld) (b : Bool) : (s.setFlag a f b).hostNo = s.hostNo := rfl
@[simp] theorem State.setFlag_guardKey (s : State) (a : Nat) (f : Fld) (b : Bool) : (s.setFlag a f b).guardKey = s.guardKey := rfl
@[simp] theorem State.setFlag_testKey (s : State) (a : Nat) (f : Fld) (b : Bool) : (s.setFlag a f b).testKey = s.testKey := rfl
@[simp] theorem State.setFlag_testEn (s : State) (a : Nat) (f : Fld) (b : Bool) : (s.setFlag a f b).testEn = s.testEn := rfl
@[simp] theorem State.setFlag_linkFails (s : State) (a : Nat) (f : Fld) (b : Bool) : (s.setFlag a f b).linkFails = s.linkFails := rfl
@[simp] theorem State.setFlag_linkDown (s : State) (a : Nat) (f : Fld) (b : Bool) : (s.setFlag a f b).linkDown = s.linkDown := rfl
@[simp] theorem State.setFlag_ckLost (s : State) (a : Nat) (f : Fld) (b : Bool) : (s.setFlag a f b).ckLost = s.ckLost := rfl
@[simp] theorem State.setFlag_late (s : State) (a : Nat) (f : Fld) (b : Bool) : (s.setFlag a f b).late = s.late := rfl
@[simp] theorem State.setFlag_commitReq (s : State) (a : Nat) (f : Fld) (b : Bool) : (s.setFlag a f b).commitReq = s.commitReq := rfl
@[simp] theorem State.setFlag_commitRun (s : State) (a : Nat) (f : Fld) (b : Bool) : (s.setFlag a f b).commitRun = s.commitRun := rfl
@[simp] theorem State.setFlag_gridAt (s : State) (a : Nat) (f : Fld) (b : Bool) : (s.setFlag a f b).gridAt = s.gridAt := rfl
@[simp] theorem State.setFlag_timeAt (s : State) (a : Nat) (f : Fld) (b : Bool) : (s.setFlag a f b).timeAt = s.timeAt := rfl
@[simp] theorem State.setFlag_jumps (s : State) (a : Nat) (f : Fld) (b : Bool) : (s.setFlag a f b).jumps = s.jumps := rfl
@[simp] theorem State.setFlag_refCrc (s : State) (a : Nat) (f : Fld) (b : Bool) : (s.setFlag a f b).refCrc = s.refCrc := rfl
@[simp] theorem State.setFlag_tick (s : State) (a : Nat) (f : Fld) (b : Bool) : (s.setFlag a f b).tick = s.tick := rfl
@[simp] theorem State.setFlag_tickAt (s : State) (a : Nat) (f : Fld) (b : Bool) : (s.setFlag a f b).tickAt = s.tickAt := rfl
@[simp] theorem State.setFlag_logMem (s : State) (a : Nat) (f : Fld) (b : Bool) : (s.setFlag a f b).logMem = s.logMem := rfl
@[simp] theorem State.setFlag_logSeq (s : State) (a : Nat) (f : Fld) (b : Bool) : (s.setFlag a f b).logSeq = s.logSeq := rfl
@[simp] theorem State.setFlag_offCount (s : State) (a : Nat) (f : Fld) (b : Bool) : (s.setFlag a f b).offCount = s.offCount := rfl
@[simp] theorem State.setFlag_offLast (s : State) (a : Nat) (f : Fld) (b : Bool) : (s.setFlag a f b).offLast = s.offLast := rfl
@[simp] theorem State.setFlag_retryCount (s : State) (a : Nat) (f : Fld) (b : Bool) : (s.setFlag a f b).retryCount = s.retryCount := rfl
@[simp] theorem State.setFlag_retryLast (s : State) (a : Nat) (f : Fld) (b : Bool) : (s.setFlag a f b).retryLast = s.retryLast := rfl
@[simp] theorem State.setFlag_spoolSet (s : State) (a : Nat) (f : Fld) (b : Bool) : (s.setFlag a f b).spoolSet = s.spoolSet := rfl
@[simp] theorem State.setFlag_spoolRst (s : State) (a : Nat) (f : Fld) (b : Bool) : (s.setFlag a f b).spoolRst = s.spoolRst := rfl
@[simp] theorem State.setFlag_seqReg (s : State) (a : Nat) (f : Fld) (b : Bool) : (s.setFlag a f b).seqReg = s.seqReg := rfl
@[simp] theorem State.setFlag_seqInj (s : State) (a : Nat) (f : Fld) (b : Bool) : (s.setFlag a f b).seqInj = s.seqInj := rfl
@[simp] theorem State.setFlag_seqLoop (s : State) (a : Nat) (f : Fld) (b : Bool) : (s.setFlag a f b).seqLoop = s.seqLoop := rfl
@[simp] theorem State.setFlag_seqRec (s : State) (a : Nat) (f : Fld) (b : Bool) : (s.setFlag a f b).seqRec = s.seqRec := rfl
@[simp] theorem State.setFlag_slices (s : State) (a : Nat) (f : Fld) (b : Bool) : (s.setFlag a f b).slices = s.slices := rfl
@[simp] theorem State.setFlag_seq (s : State) (a : Nat) (f : Fld) (b : Bool) : (s.setFlag a f b).seq = s.seq := rfl
@[simp] theorem State.setFlag_inj (s : State) (a : Nat) (f : Fld) (b : Bool) : (s.setFlag a f b).inj = s.inj := rfl
@[simp] theorem State.setFlag_accs (s : State) (a : Nat) (f : Fld) (b : Bool) : (s.setFlag a f b).accs = s.accs := rfl
@[simp] theorem State.setFlag_newReg (s : State) (a : Nat) (f : Fld) (b : Bool) : (s.setFlag a f b).newReg = s.newReg := rfl
@[simp] theorem State.setFlag_newInj (s : State) (a : Nat) (f : Fld) (b : Bool) : (s.setFlag a f b).newInj = s.newInj := rfl
@[simp] theorem State.setFlag_mains (s : State) (a : Nat) (f : Fld) (b : Bool) : (s.setFlag a f b).mains = s.mains := rfl
@[simp] theorem State.setFlag_reel (s : State) (a : Nat) (f : Fld) (b : Bool) : (s.setFlag a f b).reel = s.reel := rfl
@[simp] theorem State.setFlag_cal (s : State) (a : Nat) (f : Fld) (b : Bool) : (s.setFlag a f b).cal = s.cal := rfl
@[simp] theorem State.setFlag_refSince (s : State) (a : Nat) (f : Fld) (b : Bool) : (s.setFlag a f b).refSince = s.refSince := rfl
@[simp] theorem State.setFlag_excMode (s : State) (a : Nat) (f : Fld) (b : Bool) : (s.setFlag a f b).excMode = s.excMode := rfl
@[simp] theorem State.setFlag_ports (s : State) (a : Nat) (f : Fld) (b : Bool) : (s.setFlag a f b).ports = s.ports := rfl
@[simp] theorem State.setFlag_keepers (s : State) (a : Nat) (f : Fld) (b : Bool) : (s.setFlag a f b).keepers = s.keepers := rfl
@[simp] theorem State.setFlag_modems (s : State) (a : Nat) (f : Fld) (b : Bool) : (s.setFlag a f b).modems = s.modems := rfl
@[simp] theorem State.setFlag_lanes (s : State) (a : Nat) (f : Fld) (b : Bool) : (s.setFlag a f b).lanes = s.lanes := rfl
@[simp] theorem State.setFlag_actQueue (s : State) (a : Nat) (f : Fld) (b : Bool) : (s.setFlag a f b).actQueue = s.actQueue := rfl
@[simp] theorem State.setFlag_engBusy (s : State) (a : Nat) (f : Fld) (b : Bool) : (s.setFlag a f b).engBusy = s.engBusy := rfl
@[simp] theorem State.setFlag_keeperCore (s : State) (a : Nat) (f : Fld) (b : Bool) : (s.setFlag a f b).keeperCore = s.keeperCore := rfl
@[simp] theorem State.setFlag_od (s : State) (a : Nat) (f : Fld) (b : Bool) : (s.setFlag a f b).od = s.od := rfl
@[simp] theorem State.setFlag_trunks (s : State) (a : Nat) (f : Fld) (b : Bool) : (s.setFlag a f b).trunks = s.trunks := rfl
@[simp] theorem State.setFlag_ring (s : State) (a : Nat) (f : Fld) (b : Bool) : (s.setFlag a f b).ring = s.ring := rfl
@[simp] theorem State.setFlag_wdtFrom (s : State) (a : Nat) (f : Fld) (b : Bool) : (s.setFlag a f b).wdtFrom = s.wdtFrom := rfl
@[simp] theorem State.setFlag_pwr (s : State) (a : Nat) (f : Fld) (b : Bool) : (s.setFlag a f b).pwr = s.pwr := rfl
@[simp] theorem State.setFlag_tether (s : State) (a : Nat) (f : Fld) (b : Bool) : (s.setFlag a f b).tether = s.tether := rfl
@[simp] theorem State.setFlag_freeN (s : State) (a : Nat) (f : Fld) (b : Bool) : (s.setFlag a f b).freeN = s.freeN := rfl

/-! ### A counter -/

@[simp] theorem State.count_pending (s : State) (a ev n : Nat) (sat : Fld) : (s.count a ev sat n).pending = s.pending := by
  obtain ⟨r, h⟩ := State.count_frame s a ev n sat
  rw [h]
@[simp] theorem State.count_sram (s : State) (a ev n : Nat) (sat : Fld) : (s.count a ev sat n).sram = s.sram := by
  obtain ⟨r, h⟩ := State.count_frame s a ev n sat
  rw [h]
@[simp] theorem State.count_sramEpoch (s : State) (a ev n : Nat) (sat : Fld) : (s.count a ev sat n).sramEpoch = s.sramEpoch := by
  obtain ⟨r, h⟩ := State.count_frame s a ev n sat
  rw [h]
@[simp] theorem State.count_fuses (s : State) (a ev n : Nat) (sat : Fld) : (s.count a ev sat n).fuses = s.fuses := by
  obtain ⟨r, h⟩ := State.count_frame s a ev n sat
  rw [h]
@[simp] theorem State.count_ck (s : State) (a ev n : Nat) (sat : Fld) : (s.count a ev sat n).ck = s.ck := by
  obtain ⟨r, h⟩ := State.count_frame s a ev n sat
  rw [h]
@[simp] theorem State.count_time (s : State) (a ev n : Nat) (sat : Fld) : (s.count a ev sat n).time = s.time := by
  obtain ⟨r, h⟩ := State.count_frame s a ev n sat
  rw [h]
@[simp] theorem State.count_tbValid (s : State) (a ev n : Nat) (sat : Fld) : (s.count a ev sat n).tbValid = s.tbValid := by
  obtain ⟨r, h⟩ := State.count_frame s a ev n sat
  rw [h]
@[simp] theorem State.count_tbLoad (s : State) (a ev n : Nat) (sat : Fld) : (s.count a ev sat n).tbLoad = s.tbLoad := by
  obtain ⟨r, h⟩ := State.count_frame s a ev n sat
  rw [h]
@[simp] theorem State.count_timers (s : State) (a ev n : Nat) (sat : Fld) : (s.count a ev sat n).timers = s.timers := by
  obtain ⟨r, h⟩ := State.count_frame s a ev n sat
  rw [h]
@[simp] theorem State.count_hostData (s : State) (a ev n : Nat) (sat : Fld) : (s.count a ev sat n).hostData = s.hostData := by
  obtain ⟨r, h⟩ := State.count_frame s a ev n sat
  rw [h]
@[simp] theorem State.count_hostStat (s : State) (a ev n : Nat) (sat : Fld) : (s.count a ev sat n).hostStat = s.hostStat := by
  obtain ⟨r, h⟩ := State.count_frame s a ev n sat
  rw [h]
@[simp] theorem State.count_latches (s : State) (a ev n : Nat) (sat : Fld) : (s.count a ev sat n).latches = s.latches := by
  obtain ⟨r, h⟩ := State.count_frame s a ev n sat
  rw [h]
@[simp] theorem State.count_hostNo (s : State) (a ev n : Nat) (sat : Fld) : (s.count a ev sat n).hostNo = s.hostNo := by
  obtain ⟨r, h⟩ := State.count_frame s a ev n sat
  rw [h]
@[simp] theorem State.count_guardKey (s : State) (a ev n : Nat) (sat : Fld) : (s.count a ev sat n).guardKey = s.guardKey := by
  obtain ⟨r, h⟩ := State.count_frame s a ev n sat
  rw [h]
@[simp] theorem State.count_testKey (s : State) (a ev n : Nat) (sat : Fld) : (s.count a ev sat n).testKey = s.testKey := by
  obtain ⟨r, h⟩ := State.count_frame s a ev n sat
  rw [h]
@[simp] theorem State.count_testEn (s : State) (a ev n : Nat) (sat : Fld) : (s.count a ev sat n).testEn = s.testEn := by
  obtain ⟨r, h⟩ := State.count_frame s a ev n sat
  rw [h]
@[simp] theorem State.count_linkFails (s : State) (a ev n : Nat) (sat : Fld) : (s.count a ev sat n).linkFails = s.linkFails := by
  obtain ⟨r, h⟩ := State.count_frame s a ev n sat
  rw [h]
@[simp] theorem State.count_linkDown (s : State) (a ev n : Nat) (sat : Fld) : (s.count a ev sat n).linkDown = s.linkDown := by
  obtain ⟨r, h⟩ := State.count_frame s a ev n sat
  rw [h]
@[simp] theorem State.count_ckLost (s : State) (a ev n : Nat) (sat : Fld) : (s.count a ev sat n).ckLost = s.ckLost := by
  obtain ⟨r, h⟩ := State.count_frame s a ev n sat
  rw [h]
@[simp] theorem State.count_late (s : State) (a ev n : Nat) (sat : Fld) : (s.count a ev sat n).late = s.late := by
  obtain ⟨r, h⟩ := State.count_frame s a ev n sat
  rw [h]
@[simp] theorem State.count_commitReq (s : State) (a ev n : Nat) (sat : Fld) : (s.count a ev sat n).commitReq = s.commitReq := by
  obtain ⟨r, h⟩ := State.count_frame s a ev n sat
  rw [h]
@[simp] theorem State.count_commitRun (s : State) (a ev n : Nat) (sat : Fld) : (s.count a ev sat n).commitRun = s.commitRun := by
  obtain ⟨r, h⟩ := State.count_frame s a ev n sat
  rw [h]
@[simp] theorem State.count_gridAt (s : State) (a ev n : Nat) (sat : Fld) : (s.count a ev sat n).gridAt = s.gridAt := by
  obtain ⟨r, h⟩ := State.count_frame s a ev n sat
  rw [h]
@[simp] theorem State.count_timeAt (s : State) (a ev n : Nat) (sat : Fld) : (s.count a ev sat n).timeAt = s.timeAt := by
  obtain ⟨r, h⟩ := State.count_frame s a ev n sat
  rw [h]
@[simp] theorem State.count_jumps (s : State) (a ev n : Nat) (sat : Fld) : (s.count a ev sat n).jumps = s.jumps := by
  obtain ⟨r, h⟩ := State.count_frame s a ev n sat
  rw [h]
@[simp] theorem State.count_refCrc (s : State) (a ev n : Nat) (sat : Fld) : (s.count a ev sat n).refCrc = s.refCrc := by
  obtain ⟨r, h⟩ := State.count_frame s a ev n sat
  rw [h]
@[simp] theorem State.count_tick (s : State) (a ev n : Nat) (sat : Fld) : (s.count a ev sat n).tick = s.tick := by
  obtain ⟨r, h⟩ := State.count_frame s a ev n sat
  rw [h]
@[simp] theorem State.count_tickAt (s : State) (a ev n : Nat) (sat : Fld) : (s.count a ev sat n).tickAt = s.tickAt := by
  obtain ⟨r, h⟩ := State.count_frame s a ev n sat
  rw [h]
@[simp] theorem State.count_logMem (s : State) (a ev n : Nat) (sat : Fld) : (s.count a ev sat n).logMem = s.logMem := by
  obtain ⟨r, h⟩ := State.count_frame s a ev n sat
  rw [h]
@[simp] theorem State.count_logSeq (s : State) (a ev n : Nat) (sat : Fld) : (s.count a ev sat n).logSeq = s.logSeq := by
  obtain ⟨r, h⟩ := State.count_frame s a ev n sat
  rw [h]
@[simp] theorem State.count_offCount (s : State) (a ev n : Nat) (sat : Fld) : (s.count a ev sat n).offCount = s.offCount := by
  obtain ⟨r, h⟩ := State.count_frame s a ev n sat
  rw [h]
@[simp] theorem State.count_offLast (s : State) (a ev n : Nat) (sat : Fld) : (s.count a ev sat n).offLast = s.offLast := by
  obtain ⟨r, h⟩ := State.count_frame s a ev n sat
  rw [h]
@[simp] theorem State.count_retryCount (s : State) (a ev n : Nat) (sat : Fld) : (s.count a ev sat n).retryCount = s.retryCount := by
  obtain ⟨r, h⟩ := State.count_frame s a ev n sat
  rw [h]
@[simp] theorem State.count_retryLast (s : State) (a ev n : Nat) (sat : Fld) : (s.count a ev sat n).retryLast = s.retryLast := by
  obtain ⟨r, h⟩ := State.count_frame s a ev n sat
  rw [h]
@[simp] theorem State.count_spoolSet (s : State) (a ev n : Nat) (sat : Fld) : (s.count a ev sat n).spoolSet = s.spoolSet := by
  obtain ⟨r, h⟩ := State.count_frame s a ev n sat
  rw [h]
@[simp] theorem State.count_spoolRst (s : State) (a ev n : Nat) (sat : Fld) : (s.count a ev sat n).spoolRst = s.spoolRst := by
  obtain ⟨r, h⟩ := State.count_frame s a ev n sat
  rw [h]
@[simp] theorem State.count_seqReg (s : State) (a ev n : Nat) (sat : Fld) : (s.count a ev sat n).seqReg = s.seqReg := by
  obtain ⟨r, h⟩ := State.count_frame s a ev n sat
  rw [h]
@[simp] theorem State.count_seqInj (s : State) (a ev n : Nat) (sat : Fld) : (s.count a ev sat n).seqInj = s.seqInj := by
  obtain ⟨r, h⟩ := State.count_frame s a ev n sat
  rw [h]
@[simp] theorem State.count_seqLoop (s : State) (a ev n : Nat) (sat : Fld) : (s.count a ev sat n).seqLoop = s.seqLoop := by
  obtain ⟨r, h⟩ := State.count_frame s a ev n sat
  rw [h]
@[simp] theorem State.count_seqRec (s : State) (a ev n : Nat) (sat : Fld) : (s.count a ev sat n).seqRec = s.seqRec := by
  obtain ⟨r, h⟩ := State.count_frame s a ev n sat
  rw [h]
@[simp] theorem State.count_slices (s : State) (a ev n : Nat) (sat : Fld) : (s.count a ev sat n).slices = s.slices := by
  obtain ⟨r, h⟩ := State.count_frame s a ev n sat
  rw [h]
@[simp] theorem State.count_seq (s : State) (a ev n : Nat) (sat : Fld) : (s.count a ev sat n).seq = s.seq := by
  obtain ⟨r, h⟩ := State.count_frame s a ev n sat
  rw [h]
@[simp] theorem State.count_inj (s : State) (a ev n : Nat) (sat : Fld) : (s.count a ev sat n).inj = s.inj := by
  obtain ⟨r, h⟩ := State.count_frame s a ev n sat
  rw [h]
@[simp] theorem State.count_accs (s : State) (a ev n : Nat) (sat : Fld) : (s.count a ev sat n).accs = s.accs := by
  obtain ⟨r, h⟩ := State.count_frame s a ev n sat
  rw [h]
@[simp] theorem State.count_newReg (s : State) (a ev n : Nat) (sat : Fld) : (s.count a ev sat n).newReg = s.newReg := by
  obtain ⟨r, h⟩ := State.count_frame s a ev n sat
  rw [h]
@[simp] theorem State.count_newInj (s : State) (a ev n : Nat) (sat : Fld) : (s.count a ev sat n).newInj = s.newInj := by
  obtain ⟨r, h⟩ := State.count_frame s a ev n sat
  rw [h]
@[simp] theorem State.count_mains (s : State) (a ev n : Nat) (sat : Fld) : (s.count a ev sat n).mains = s.mains := by
  obtain ⟨r, h⟩ := State.count_frame s a ev n sat
  rw [h]
@[simp] theorem State.count_reel (s : State) (a ev n : Nat) (sat : Fld) : (s.count a ev sat n).reel = s.reel := by
  obtain ⟨r, h⟩ := State.count_frame s a ev n sat
  rw [h]
@[simp] theorem State.count_cal (s : State) (a ev n : Nat) (sat : Fld) : (s.count a ev sat n).cal = s.cal := by
  obtain ⟨r, h⟩ := State.count_frame s a ev n sat
  rw [h]
@[simp] theorem State.count_refSince (s : State) (a ev n : Nat) (sat : Fld) : (s.count a ev sat n).refSince = s.refSince := by
  obtain ⟨r, h⟩ := State.count_frame s a ev n sat
  rw [h]
@[simp] theorem State.count_excMode (s : State) (a ev n : Nat) (sat : Fld) : (s.count a ev sat n).excMode = s.excMode := by
  obtain ⟨r, h⟩ := State.count_frame s a ev n sat
  rw [h]
@[simp] theorem State.count_ports (s : State) (a ev n : Nat) (sat : Fld) : (s.count a ev sat n).ports = s.ports := by
  obtain ⟨r, h⟩ := State.count_frame s a ev n sat
  rw [h]
@[simp] theorem State.count_keepers (s : State) (a ev n : Nat) (sat : Fld) : (s.count a ev sat n).keepers = s.keepers := by
  obtain ⟨r, h⟩ := State.count_frame s a ev n sat
  rw [h]
@[simp] theorem State.count_modems (s : State) (a ev n : Nat) (sat : Fld) : (s.count a ev sat n).modems = s.modems := by
  obtain ⟨r, h⟩ := State.count_frame s a ev n sat
  rw [h]
@[simp] theorem State.count_lanes (s : State) (a ev n : Nat) (sat : Fld) : (s.count a ev sat n).lanes = s.lanes := by
  obtain ⟨r, h⟩ := State.count_frame s a ev n sat
  rw [h]
@[simp] theorem State.count_actQueue (s : State) (a ev n : Nat) (sat : Fld) : (s.count a ev sat n).actQueue = s.actQueue := by
  obtain ⟨r, h⟩ := State.count_frame s a ev n sat
  rw [h]
@[simp] theorem State.count_engBusy (s : State) (a ev n : Nat) (sat : Fld) : (s.count a ev sat n).engBusy = s.engBusy := by
  obtain ⟨r, h⟩ := State.count_frame s a ev n sat
  rw [h]
@[simp] theorem State.count_keeperCore (s : State) (a ev n : Nat) (sat : Fld) : (s.count a ev sat n).keeperCore = s.keeperCore := by
  obtain ⟨r, h⟩ := State.count_frame s a ev n sat
  rw [h]
@[simp] theorem State.count_od (s : State) (a ev n : Nat) (sat : Fld) : (s.count a ev sat n).od = s.od := by
  obtain ⟨r, h⟩ := State.count_frame s a ev n sat
  rw [h]
@[simp] theorem State.count_trunks (s : State) (a ev n : Nat) (sat : Fld) : (s.count a ev sat n).trunks = s.trunks := by
  obtain ⟨r, h⟩ := State.count_frame s a ev n sat
  rw [h]
@[simp] theorem State.count_ring (s : State) (a ev n : Nat) (sat : Fld) : (s.count a ev sat n).ring = s.ring := by
  obtain ⟨r, h⟩ := State.count_frame s a ev n sat
  rw [h]
@[simp] theorem State.count_wdtFrom (s : State) (a ev n : Nat) (sat : Fld) : (s.count a ev sat n).wdtFrom = s.wdtFrom := by
  obtain ⟨r, h⟩ := State.count_frame s a ev n sat
  rw [h]
@[simp] theorem State.count_pwr (s : State) (a ev n : Nat) (sat : Fld) : (s.count a ev sat n).pwr = s.pwr := by
  obtain ⟨r, h⟩ := State.count_frame s a ev n sat
  rw [h]
@[simp] theorem State.count_tether (s : State) (a ev n : Nat) (sat : Fld) : (s.count a ev sat n).tether = s.tether := by
  obtain ⟨r, h⟩ := State.count_frame s a ev n sat
  rw [h]
@[simp] theorem State.count_freeN (s : State) (a ev n : Nat) (sat : Fld) : (s.count a ev sat n).freeN = s.freeN := by
  obtain ⟨r, h⟩ := State.count_frame s a ev n sat
  rw [h]

/-! ### A log entry -/

@[simp] theorem State.log_pending (s : State) (v : Sev) (c k i : Nat) (x y z : Word) : (s.log v c k i x y z).pending = s.pending := by
  obtain ⟨r, m, q, h⟩ := State.log_frame s v c k i x y z
  rw [h]
@[simp] theorem State.log_sram (s : State) (v : Sev) (c k i : Nat) (x y z : Word) : (s.log v c k i x y z).sram = s.sram := by
  obtain ⟨r, m, q, h⟩ := State.log_frame s v c k i x y z
  rw [h]
@[simp] theorem State.log_sramEpoch (s : State) (v : Sev) (c k i : Nat) (x y z : Word) : (s.log v c k i x y z).sramEpoch = s.sramEpoch := by
  obtain ⟨r, m, q, h⟩ := State.log_frame s v c k i x y z
  rw [h]
@[simp] theorem State.log_fuses (s : State) (v : Sev) (c k i : Nat) (x y z : Word) : (s.log v c k i x y z).fuses = s.fuses := by
  obtain ⟨r, m, q, h⟩ := State.log_frame s v c k i x y z
  rw [h]
@[simp] theorem State.log_ck (s : State) (v : Sev) (c k i : Nat) (x y z : Word) : (s.log v c k i x y z).ck = s.ck := by
  obtain ⟨r, m, q, h⟩ := State.log_frame s v c k i x y z
  rw [h]
@[simp] theorem State.log_time (s : State) (v : Sev) (c k i : Nat) (x y z : Word) : (s.log v c k i x y z).time = s.time := by
  obtain ⟨r, m, q, h⟩ := State.log_frame s v c k i x y z
  rw [h]
@[simp] theorem State.log_tbValid (s : State) (v : Sev) (c k i : Nat) (x y z : Word) : (s.log v c k i x y z).tbValid = s.tbValid := by
  obtain ⟨r, m, q, h⟩ := State.log_frame s v c k i x y z
  rw [h]
@[simp] theorem State.log_tbLoad (s : State) (v : Sev) (c k i : Nat) (x y z : Word) : (s.log v c k i x y z).tbLoad = s.tbLoad := by
  obtain ⟨r, m, q, h⟩ := State.log_frame s v c k i x y z
  rw [h]
@[simp] theorem State.log_timers (s : State) (v : Sev) (c k i : Nat) (x y z : Word) : (s.log v c k i x y z).timers = s.timers := by
  obtain ⟨r, m, q, h⟩ := State.log_frame s v c k i x y z
  rw [h]
@[simp] theorem State.log_hostData (s : State) (v : Sev) (c k i : Nat) (x y z : Word) : (s.log v c k i x y z).hostData = s.hostData := by
  obtain ⟨r, m, q, h⟩ := State.log_frame s v c k i x y z
  rw [h]
@[simp] theorem State.log_hostStat (s : State) (v : Sev) (c k i : Nat) (x y z : Word) : (s.log v c k i x y z).hostStat = s.hostStat := by
  obtain ⟨r, m, q, h⟩ := State.log_frame s v c k i x y z
  rw [h]
@[simp] theorem State.log_latches (s : State) (v : Sev) (c k i : Nat) (x y z : Word) : (s.log v c k i x y z).latches = s.latches := by
  obtain ⟨r, m, q, h⟩ := State.log_frame s v c k i x y z
  rw [h]
@[simp] theorem State.log_hostNo (s : State) (v : Sev) (c k i : Nat) (x y z : Word) : (s.log v c k i x y z).hostNo = s.hostNo := by
  obtain ⟨r, m, q, h⟩ := State.log_frame s v c k i x y z
  rw [h]
@[simp] theorem State.log_guardKey (s : State) (v : Sev) (c k i : Nat) (x y z : Word) : (s.log v c k i x y z).guardKey = s.guardKey := by
  obtain ⟨r, m, q, h⟩ := State.log_frame s v c k i x y z
  rw [h]
@[simp] theorem State.log_testKey (s : State) (v : Sev) (c k i : Nat) (x y z : Word) : (s.log v c k i x y z).testKey = s.testKey := by
  obtain ⟨r, m, q, h⟩ := State.log_frame s v c k i x y z
  rw [h]
@[simp] theorem State.log_testEn (s : State) (v : Sev) (c k i : Nat) (x y z : Word) : (s.log v c k i x y z).testEn = s.testEn := by
  obtain ⟨r, m, q, h⟩ := State.log_frame s v c k i x y z
  rw [h]
@[simp] theorem State.log_linkFails (s : State) (v : Sev) (c k i : Nat) (x y z : Word) : (s.log v c k i x y z).linkFails = s.linkFails := by
  obtain ⟨r, m, q, h⟩ := State.log_frame s v c k i x y z
  rw [h]
@[simp] theorem State.log_linkDown (s : State) (v : Sev) (c k i : Nat) (x y z : Word) : (s.log v c k i x y z).linkDown = s.linkDown := by
  obtain ⟨r, m, q, h⟩ := State.log_frame s v c k i x y z
  rw [h]
@[simp] theorem State.log_ckLost (s : State) (v : Sev) (c k i : Nat) (x y z : Word) : (s.log v c k i x y z).ckLost = s.ckLost := by
  obtain ⟨r, m, q, h⟩ := State.log_frame s v c k i x y z
  rw [h]
@[simp] theorem State.log_late (s : State) (v : Sev) (c k i : Nat) (x y z : Word) : (s.log v c k i x y z).late = s.late := by
  obtain ⟨r, m, q, h⟩ := State.log_frame s v c k i x y z
  rw [h]
@[simp] theorem State.log_commitReq (s : State) (v : Sev) (c k i : Nat) (x y z : Word) : (s.log v c k i x y z).commitReq = s.commitReq := by
  obtain ⟨r, m, q, h⟩ := State.log_frame s v c k i x y z
  rw [h]
@[simp] theorem State.log_commitRun (s : State) (v : Sev) (c k i : Nat) (x y z : Word) : (s.log v c k i x y z).commitRun = s.commitRun := by
  obtain ⟨r, m, q, h⟩ := State.log_frame s v c k i x y z
  rw [h]
@[simp] theorem State.log_gridAt (s : State) (v : Sev) (c k i : Nat) (x y z : Word) : (s.log v c k i x y z).gridAt = s.gridAt := by
  obtain ⟨r, m, q, h⟩ := State.log_frame s v c k i x y z
  rw [h]
@[simp] theorem State.log_timeAt (s : State) (v : Sev) (c k i : Nat) (x y z : Word) : (s.log v c k i x y z).timeAt = s.timeAt := by
  obtain ⟨r, m, q, h⟩ := State.log_frame s v c k i x y z
  rw [h]
@[simp] theorem State.log_jumps (s : State) (v : Sev) (c k i : Nat) (x y z : Word) : (s.log v c k i x y z).jumps = s.jumps := by
  obtain ⟨r, m, q, h⟩ := State.log_frame s v c k i x y z
  rw [h]
@[simp] theorem State.log_refCrc (s : State) (v : Sev) (c k i : Nat) (x y z : Word) : (s.log v c k i x y z).refCrc = s.refCrc := by
  obtain ⟨r, m, q, h⟩ := State.log_frame s v c k i x y z
  rw [h]
@[simp] theorem State.log_tick (s : State) (v : Sev) (c k i : Nat) (x y z : Word) : (s.log v c k i x y z).tick = s.tick := by
  obtain ⟨r, m, q, h⟩ := State.log_frame s v c k i x y z
  rw [h]
@[simp] theorem State.log_tickAt (s : State) (v : Sev) (c k i : Nat) (x y z : Word) : (s.log v c k i x y z).tickAt = s.tickAt := by
  obtain ⟨r, m, q, h⟩ := State.log_frame s v c k i x y z
  rw [h]
@[simp] theorem State.log_offCount (s : State) (v : Sev) (c k i : Nat) (x y z : Word) : (s.log v c k i x y z).offCount = s.offCount := by
  obtain ⟨r, m, q, h⟩ := State.log_frame s v c k i x y z
  rw [h]
@[simp] theorem State.log_offLast (s : State) (v : Sev) (c k i : Nat) (x y z : Word) : (s.log v c k i x y z).offLast = s.offLast := by
  obtain ⟨r, m, q, h⟩ := State.log_frame s v c k i x y z
  rw [h]
@[simp] theorem State.log_retryCount (s : State) (v : Sev) (c k i : Nat) (x y z : Word) : (s.log v c k i x y z).retryCount = s.retryCount := by
  obtain ⟨r, m, q, h⟩ := State.log_frame s v c k i x y z
  rw [h]
@[simp] theorem State.log_retryLast (s : State) (v : Sev) (c k i : Nat) (x y z : Word) : (s.log v c k i x y z).retryLast = s.retryLast := by
  obtain ⟨r, m, q, h⟩ := State.log_frame s v c k i x y z
  rw [h]
@[simp] theorem State.log_spoolSet (s : State) (v : Sev) (c k i : Nat) (x y z : Word) : (s.log v c k i x y z).spoolSet = s.spoolSet := by
  obtain ⟨r, m, q, h⟩ := State.log_frame s v c k i x y z
  rw [h]
@[simp] theorem State.log_spoolRst (s : State) (v : Sev) (c k i : Nat) (x y z : Word) : (s.log v c k i x y z).spoolRst = s.spoolRst := by
  obtain ⟨r, m, q, h⟩ := State.log_frame s v c k i x y z
  rw [h]
@[simp] theorem State.log_seqReg (s : State) (v : Sev) (c k i : Nat) (x y z : Word) : (s.log v c k i x y z).seqReg = s.seqReg := by
  obtain ⟨r, m, q, h⟩ := State.log_frame s v c k i x y z
  rw [h]
@[simp] theorem State.log_seqInj (s : State) (v : Sev) (c k i : Nat) (x y z : Word) : (s.log v c k i x y z).seqInj = s.seqInj := by
  obtain ⟨r, m, q, h⟩ := State.log_frame s v c k i x y z
  rw [h]
@[simp] theorem State.log_seqLoop (s : State) (v : Sev) (c k i : Nat) (x y z : Word) : (s.log v c k i x y z).seqLoop = s.seqLoop := by
  obtain ⟨r, m, q, h⟩ := State.log_frame s v c k i x y z
  rw [h]
@[simp] theorem State.log_seqRec (s : State) (v : Sev) (c k i : Nat) (x y z : Word) : (s.log v c k i x y z).seqRec = s.seqRec := by
  obtain ⟨r, m, q, h⟩ := State.log_frame s v c k i x y z
  rw [h]
@[simp] theorem State.log_slices (s : State) (v : Sev) (c k i : Nat) (x y z : Word) : (s.log v c k i x y z).slices = s.slices := by
  obtain ⟨r, m, q, h⟩ := State.log_frame s v c k i x y z
  rw [h]
@[simp] theorem State.log_seq (s : State) (v : Sev) (c k i : Nat) (x y z : Word) : (s.log v c k i x y z).seq = s.seq := by
  obtain ⟨r, m, q, h⟩ := State.log_frame s v c k i x y z
  rw [h]
@[simp] theorem State.log_inj (s : State) (v : Sev) (c k i : Nat) (x y z : Word) : (s.log v c k i x y z).inj = s.inj := by
  obtain ⟨r, m, q, h⟩ := State.log_frame s v c k i x y z
  rw [h]
@[simp] theorem State.log_accs (s : State) (v : Sev) (c k i : Nat) (x y z : Word) : (s.log v c k i x y z).accs = s.accs := by
  obtain ⟨r, m, q, h⟩ := State.log_frame s v c k i x y z
  rw [h]
@[simp] theorem State.log_newReg (s : State) (v : Sev) (c k i : Nat) (x y z : Word) : (s.log v c k i x y z).newReg = s.newReg := by
  obtain ⟨r, m, q, h⟩ := State.log_frame s v c k i x y z
  rw [h]
@[simp] theorem State.log_newInj (s : State) (v : Sev) (c k i : Nat) (x y z : Word) : (s.log v c k i x y z).newInj = s.newInj := by
  obtain ⟨r, m, q, h⟩ := State.log_frame s v c k i x y z
  rw [h]
@[simp] theorem State.log_mains (s : State) (v : Sev) (c k i : Nat) (x y z : Word) : (s.log v c k i x y z).mains = s.mains := by
  obtain ⟨r, m, q, h⟩ := State.log_frame s v c k i x y z
  rw [h]
@[simp] theorem State.log_reel (s : State) (v : Sev) (c k i : Nat) (x y z : Word) : (s.log v c k i x y z).reel = s.reel := by
  obtain ⟨r, m, q, h⟩ := State.log_frame s v c k i x y z
  rw [h]
@[simp] theorem State.log_cal (s : State) (v : Sev) (c k i : Nat) (x y z : Word) : (s.log v c k i x y z).cal = s.cal := by
  obtain ⟨r, m, q, h⟩ := State.log_frame s v c k i x y z
  rw [h]
@[simp] theorem State.log_refSince (s : State) (v : Sev) (c k i : Nat) (x y z : Word) : (s.log v c k i x y z).refSince = s.refSince := by
  obtain ⟨r, m, q, h⟩ := State.log_frame s v c k i x y z
  rw [h]
@[simp] theorem State.log_excMode (s : State) (v : Sev) (c k i : Nat) (x y z : Word) : (s.log v c k i x y z).excMode = s.excMode := by
  obtain ⟨r, m, q, h⟩ := State.log_frame s v c k i x y z
  rw [h]
@[simp] theorem State.log_ports (s : State) (v : Sev) (c k i : Nat) (x y z : Word) : (s.log v c k i x y z).ports = s.ports := by
  obtain ⟨r, m, q, h⟩ := State.log_frame s v c k i x y z
  rw [h]
@[simp] theorem State.log_keepers (s : State) (v : Sev) (c k i : Nat) (x y z : Word) : (s.log v c k i x y z).keepers = s.keepers := by
  obtain ⟨r, m, q, h⟩ := State.log_frame s v c k i x y z
  rw [h]
@[simp] theorem State.log_modems (s : State) (v : Sev) (c k i : Nat) (x y z : Word) : (s.log v c k i x y z).modems = s.modems := by
  obtain ⟨r, m, q, h⟩ := State.log_frame s v c k i x y z
  rw [h]
@[simp] theorem State.log_lanes (s : State) (v : Sev) (c k i : Nat) (x y z : Word) : (s.log v c k i x y z).lanes = s.lanes := by
  obtain ⟨r, m, q, h⟩ := State.log_frame s v c k i x y z
  rw [h]
@[simp] theorem State.log_actQueue (s : State) (v : Sev) (c k i : Nat) (x y z : Word) : (s.log v c k i x y z).actQueue = s.actQueue := by
  obtain ⟨r, m, q, h⟩ := State.log_frame s v c k i x y z
  rw [h]
@[simp] theorem State.log_engBusy (s : State) (v : Sev) (c k i : Nat) (x y z : Word) : (s.log v c k i x y z).engBusy = s.engBusy := by
  obtain ⟨r, m, q, h⟩ := State.log_frame s v c k i x y z
  rw [h]
@[simp] theorem State.log_keeperCore (s : State) (v : Sev) (c k i : Nat) (x y z : Word) : (s.log v c k i x y z).keeperCore = s.keeperCore := by
  obtain ⟨r, m, q, h⟩ := State.log_frame s v c k i x y z
  rw [h]
@[simp] theorem State.log_od (s : State) (v : Sev) (c k i : Nat) (x y z : Word) : (s.log v c k i x y z).od = s.od := by
  obtain ⟨r, m, q, h⟩ := State.log_frame s v c k i x y z
  rw [h]
@[simp] theorem State.log_trunks (s : State) (v : Sev) (c k i : Nat) (x y z : Word) : (s.log v c k i x y z).trunks = s.trunks := by
  obtain ⟨r, m, q, h⟩ := State.log_frame s v c k i x y z
  rw [h]
@[simp] theorem State.log_ring (s : State) (v : Sev) (c k i : Nat) (x y z : Word) : (s.log v c k i x y z).ring = s.ring := by
  obtain ⟨r, m, q, h⟩ := State.log_frame s v c k i x y z
  rw [h]
@[simp] theorem State.log_wdtFrom (s : State) (v : Sev) (c k i : Nat) (x y z : Word) : (s.log v c k i x y z).wdtFrom = s.wdtFrom := by
  obtain ⟨r, m, q, h⟩ := State.log_frame s v c k i x y z
  rw [h]
@[simp] theorem State.log_pwr (s : State) (v : Sev) (c k i : Nat) (x y z : Word) : (s.log v c k i x y z).pwr = s.pwr := by
  obtain ⟨r, m, q, h⟩ := State.log_frame s v c k i x y z
  rw [h]
@[simp] theorem State.log_tether (s : State) (v : Sev) (c k i : Nat) (x y z : Word) : (s.log v c k i x y z).tether = s.tether := by
  obtain ⟨r, m, q, h⟩ := State.log_frame s v c k i x y z
  rw [h]
@[simp] theorem State.log_freeN (s : State) (v : Sev) (c k i : Nat) (x y z : Word) : (s.log v c k i x y z).freeN = s.freeN := by
  obtain ⟨r, m, q, h⟩ := State.log_frame s v c k i x y z
  rw [h]

/-! ### Time -/

/-- What a count of TIME changes. -/
theorem State.countTo_frame (s : State) (n : Nat) : ∃ r t a, s.countTo n = { s with regs := r, time := t, timeAt := a } := by
  unfold State.countTo State.countTime
  dsimp only
  split
  · exact ⟨_, _, _, rfl⟩
  · exact ⟨_, _, _, rfl⟩

/-- What a captured load changes as it takes the place of a tick. -/
theorem State.loadDue_frame (s : State) (v : BitVec 64) (k : Nat) : ∃ r t a w l j g, s.loadDue v k =
    { s with regs := r, time := t, timeAt := a, tbValid := w, tbLoad := l, jumps := j, ring := g } := by
  unfold State.loadDue
  obtain ⟨r, t, a, h⟩ := State.countTo_frame s (k - 1)
  rw [h]
  exact ⟨_, _, _, _, _, _, _, rfl⟩

/-- What the passing of time changes. -/
theorem State.pass_frame (s : State) (n : Nat) : ∃ r c t a v l j g, s.pass n =
    { s with regs := r, ck := c, time := t, timeAt := a, tbValid := v, tbLoad := l, jumps := j, ring := g } := by
  unfold State.pass State.tickTo
  have plain (u : State) (m : Nat) := State.countTo_frame u m
  split
  · split
    · rename_i v due _ _
      obtain ⟨r, t, a, w, l, j, g, h⟩ := State.loadDue_frame s v (tickAfter due)
      obtain ⟨r', t', a', h'⟩ := plain (s.loadDue v (tickAfter due)) ((s.ck + n) / 16)
      rw [h', h]
      exact ⟨_, _, _, _, _, _, _, _, rfl⟩
    · obtain ⟨r', t', a', h'⟩ := plain s ((s.ck + n) / 16)
      rw [h']
      exact ⟨_, _, _, _, _, _, _, _, rfl⟩
  · obtain ⟨r', t', a', h'⟩ := plain s ((s.ck + n) / 16)
    rw [h']
    exact ⟨_, _, _, _, _, _, _, _, rfl⟩

/-- The same up to an instant. -/
theorem State.passTo_frame (s : State) (n : Nat) : ∃ r c t a v l j g, s.passTo n =
    { s with regs := r, ck := c, time := t, timeAt := a, tbValid := v, tbLoad := l, jumps := j, ring := g } := by
  unfold State.passTo
  split
  · exact State.pass_frame _ _
  · exact ⟨_, _, _, _, _, _, _, _, rfl⟩

@[simp] theorem State.pass_pending (s : State) (n : Nat) : (s.pass n).pending = s.pending := by
  obtain ⟨r, c, t, a, v, l, j, g, h⟩ := State.pass_frame s n
  rw [h]
@[simp] theorem State.pass_fuses (s : State) (n : Nat) : (s.pass n).fuses = s.fuses := by
  obtain ⟨r, c, t, a, v, l, j, g, h⟩ := State.pass_frame s n
  rw [h]
@[simp] theorem State.pass_timers (s : State) (n : Nat) : (s.pass n).timers = s.timers := by
  obtain ⟨r, c, t, a, v, l, j, g, h⟩ := State.pass_frame s n
  rw [h]
@[simp] theorem State.pass_hostData (s : State) (n : Nat) : (s.pass n).hostData = s.hostData := by
  obtain ⟨r, c, t, a, v, l, j, g, h⟩ := State.pass_frame s n
  rw [h]
@[simp] theorem State.pass_hostStat (s : State) (n : Nat) : (s.pass n).hostStat = s.hostStat := by
  obtain ⟨r, c, t, a, v, l, j, g, h⟩ := State.pass_frame s n
  rw [h]
@[simp] theorem State.pass_latches (s : State) (n : Nat) : (s.pass n).latches = s.latches := by
  obtain ⟨r, c, t, a, v, l, j, g, h⟩ := State.pass_frame s n
  rw [h]
@[simp] theorem State.pass_hostNo (s : State) (n : Nat) : (s.pass n).hostNo = s.hostNo := by
  obtain ⟨r, c, t, a, v, l, j, g, h⟩ := State.pass_frame s n
  rw [h]
@[simp] theorem State.pass_guardKey (s : State) (n : Nat) : (s.pass n).guardKey = s.guardKey := by
  obtain ⟨r, c, t, a, v, l, j, g, h⟩ := State.pass_frame s n
  rw [h]
@[simp] theorem State.pass_testKey (s : State) (n : Nat) : (s.pass n).testKey = s.testKey := by
  obtain ⟨r, c, t, a, v, l, j, g, h⟩ := State.pass_frame s n
  rw [h]
@[simp] theorem State.pass_testEn (s : State) (n : Nat) : (s.pass n).testEn = s.testEn := by
  obtain ⟨r, c, t, a, v, l, j, g, h⟩ := State.pass_frame s n
  rw [h]
@[simp] theorem State.pass_linkFails (s : State) (n : Nat) : (s.pass n).linkFails = s.linkFails := by
  obtain ⟨r, c, t, a, v, l, j, g, h⟩ := State.pass_frame s n
  rw [h]
@[simp] theorem State.pass_linkDown (s : State) (n : Nat) : (s.pass n).linkDown = s.linkDown := by
  obtain ⟨r, c, t, a, v, l, j, g, h⟩ := State.pass_frame s n
  rw [h]
@[simp] theorem State.pass_ckLost (s : State) (n : Nat) : (s.pass n).ckLost = s.ckLost := by
  obtain ⟨r, c, t, a, v, l, j, g, h⟩ := State.pass_frame s n
  rw [h]
@[simp] theorem State.pass_late (s : State) (n : Nat) : (s.pass n).late = s.late := by
  obtain ⟨r, c, t, a, v, l, j, g, h⟩ := State.pass_frame s n
  rw [h]
@[simp] theorem State.pass_commitReq (s : State) (n : Nat) : (s.pass n).commitReq = s.commitReq := by
  obtain ⟨r, c, t, a, v, l, j, g, h⟩ := State.pass_frame s n
  rw [h]
@[simp] theorem State.pass_commitRun (s : State) (n : Nat) : (s.pass n).commitRun = s.commitRun := by
  obtain ⟨r, c, t, a, v, l, j, g, h⟩ := State.pass_frame s n
  rw [h]
@[simp] theorem State.pass_gridAt (s : State) (n : Nat) : (s.pass n).gridAt = s.gridAt := by
  obtain ⟨r, c, t, a, v, l, j, g, h⟩ := State.pass_frame s n
  rw [h]
@[simp] theorem State.pass_refCrc (s : State) (n : Nat) : (s.pass n).refCrc = s.refCrc := by
  obtain ⟨r, c, t, a, v, l, j, g, h⟩ := State.pass_frame s n
  rw [h]
@[simp] theorem State.pass_tick (s : State) (n : Nat) : (s.pass n).tick = s.tick := by
  obtain ⟨r, c, t, a, v, l, j, g, h⟩ := State.pass_frame s n
  rw [h]
@[simp] theorem State.pass_tickAt (s : State) (n : Nat) : (s.pass n).tickAt = s.tickAt := by
  obtain ⟨r, c, t, a, v, l, j, g, h⟩ := State.pass_frame s n
  rw [h]
@[simp] theorem State.pass_logMem (s : State) (n : Nat) : (s.pass n).logMem = s.logMem := by
  obtain ⟨r, c, t, a, v, l, j, g, h⟩ := State.pass_frame s n
  rw [h]
@[simp] theorem State.pass_logSeq (s : State) (n : Nat) : (s.pass n).logSeq = s.logSeq := by
  obtain ⟨r, c, t, a, v, l, j, g, h⟩ := State.pass_frame s n
  rw [h]
@[simp] theorem State.pass_offCount (s : State) (n : Nat) : (s.pass n).offCount = s.offCount := by
  obtain ⟨r, c, t, a, v, l, j, g, h⟩ := State.pass_frame s n
  rw [h]
@[simp] theorem State.pass_offLast (s : State) (n : Nat) : (s.pass n).offLast = s.offLast := by
  obtain ⟨r, c, t, a, v, l, j, g, h⟩ := State.pass_frame s n
  rw [h]
@[simp] theorem State.pass_retryCount (s : State) (n : Nat) : (s.pass n).retryCount = s.retryCount := by
  obtain ⟨r, c, t, a, v, l, j, g, h⟩ := State.pass_frame s n
  rw [h]
@[simp] theorem State.pass_retryLast (s : State) (n : Nat) : (s.pass n).retryLast = s.retryLast := by
  obtain ⟨r, c, t, a, v, l, j, g, h⟩ := State.pass_frame s n
  rw [h]
@[simp] theorem State.pass_spoolSet (s : State) (n : Nat) : (s.pass n).spoolSet = s.spoolSet := by
  obtain ⟨r, c, t, a, v, l, j, g, h⟩ := State.pass_frame s n
  rw [h]
@[simp] theorem State.pass_spoolRst (s : State) (n : Nat) : (s.pass n).spoolRst = s.spoolRst := by
  obtain ⟨r, c, t, a, v, l, j, g, h⟩ := State.pass_frame s n
  rw [h]
@[simp] theorem State.pass_seqReg (s : State) (n : Nat) : (s.pass n).seqReg = s.seqReg := by
  obtain ⟨r, c, t, a, v, l, j, g, h⟩ := State.pass_frame s n
  rw [h]
@[simp] theorem State.pass_seqInj (s : State) (n : Nat) : (s.pass n).seqInj = s.seqInj := by
  obtain ⟨r, c, t, a, v, l, j, g, h⟩ := State.pass_frame s n
  rw [h]
@[simp] theorem State.pass_seqLoop (s : State) (n : Nat) : (s.pass n).seqLoop = s.seqLoop := by
  obtain ⟨r, c, t, a, v, l, j, g, h⟩ := State.pass_frame s n
  rw [h]
@[simp] theorem State.pass_seqRec (s : State) (n : Nat) : (s.pass n).seqRec = s.seqRec := by
  obtain ⟨r, c, t, a, v, l, j, g, h⟩ := State.pass_frame s n
  rw [h]
@[simp] theorem State.pass_slices (s : State) (n : Nat) : (s.pass n).slices = s.slices := by
  obtain ⟨r, c, t, a, v, l, j, g, h⟩ := State.pass_frame s n
  rw [h]
@[simp] theorem State.pass_seq (s : State) (n : Nat) : (s.pass n).seq = s.seq := by
  obtain ⟨r, c, t, a, v, l, j, g, h⟩ := State.pass_frame s n
  rw [h]
@[simp] theorem State.pass_inj (s : State) (n : Nat) : (s.pass n).inj = s.inj := by
  obtain ⟨r, c, t, a, v, l, j, g, h⟩ := State.pass_frame s n
  rw [h]
@[simp] theorem State.pass_accs (s : State) (n : Nat) : (s.pass n).accs = s.accs := by
  obtain ⟨r, c, t, a, v, l, j, g, h⟩ := State.pass_frame s n
  rw [h]
@[simp] theorem State.pass_newReg (s : State) (n : Nat) : (s.pass n).newReg = s.newReg := by
  obtain ⟨r, c, t, a, v, l, j, g, h⟩ := State.pass_frame s n
  rw [h]
@[simp] theorem State.pass_newInj (s : State) (n : Nat) : (s.pass n).newInj = s.newInj := by
  obtain ⟨r, c, t, a, v, l, j, g, h⟩ := State.pass_frame s n
  rw [h]
@[simp] theorem State.pass_mains (s : State) (n : Nat) : (s.pass n).mains = s.mains := by
  obtain ⟨r, c, t, a, v, l, j, g, h⟩ := State.pass_frame s n
  rw [h]
@[simp] theorem State.pass_reel (s : State) (n : Nat) : (s.pass n).reel = s.reel := by
  obtain ⟨r, c, t, a, v, l, j, g, h⟩ := State.pass_frame s n
  rw [h]
@[simp] theorem State.pass_cal (s : State) (n : Nat) : (s.pass n).cal = s.cal := by
  obtain ⟨r, c, t, a, v, l, j, g, h⟩ := State.pass_frame s n
  rw [h]
@[simp] theorem State.pass_refSince (s : State) (n : Nat) : (s.pass n).refSince = s.refSince := by
  obtain ⟨r, c, t, a, v, l, j, g, h⟩ := State.pass_frame s n
  rw [h]
@[simp] theorem State.pass_excMode (s : State) (n : Nat) : (s.pass n).excMode = s.excMode := by
  obtain ⟨r, c, t, a, v, l, j, g, h⟩ := State.pass_frame s n
  rw [h]
@[simp] theorem State.pass_ports (s : State) (n : Nat) : (s.pass n).ports = s.ports := by
  obtain ⟨r, c, t, a, v, l, j, g, h⟩ := State.pass_frame s n
  rw [h]
@[simp] theorem State.pass_keepers (s : State) (n : Nat) : (s.pass n).keepers = s.keepers := by
  obtain ⟨r, c, t, a, v, l, j, g, h⟩ := State.pass_frame s n
  rw [h]
@[simp] theorem State.pass_modems (s : State) (n : Nat) : (s.pass n).modems = s.modems := by
  obtain ⟨r, c, t, a, v, l, j, g, h⟩ := State.pass_frame s n
  rw [h]
@[simp] theorem State.pass_lanes (s : State) (n : Nat) : (s.pass n).lanes = s.lanes := by
  obtain ⟨r, c, t, a, v, l, j, g, h⟩ := State.pass_frame s n
  rw [h]
@[simp] theorem State.pass_actQueue (s : State) (n : Nat) : (s.pass n).actQueue = s.actQueue := by
  obtain ⟨r, c, t, a, v, l, j, g, h⟩ := State.pass_frame s n
  rw [h]
@[simp] theorem State.pass_engBusy (s : State) (n : Nat) : (s.pass n).engBusy = s.engBusy := by
  obtain ⟨r, c, t, a, v, l, j, g, h⟩ := State.pass_frame s n
  rw [h]
@[simp] theorem State.pass_keeperCore (s : State) (n : Nat) : (s.pass n).keeperCore = s.keeperCore := by
  obtain ⟨r, c, t, a, v, l, j, g, h⟩ := State.pass_frame s n
  rw [h]
@[simp] theorem State.pass_od (s : State) (n : Nat) : (s.pass n).od = s.od := by
  obtain ⟨r, c, t, a, v, l, j, g, h⟩ := State.pass_frame s n
  rw [h]
@[simp] theorem State.pass_trunks (s : State) (n : Nat) : (s.pass n).trunks = s.trunks := by
  obtain ⟨r, c, t, a, v, l, j, g, h⟩ := State.pass_frame s n
  rw [h]
@[simp] theorem State.pass_wdtFrom (s : State) (n : Nat) : (s.pass n).wdtFrom = s.wdtFrom := by
  obtain ⟨r, c, t, a, v, l, j, g, h⟩ := State.pass_frame s n
  rw [h]
@[simp] theorem State.pass_pwr (s : State) (n : Nat) : (s.pass n).pwr = s.pwr := by
  obtain ⟨r, c, t, a, v, l, j, g, h⟩ := State.pass_frame s n
  rw [h]
@[simp] theorem State.pass_tether (s : State) (n : Nat) : (s.pass n).tether = s.tether := by
  obtain ⟨r, c, t, a, v, l, j, g, h⟩ := State.pass_frame s n
  rw [h]
@[simp] theorem State.pass_freeN (s : State) (n : Nat) : (s.pass n).freeN = s.freeN := by
  obtain ⟨r, c, t, a, v, l, j, g, h⟩ := State.pass_frame s n
  rw [h]
@[simp] theorem State.passTo_pending (s : State) (n : Nat) : (s.passTo n).pending = s.pending := by
  obtain ⟨r, c, t, a, v, l, j, g, h⟩ := State.passTo_frame s n
  rw [h]
@[simp] theorem State.passTo_sram (s : State) (n : Nat) : (s.passTo n).sram = s.sram := by
  obtain ⟨r, c, t, a, v, l, j, g, h⟩ := State.passTo_frame s n
  rw [h]
@[simp] theorem State.passTo_sramEpoch (s : State) (n : Nat) : (s.passTo n).sramEpoch = s.sramEpoch := by
  obtain ⟨r, c, t, a, v, l, j, g, h⟩ := State.passTo_frame s n
  rw [h]
@[simp] theorem State.passTo_fuses (s : State) (n : Nat) : (s.passTo n).fuses = s.fuses := by
  obtain ⟨r, c, t, a, v, l, j, g, h⟩ := State.passTo_frame s n
  rw [h]
@[simp] theorem State.passTo_timers (s : State) (n : Nat) : (s.passTo n).timers = s.timers := by
  obtain ⟨r, c, t, a, v, l, j, g, h⟩ := State.passTo_frame s n
  rw [h]
@[simp] theorem State.passTo_hostData (s : State) (n : Nat) : (s.passTo n).hostData = s.hostData := by
  obtain ⟨r, c, t, a, v, l, j, g, h⟩ := State.passTo_frame s n
  rw [h]
@[simp] theorem State.passTo_hostStat (s : State) (n : Nat) : (s.passTo n).hostStat = s.hostStat := by
  obtain ⟨r, c, t, a, v, l, j, g, h⟩ := State.passTo_frame s n
  rw [h]
@[simp] theorem State.passTo_latches (s : State) (n : Nat) : (s.passTo n).latches = s.latches := by
  obtain ⟨r, c, t, a, v, l, j, g, h⟩ := State.passTo_frame s n
  rw [h]
@[simp] theorem State.passTo_hostNo (s : State) (n : Nat) : (s.passTo n).hostNo = s.hostNo := by
  obtain ⟨r, c, t, a, v, l, j, g, h⟩ := State.passTo_frame s n
  rw [h]
@[simp] theorem State.passTo_guardKey (s : State) (n : Nat) : (s.passTo n).guardKey = s.guardKey := by
  obtain ⟨r, c, t, a, v, l, j, g, h⟩ := State.passTo_frame s n
  rw [h]
@[simp] theorem State.passTo_testKey (s : State) (n : Nat) : (s.passTo n).testKey = s.testKey := by
  obtain ⟨r, c, t, a, v, l, j, g, h⟩ := State.passTo_frame s n
  rw [h]
@[simp] theorem State.passTo_testEn (s : State) (n : Nat) : (s.passTo n).testEn = s.testEn := by
  obtain ⟨r, c, t, a, v, l, j, g, h⟩ := State.passTo_frame s n
  rw [h]
@[simp] theorem State.passTo_linkFails (s : State) (n : Nat) : (s.passTo n).linkFails = s.linkFails := by
  obtain ⟨r, c, t, a, v, l, j, g, h⟩ := State.passTo_frame s n
  rw [h]
@[simp] theorem State.passTo_linkDown (s : State) (n : Nat) : (s.passTo n).linkDown = s.linkDown := by
  obtain ⟨r, c, t, a, v, l, j, g, h⟩ := State.passTo_frame s n
  rw [h]
@[simp] theorem State.passTo_ckLost (s : State) (n : Nat) : (s.passTo n).ckLost = s.ckLost := by
  obtain ⟨r, c, t, a, v, l, j, g, h⟩ := State.passTo_frame s n
  rw [h]
@[simp] theorem State.passTo_late (s : State) (n : Nat) : (s.passTo n).late = s.late := by
  obtain ⟨r, c, t, a, v, l, j, g, h⟩ := State.passTo_frame s n
  rw [h]
@[simp] theorem State.passTo_commitReq (s : State) (n : Nat) : (s.passTo n).commitReq = s.commitReq := by
  obtain ⟨r, c, t, a, v, l, j, g, h⟩ := State.passTo_frame s n
  rw [h]
@[simp] theorem State.passTo_commitRun (s : State) (n : Nat) : (s.passTo n).commitRun = s.commitRun := by
  obtain ⟨r, c, t, a, v, l, j, g, h⟩ := State.passTo_frame s n
  rw [h]
@[simp] theorem State.passTo_gridAt (s : State) (n : Nat) : (s.passTo n).gridAt = s.gridAt := by
  obtain ⟨r, c, t, a, v, l, j, g, h⟩ := State.passTo_frame s n
  rw [h]
@[simp] theorem State.passTo_refCrc (s : State) (n : Nat) : (s.passTo n).refCrc = s.refCrc := by
  obtain ⟨r, c, t, a, v, l, j, g, h⟩ := State.passTo_frame s n
  rw [h]
@[simp] theorem State.passTo_tick (s : State) (n : Nat) : (s.passTo n).tick = s.tick := by
  obtain ⟨r, c, t, a, v, l, j, g, h⟩ := State.passTo_frame s n
  rw [h]
@[simp] theorem State.passTo_tickAt (s : State) (n : Nat) : (s.passTo n).tickAt = s.tickAt := by
  obtain ⟨r, c, t, a, v, l, j, g, h⟩ := State.passTo_frame s n
  rw [h]
@[simp] theorem State.passTo_logMem (s : State) (n : Nat) : (s.passTo n).logMem = s.logMem := by
  obtain ⟨r, c, t, a, v, l, j, g, h⟩ := State.passTo_frame s n
  rw [h]
@[simp] theorem State.passTo_logSeq (s : State) (n : Nat) : (s.passTo n).logSeq = s.logSeq := by
  obtain ⟨r, c, t, a, v, l, j, g, h⟩ := State.passTo_frame s n
  rw [h]
@[simp] theorem State.passTo_offCount (s : State) (n : Nat) : (s.passTo n).offCount = s.offCount := by
  obtain ⟨r, c, t, a, v, l, j, g, h⟩ := State.passTo_frame s n
  rw [h]
@[simp] theorem State.passTo_offLast (s : State) (n : Nat) : (s.passTo n).offLast = s.offLast := by
  obtain ⟨r, c, t, a, v, l, j, g, h⟩ := State.passTo_frame s n
  rw [h]
@[simp] theorem State.passTo_retryCount (s : State) (n : Nat) : (s.passTo n).retryCount = s.retryCount := by
  obtain ⟨r, c, t, a, v, l, j, g, h⟩ := State.passTo_frame s n
  rw [h]
@[simp] theorem State.passTo_retryLast (s : State) (n : Nat) : (s.passTo n).retryLast = s.retryLast := by
  obtain ⟨r, c, t, a, v, l, j, g, h⟩ := State.passTo_frame s n
  rw [h]
@[simp] theorem State.passTo_spoolSet (s : State) (n : Nat) : (s.passTo n).spoolSet = s.spoolSet := by
  obtain ⟨r, c, t, a, v, l, j, g, h⟩ := State.passTo_frame s n
  rw [h]
@[simp] theorem State.passTo_spoolRst (s : State) (n : Nat) : (s.passTo n).spoolRst = s.spoolRst := by
  obtain ⟨r, c, t, a, v, l, j, g, h⟩ := State.passTo_frame s n
  rw [h]
@[simp] theorem State.passTo_seqReg (s : State) (n : Nat) : (s.passTo n).seqReg = s.seqReg := by
  obtain ⟨r, c, t, a, v, l, j, g, h⟩ := State.passTo_frame s n
  rw [h]
@[simp] theorem State.passTo_seqInj (s : State) (n : Nat) : (s.passTo n).seqInj = s.seqInj := by
  obtain ⟨r, c, t, a, v, l, j, g, h⟩ := State.passTo_frame s n
  rw [h]
@[simp] theorem State.passTo_seqLoop (s : State) (n : Nat) : (s.passTo n).seqLoop = s.seqLoop := by
  obtain ⟨r, c, t, a, v, l, j, g, h⟩ := State.passTo_frame s n
  rw [h]
@[simp] theorem State.passTo_seqRec (s : State) (n : Nat) : (s.passTo n).seqRec = s.seqRec := by
  obtain ⟨r, c, t, a, v, l, j, g, h⟩ := State.passTo_frame s n
  rw [h]
@[simp] theorem State.passTo_slices (s : State) (n : Nat) : (s.passTo n).slices = s.slices := by
  obtain ⟨r, c, t, a, v, l, j, g, h⟩ := State.passTo_frame s n
  rw [h]
@[simp] theorem State.passTo_seq (s : State) (n : Nat) : (s.passTo n).seq = s.seq := by
  obtain ⟨r, c, t, a, v, l, j, g, h⟩ := State.passTo_frame s n
  rw [h]
@[simp] theorem State.passTo_inj (s : State) (n : Nat) : (s.passTo n).inj = s.inj := by
  obtain ⟨r, c, t, a, v, l, j, g, h⟩ := State.passTo_frame s n
  rw [h]
@[simp] theorem State.passTo_accs (s : State) (n : Nat) : (s.passTo n).accs = s.accs := by
  obtain ⟨r, c, t, a, v, l, j, g, h⟩ := State.passTo_frame s n
  rw [h]
@[simp] theorem State.passTo_newReg (s : State) (n : Nat) : (s.passTo n).newReg = s.newReg := by
  obtain ⟨r, c, t, a, v, l, j, g, h⟩ := State.passTo_frame s n
  rw [h]
@[simp] theorem State.passTo_newInj (s : State) (n : Nat) : (s.passTo n).newInj = s.newInj := by
  obtain ⟨r, c, t, a, v, l, j, g, h⟩ := State.passTo_frame s n
  rw [h]
@[simp] theorem State.passTo_mains (s : State) (n : Nat) : (s.passTo n).mains = s.mains := by
  obtain ⟨r, c, t, a, v, l, j, g, h⟩ := State.passTo_frame s n
  rw [h]
@[simp] theorem State.passTo_reel (s : State) (n : Nat) : (s.passTo n).reel = s.reel := by
  obtain ⟨r, c, t, a, v, l, j, g, h⟩ := State.passTo_frame s n
  rw [h]
@[simp] theorem State.passTo_cal (s : State) (n : Nat) : (s.passTo n).cal = s.cal := by
  obtain ⟨r, c, t, a, v, l, j, g, h⟩ := State.passTo_frame s n
  rw [h]
@[simp] theorem State.passTo_refSince (s : State) (n : Nat) : (s.passTo n).refSince = s.refSince := by
  obtain ⟨r, c, t, a, v, l, j, g, h⟩ := State.passTo_frame s n
  rw [h]
@[simp] theorem State.passTo_excMode (s : State) (n : Nat) : (s.passTo n).excMode = s.excMode := by
  obtain ⟨r, c, t, a, v, l, j, g, h⟩ := State.passTo_frame s n
  rw [h]
@[simp] theorem State.passTo_ports (s : State) (n : Nat) : (s.passTo n).ports = s.ports := by
  obtain ⟨r, c, t, a, v, l, j, g, h⟩ := State.passTo_frame s n
  rw [h]
@[simp] theorem State.passTo_keepers (s : State) (n : Nat) : (s.passTo n).keepers = s.keepers := by
  obtain ⟨r, c, t, a, v, l, j, g, h⟩ := State.passTo_frame s n
  rw [h]
@[simp] theorem State.passTo_modems (s : State) (n : Nat) : (s.passTo n).modems = s.modems := by
  obtain ⟨r, c, t, a, v, l, j, g, h⟩ := State.passTo_frame s n
  rw [h]
@[simp] theorem State.passTo_lanes (s : State) (n : Nat) : (s.passTo n).lanes = s.lanes := by
  obtain ⟨r, c, t, a, v, l, j, g, h⟩ := State.passTo_frame s n
  rw [h]
@[simp] theorem State.passTo_actQueue (s : State) (n : Nat) : (s.passTo n).actQueue = s.actQueue := by
  obtain ⟨r, c, t, a, v, l, j, g, h⟩ := State.passTo_frame s n
  rw [h]
@[simp] theorem State.passTo_engBusy (s : State) (n : Nat) : (s.passTo n).engBusy = s.engBusy := by
  obtain ⟨r, c, t, a, v, l, j, g, h⟩ := State.passTo_frame s n
  rw [h]
@[simp] theorem State.passTo_keeperCore (s : State) (n : Nat) : (s.passTo n).keeperCore = s.keeperCore := by
  obtain ⟨r, c, t, a, v, l, j, g, h⟩ := State.passTo_frame s n
  rw [h]
@[simp] theorem State.passTo_od (s : State) (n : Nat) : (s.passTo n).od = s.od := by
  obtain ⟨r, c, t, a, v, l, j, g, h⟩ := State.passTo_frame s n
  rw [h]
@[simp] theorem State.passTo_trunks (s : State) (n : Nat) : (s.passTo n).trunks = s.trunks := by
  obtain ⟨r, c, t, a, v, l, j, g, h⟩ := State.passTo_frame s n
  rw [h]
@[simp] theorem State.passTo_wdtFrom (s : State) (n : Nat) : (s.passTo n).wdtFrom = s.wdtFrom := by
  obtain ⟨r, c, t, a, v, l, j, g, h⟩ := State.passTo_frame s n
  rw [h]
@[simp] theorem State.passTo_pwr (s : State) (n : Nat) : (s.passTo n).pwr = s.pwr := by
  obtain ⟨r, c, t, a, v, l, j, g, h⟩ := State.passTo_frame s n
  rw [h]
@[simp] theorem State.passTo_tether (s : State) (n : Nat) : (s.passTo n).tether = s.tether := by
  obtain ⟨r, c, t, a, v, l, j, g, h⟩ := State.passTo_frame s n
  rw [h]
@[simp] theorem State.passTo_freeN (s : State) (n : Nat) : (s.passTo n).freeN = s.freeN := by
  obtain ⟨r, c, t, a, v, l, j, g, h⟩ := State.passTo_frame s n
  rw [h]

/-! ### Conditions -/

theorem State.when_sram (s : State) (c : Bool) (g : State → State) (h : (g s).sram = s.sram) : (s.when c g).sram = s.sram := by
  cases c
  · rfl
  · exact h
theorem State.when_sramEpoch (s : State) (c : Bool) (g : State → State) (h : (g s).sramEpoch = s.sramEpoch) : (s.when c g).sramEpoch = s.sramEpoch := by
  cases c
  · rfl
  · exact h
theorem State.when_fuses (s : State) (c : Bool) (g : State → State) (h : (g s).fuses = s.fuses) : (s.when c g).fuses = s.fuses := by
  cases c
  · rfl
  · exact h

end Sys2Proof.Machine
end

