-- ==== Sys2Proof/Laws/Ldpc.lean ====
section
/-! SUPPORT. The min-sum decoder (R250): a check of which two bits are unknown tells nothing, so a codeword of zeros passes, and one wrong bit
among unknown ones stays wrong; a codeword whose soft decisions all have the right sign passes in one iteration. -/

namespace Sys2Proof.Laws

open Sys2Proof.Machine

/-- The least of values that are not negative, one of them 0. -/
theorem foldl_min_zero (l : List Rat) (m : Rat) (h0 : 0 ≤ m) (hx : ∀ x ∈ l, 0 ≤ x) (h : m = 0 ∨ (0 : Rat) ∈ l) : l.foldl min m = 0 := by
  induction l generalizing m with
  | nil => simpa using h
  | cons x xs ih =>
    have hx0 := hx x (by simp)
    refine ih _ (le_min h0 hx0) (fun y hy => hx y (by simp [hy])) ?_
    rcases h with rfl | h
    · simp [hx0]
    · rcases List.mem_cons.mp h with h | h
      · simp [← h, h0]
      · exact .inr h

/-- R250: a check with a bit of value 0 among the others tells nothing. -/
theorem minSum_zero (l : List Rat) (h : (0 : Rat) ∈ l) : minSum l = 0 := by
  have hp : ∀ x ∈ l.map fun x => if x < 0 then -x else x, 0 ≤ x := by
    intro y hy; obtain ⟨z, -, rfl⟩ := List.mem_map.mp hy; split <;> grind
  have h0 : (0 : Rat) ∈ l.map fun x => if x < 0 then -x else x := List.mem_map.mpr ⟨0, h, by simp⟩
  unfold minSum
  revert hp h0
  generalize (l.map fun x => if x < 0 then -x else x) = ms
  intro hp h0
  cases ms with
  | nil => simp
  | cons x xs =>
    have := foldl_min_zero xs x (hp x (by simp)) (fun y hy => hp y (by simp [hy])) (by rcases List.mem_cons.mp h0 with h | h <;> simp [h])
    simp [this]

/-- A check with two bits of value 0, to which it has told nothing, changes nothing. -/
theorem checkStep_zero (post : Array Rat) (bits : List Nat) (h : ∀ k, (0 : Rat) ∈ (bits.map fun b => post.getD b 0).eraseIdx k) :
    checkStep post bits (bits.map fun _ => 0) = (post, bits.map fun _ => 0) := by
  have hq : List.zipWith (fun b m => post.getD b 0 - m) bits (bits.map fun _ => (0 : Rat)) = bits.map fun b => post.getD b 0 := by
    rw [List.zipWith_map_right]; simp [List.zipWith_self]
  have hn : (List.range (bits.map fun b => post.getD b 0).length).map (fun k => minSum ((bits.map fun b => post.getD b 0).eraseIdx k)) =
      bits.map fun _ => 0 := by
    rw [List.map_congr_left fun k _ => minSum_zero _ (h k)]; simp [List.map_const']
  unfold checkStep
  rw [hq]
  simp only
  rw [hn]
  have hz : List.zipWith (· + ·) (bits.map fun b => post.getD b 0) (bits.map fun _ => (0 : Rat)) = bits.map fun b => post.getD b 0 := by
    rw [List.zipWith_map]; simp [List.zipWith_self]
  rw [hz]
  have : ∀ (bs : List Nat) (p : Array Rat), (∀ b ∈ bs, p.setIfInBounds b (post.getD b 0) = p) →
      (List.zip bs (bs.map fun b => post.getD b 0)).foldl (fun p e => p.setIfInBounds e.1 e.2) p = p := by
    intro bs
    induction bs with
    | nil => intro p _; rfl
    | cons b bs ih =>
      intro p hp
      simp only [List.map_cons, List.zip_cons_cons, List.foldl_cons]
      rw [hp b (by simp)]
      exact ih p fun x hx => hp x (by simp [hx])
  rw [this bits post fun b _ => ?_]
  ext i h1 h2
  · simp
  · rw [Array.getElem_setIfInBounds]
    split
    · subst_vars; simp at h1; simp [Array.getD, h1]
    · rfl

/-- An iteration in which every check tells nothing. -/
theorem layers_zero (post : Array Rat) (cs : List (List Nat))
    (h : ∀ c ∈ cs, ∀ k, (0 : Rat) ∈ (c.map fun b => post.getD b 0).eraseIdx k) :
    layers post (cs.map fun c => (c, c.map fun _ => 0)) = (post, cs.map fun c => (c, c.map fun _ => 0)) := by
  induction cs with
  | nil => rfl
  | cons c cs ih =>
    simp only [List.map_cons, layers]
    rw [checkStep_zero post c (h c (by simp))]
    simp only
    rw [ih fun x hx => h x (by simp [hx])]

/-- Of two elements that satisfy `p`, one stays when an element is taken out. -/
theorem mem_eraseIdx_of_two (p : Nat → Bool) (l : List Nat) (h : 2 ≤ l.countP p) (k : Nat) : ∃ x ∈ l.eraseIdx k, p x = true := by
  induction l generalizing k with
  | nil => simp at h
  | cons x xs ih =>
    rw [List.countP_cons] at h
    cases k with
    | zero =>
      have : 0 < xs.countP p := by split at h <;> omega
      simpa [List.countP_pos_iff] using this
    | succ k =>
      by_cases hx : p x = true
      · exact ⟨x, by simp, hx⟩
      · obtain ⟨y, hy, hp⟩ := ih (by simp [hx] at h; omega) k
        exact ⟨y, by simp [hy], hp⟩

/-- Every check of the rate 5/6 code sums two bits or more beside bit 0. -/
theorem checks_wide : ∀ c ∈ (ldpcPayload 0).checks, 2 ≤ c.countP (· != 0) := by decide +kernel

/-- With nothing known beside bit 0 an iteration changes nothing. -/
theorem layers_fixed (post : Array Rat) (h : ∀ b, b ≠ 0 → post.getD b 0 = 0) :
    layers post ((ldpcPayload 0).checks.map fun c => (c, c.map fun _ => 0)) =
      (post, (ldpcPayload 0).checks.map fun c => (c, c.map fun _ => 0)) := by
  refine layers_zero post _ fun c hc k => ?_
  obtain ⟨b, hb, h0⟩ := mem_eraseIdx_of_two _ c (checks_wide c hc) k
  rw [List.eraseIdx_map]
  exact List.mem_map.mpr ⟨b, hb, h b (by simpa using h0)⟩

/-- An iteration that changes nothing leaves the syndrome to decide. -/
theorem decodeRun_fixed (post : Array Rat) (cs : List (List Nat × List Rat)) (h : layers post cs = (post, cs)) :
    (syndromeOk post cs = true → ∀ n d, (decodeRun (n + 1) d post cs).1 = true) ∧
    (syndromeOk post cs = false → ∀ n d, (decodeRun n d post cs).1 = false) := by
  refine ⟨fun hs n d => ?_, fun hs n => ?_⟩
  · rw [decodeRun, h]
    simp only [hs, if_true]
  · induction n with
    | zero => intro d; rfl
    | succ n ih =>
      intro d
      rw [decodeRun, h]
      simp only [hs]
      exact ih (d + 1)

/-- Whether a payload codeword passes. -/
theorem decodePayload_fst (sf n : Nat) (soft : List Int) : (decodePayload sf n soft).1 =
    (decodeRun n 0 (soft.map fun (x : Int) => (x : Rat)).toArray ((ldpcPayload sf).checks.map fun c => (c, c.map fun _ => 0))).1 := rfl

/-- R250: the all-zero codeword passes at the first test of the syndrome. -/
theorem decode_passes (n : Nat) : (decodePayload 0 (n + 1) []).1 = true := by
  rw [decodePayload_fst]
  refine (decodeRun_fixed #[] _ (layers_fixed #[] (by simp [Array.getD]))).1 ?_ n 0
  have hb : hardBit #[] = fun _ => false := by funext b; simp [hardBit, Array.getD]
  simp [syndromeOk, hb]

/-- R250: one wrong bit among bits of which nothing is known is never put right. -/
theorem decode_fails (n : Nat) : (decodePayload 0 n [-1]).1 = false := by
  rw [decodePayload_fst]
  have he : (([-1] : List Int).map fun (x : Int) => (x : Rat)).toArray = #[(-1 : Rat)] := by simp
  rw [he]
  refine (decodeRun_fixed #[(-1 : Rat)] _ (layers_fixed _ (by intro b hb; cases b <;> simp_all [Array.getD]))).2 ?_ n 0
  have hb : hardBit #[(-1 : Rat)] = fun b => b == 0 := by funext b; cases b <;> simp [hardBit, Array.getD]
  have hc : ((ldpcPayload 0).checks.all fun c => c.countP (· == 0) % 2 == 0) = false := by decide +kernel
  simpa only [syndromeOk, List.all_map, hb, Function.comp_def] using hc

/-! ### Clear soft decisions -/

/-- Values whose signs are a word's bits, none of them 0. -/
def Clear (c : Nat → Bool) (post : Array Rat) : Prop :=
  ∀ i, i < post.size → post.getD i 0 ≠ 0 ∧ (post.getD i 0 < 0 ↔ c i = true)

/-- What a check tells a bit has the sign of the product of the others' signs. -/
theorem minSum_sign (l : List Rat) : ∃ m : Rat, 0 ≤ m ∧ minSum l = if (l.countP fun x => decide (x < 0)) % 2 = 0 then m else -m := by
  have key : ∀ (ms : List Rat) (m : Rat), 0 ≤ m → (∀ x ∈ ms, 0 ≤ x) → 0 ≤ ms.foldl min m := by
    intro ms; induction ms with
    | nil => intro m h _; exact h
    | cons x xs ih => intro m h hx; exact ih _ (le_min h (hx x (by simp))) fun y hy => hx y (by simp [hy])
  have hp : ∀ x ∈ l.map fun x : Rat => if x < 0 then -x else x, 0 ≤ x := by
    intro y hy; obtain ⟨z, -, rfl⟩ := List.mem_map.mp hy; split <;> grind
  unfold minSum
  revert hp
  generalize (l.map fun x : Rat => if x < 0 then -x else x) = ms
  intro hp
  refine ⟨3 / 4 * (match ms with | [] => 0 | x :: xs => xs.foldl min x), ?_, ?_⟩
  · cases ms with
    | nil => simp
    | cons x xs => exact mul_nonneg (by norm_num) (key xs x (hp x (by simp)) fun y hy => hp y (by simp [hy]))
  · cases ms <;> dsimp only <;> split_ifs <;> simp

/-- What stands at a place and the rest of a list, counted. -/
theorem countP_eraseIdx {α : Type} (p : α → Bool) (l : List α) (k : Nat) (h : k < l.length) :
    (l.eraseIdx k).countP p + (if p l[k] then 1 else 0) = l.countP p := by
  induction l generalizing k with
  | nil => simp at h
  | cons x xs ih =>
    cases k with
    | zero => simp [List.countP_cons]
    | succ k => simp only [List.eraseIdx_cons_succ, List.countP_cons, List.getElem_cons_succ]; have := ih k (by simpa using h); omega

/-- Values put at their bits with the bits' signs leave the signs as they are. -/
theorem clear_set (c : Nat → Bool) (l : List (Nat × Rat)) (post : Array Rat) (h : Clear c post)
    (hl : ∀ e ∈ l, e.2 ≠ 0 ∧ (e.2 < 0 ↔ c e.1 = true)) :
    Clear c (l.foldl (fun p e => p.setIfInBounds e.1 e.2) post) ∧ (l.foldl (fun p e => p.setIfInBounds e.1 e.2) post).size = post.size := by
  induction l generalizing post with
  | nil => exact ⟨h, rfl⟩
  | cons e es ih =>
    have h' : Clear c (post.setIfInBounds e.1 e.2) := by
      intro i hi
      rw [Array.size_setIfInBounds] at hi
      rw [Array.getD_eq_getD_getElem?, Array.getElem?_setIfInBounds]
      split
      · subst_vars; simpa [hi] using hl e (by simp)
      · simpa [Array.getD_eq_getD_getElem?] using h i hi
    have := ih _ h' fun x hx => hl x (by simp [hx])
    simpa using this

/-- R250: a check that a clear word meets leaves the word clear. -/
theorem checkStep_clear (c : Nat → Bool) (post : Array Rat) (bits : List Nat) (h : Clear c post) (hb : ∀ b ∈ bits, b < post.size)
    (he : bits.countP c % 2 = 0) :
    Clear c (checkStep post bits (bits.map fun _ => 0)).1 ∧ (checkStep post bits (bits.map fun _ => 0)).1.size = post.size := by
  have hq : List.zipWith (fun b m => post.getD b 0 - m) bits (bits.map fun _ => (0 : Rat)) = bits.map fun b => post.getD b 0 := by
    rw [List.zipWith_map_right]; simp [List.zipWith_self]
  unfold checkStep
  rw [hq]
  refine clear_set c _ post h ?_
  intro e hm
  obtain ⟨k, hk, rfl⟩ := List.mem_iff_getElem.mp hm
  simp only [List.length_zip, List.length_zipWith, List.length_map, List.length_range, min_self] at hk
  simp only [List.getElem_zip, List.getElem_zipWith, List.getElem_map, List.getElem_range]
  have hc : (bits.map fun b => post.getD b 0).countP (fun x => decide (x < 0)) = bits.countP c := by
    rw [List.countP_map]
    apply List.countP_congr
    intro b hbm
    have := (h b (hb b hbm)).2
    simpa using this
  have hcnt := countP_eraseIdx (fun x : Rat => decide (x < 0)) (bits.map fun b => post.getD b 0) k (by simpa using hk)
  rw [hc] at hcnt
  obtain ⟨m, hm0, hms⟩ := minSum_sign ((bits.map fun b => post.getD b 0).eraseIdx k)
  rw [hms]
  obtain ⟨hne, hs⟩ := h bits[k] (hb _ (by simp))
  simp only [List.getElem_map, decide_eq_true_eq] at hcnt
  rw [← hs]
  by_cases hn : post.getD bits[k] 0 < 0
  · rw [if_pos hn] at hcnt
    rw [if_neg (by omega)]
    constructor
    · linarith
    · constructor <;> intro _ <;> linarith
  · rw [if_neg hn] at hcnt
    rw [if_pos (by omega)]
    have : 0 < post.getD bits[k] 0 := lt_of_le_of_ne (not_lt.mp hn) (Ne.symm hne)
    constructor
    · linarith
    · constructor <;> intro _ <;> linarith

/-- An iteration over checks that a clear word meets leaves it clear. -/
theorem layers_clear (c : Nat → Bool) (cs : List (List Nat)) (post : Array Rat) (h : Clear c post)
    (hb : ∀ bits ∈ cs, (∀ b ∈ bits, b < post.size) ∧ bits.countP c % 2 = 0) :
    Clear c (layers post (cs.map fun bits => (bits, bits.map fun _ => 0))).1 ∧
      (layers post (cs.map fun bits => (bits, bits.map fun _ => 0))).1.size = post.size ∧
      (layers post (cs.map fun bits => (bits, bits.map fun _ => 0))).2.map (·.1) = cs := by
  induction cs generalizing post with
  | nil => exact ⟨h, rfl, rfl⟩
  | cons bits cs ih =>
    obtain ⟨h1, h2⟩ := checkStep_clear c post bits h (hb bits (by simp)).1 (hb bits (by simp)).2
    have := ih _ h1 fun b hm => by rw [h2]; exact hb b (by simp [hm])
    refine ⟨this.1, this.2.1.trans h2, ?_⟩
    simpa [layers] using this.2.2

/-- R250: a codeword whose soft decisions are clear passes in one iteration, and its hard decisions are its bits. -/
theorem decode_clear (l : Ldpc) (n : Nat) (soft : List Int) (c : Nat → Bool)
    (h : ∀ i, (hi : i < soft.length) → soft[i] ≠ 0 ∧ (soft[i] < 0 ↔ c i = true))
    (hk : l.kb * l.z ≤ soft.length)
    (hb : ∀ bits ∈ l.checks, (∀ b ∈ bits, b < soft.length) ∧ bits.countP c % 2 = 0) :
    l.decode (n + 1) soft = (true, 1, bitBytes (l.kb * l.z / 8) ((List.range (l.kb * l.z)).map c)) := by
  have h0 : Clear c (soft.map fun (x : Int) => (x : Rat)).toArray := by
    intro i hi
    have hi' : i < soft.length := by simpa using hi
    obtain ⟨h1, h2⟩ := h i hi'
    simp [Array.getD_eq_getD_getElem?, hi', h1, h2]
  obtain ⟨h1, h2, h3⟩ := layers_clear c l.checks _ h0 fun bits hm => by simpa using hb bits hm
  have hbit : ∀ i, i < soft.length → hardBit (layers (soft.map fun (x : Int) => (x : Rat)).toArray
      (l.checks.map fun bits => (bits, bits.map fun _ => 0))).1 i = c i := by
    intro i hi
    have := (h1 i (by rw [h2]; simpa using hi)).2
    unfold hardBit
    rw [Bool.eq_iff_iff]; simpa using this
  have hok : syndromeOk (layers (soft.map fun (x : Int) => (x : Rat)).toArray (l.checks.map fun bits => (bits, bits.map fun _ => 0))).1
      (layers (soft.map fun (x : Int) => (x : Rat)).toArray (l.checks.map fun bits => (bits, bits.map fun _ => 0))).2 = true := by
    unfold syndromeOk
    rw [List.all_eq_true]
    intro x hx
    have hxm : x.1 ∈ l.checks := by rw [← h3]; exact List.mem_map_of_mem hx
    have : x.1.countP (hardBit _) = x.1.countP c := List.countP_congr fun b hbm => by rw [hbit b ((hb _ hxm).1 b hbm)]
    rw [this]; simpa using (hb _ hxm).2
  unfold Ldpc.decode
  simp only [decodeRun, hok, if_true]
  congr 3
  exact List.map_congr_left fun i hi => hbit i (lt_of_lt_of_le (List.mem_range.mp hi) hk)

end Sys2Proof.Laws
end

