-- ==== Sys2Proof/Tests/Slice0.lean ====
section
/-! SUPPORT. Tests: for every statement with hypotheses a small state and operands that meet them, clause by clause and at the
bounds of the ranges (witness_<statement>), and single commands and checks whose results the spec gives (test_<what>). -/

namespace Sys2Proof.Tests

-- One theorem after the other: the long kernel evaluations below would else hold up a thread for each theorem that waits.
set_option Elab.async false

open Sys2Proof.Machine

/-! ### Small states -/

/-- Every domain is on. -/
def all : State := State.reset.setFld Reg.PWR_STATUS Fld.PWR_STATUS_ON 0x7F

/-- AON alone is on. -/
def dark : State := State.reset.setFld Reg.PWR_STATUS Fld.PWR_STATUS_ON 0x40

/-- The guard lock is set. -/
def shut (s : State) : State := s.setFld Reg.GUARD_CTL Fld.GUARD_CTL_LOCK 1

/-- A die's link is down. -/
def unlinked (s : State) (d : Die) : State := { s with linkDown := vset s.linkDown d.bit true }

/-- CK is lost at a die. -/
def unclocked (s : State) (d : Die) : State := { s with ckLost := vset s.ckLost d.bit true }

/-- The part is in Tether mode. -/
def tethered : State := dark.setFld Reg.TETHER_STATUS Fld.TETHER_STATUS_ACTIVE 1

/-- The reference is ready. -/
def ready : State := all.setFld Reg.REF_STATUS Fld.REF_STATUS_REF_READY 1

/-- Port `n` is in role `r`. -/
def inRole (n r : Nat) : State := all.setFld (Reg.PORT_STATUS n) Fld.PORT_STATUS_ROLE_ACTIVE r

/-- The modem of port 1 is enabled in role 1, with addresses 2 and 1. -/
def toneOn : State :=
  (((inRole 1 1).setFld (Reg.MODEM_CTL 1) Fld.MODEM_CTL_EN 1).setFld (Reg.MODEM_ADDR 1) Fld.MODEM_ADDR_MASTER_SRC 2).setFld
    (Reg.MODEM_ADDR 1) Fld.MODEM_ADDR_ADDR 1

/-- A one-bit or short field of a transceiver's status. -/
def rx (s : State) (x : Trx) (r : Nat) : State :=
  (s.setFld (Reg.TRX_CTL x.idx) Fld.TRX_CTL_EN 1).setFld (Reg.TRX_STATUS x.idx) Fld.TRX_STATUS_RX_STATE r

/-! ### The queue and the whole machine -/

theorem witness_StepRunsFrontCommand :
    ({ State.reset with pending := [.faultClr, .cfgCommit] } : State).pending = Instr.faultClr :: [.cfgCommit] := rfl

theorem witness_IdleStepCounts : State.reset.pending = [] ∧ State.reset.od.window = none ∧ State.reset.tbLoad = none := ⟨rfl, rfl, rfl⟩

theorem witness_StepKeepsSummary : State.reset.SummaryHolds ∧ step State.reset = .next State.reset.idle :=
  ⟨by unfold State.SummaryHolds; decide, rfl⟩

/-! ### Fields -/

theorem witness_FieldsReadAndWrite :
    (⟨0, 32⟩ : Fld).lo + (⟨0, 32⟩ : Fld).len ≤ 32 ∧ (⟨31, 1⟩ : Fld).lo + (⟨31, 1⟩ : Fld).len ≤ 32 ∧
      (⟨0, 31⟩ : Fld).lo + (⟨0, 31⟩ : Fld).len ≤ (⟨31, 1⟩ : Fld).lo := by decide

/-- R3: bit 31 alone of a word is a signed field's −1. -/
theorem test_signed_field : (⟨31, 1⟩ : Fld).get 0x80000000 = 1 ∧ (⟨28, 4⟩ : Fld).sget 0x80000000 = -8 := by decide

/-- R4: the low byte stands at the lowest address. -/
theorem test_little_endian : (State.reset.setSramBytes 0x800000 [0x78, 0x56, 0x34, 0x12]).sramLoad 0x800000 4 = 0x12345678 := by
  decide

/-! ### Host port -/

theorem witness_HostSram :
    State.reset.hostLive = true ∧ State.reset.coreHeld = false ∧ State.reset.pwr.fullReq = false ∧ (2 : BitVec 2) ≠ 3 ∧
      inSram (0x800000 : BitVec 24).toNat = true ∧ inSram (0xBFFFFF : BitVec 24).toNat = true ∧
      (0xBFFFFC : BitVec 24).toNat % sizeBytes 2 = 0 ∧ (0xBFFFFC : BitVec 24).toNat + 4 * [(7 : Word)].length = 0xC00000 := by decide

theorem witness_HostSram_longest : (10 : BitVec 4).toNat ≤ 10 ∧ (List.replicate 1024 (0 : Word)).length = 2 ^ (10 : BitVec 4).toNat ∧
    (0xBFF000 : BitVec 24).toNat + 4 * (List.replicate 1024 (0 : Word)).length = 0xC00000 := by
  rw [List.length_replicate]; decide

theorem witness_HostRefusedAccess :
    State.reset.hostCheck (hostAccess .read 2 0 0xC00000 0) = .noReg ∧
      State.reset.hostCheck (hostAccess .read 3 0 0x800000 0) = .sizeFault ∧
      State.reset.hostCheck (hostAccess .read 2 0 0xBFFFFE 0) = .alignFault ∧
      State.reset.hostCheck (hostAccess .write 1 0 0xBFFFFF 0) = .alignFault ∧
      State.reset.hostCheck (hostAccess .read 2 0 (BitVec.ofNat 24 Reg.CONV_EVENT) 0) = .domainOff := by decide

/-- A burst outside the map, one of a wrong SIZE, one at a misaligned address, one into a domain that is off; a LEN of 11 in the SRAM and outside
the map. -/
theorem witness_HostRefusedAccess_bursts :
    (∀ i, i < 2 ^ (1 : BitVec 4).toNat →
      all.hostCheck (hostAccess .burstRead 2 1 0xC00000 i) = .noReg ∧ all.hostCheck (hostAccess .burstWrite 1 1 0x800000 i) = .sizeFault ∧
      all.hostCheck (hostAccess .burstRead 2 1 0x800002 i) = .alignFault ∧
      State.reset.hostCheck (hostAccess .burstWrite 2 1 (BitVec.ofNat 24 Reg.CONV_EVENT) i) = .domainOff) ∧
      [(5 : Word), 6].length = 2 ^ (1 : BitVec 4).toNat ∧ (1 : BitVec 4).toNat ≤ 10 ∧ 10 < (11 : BitVec 4).toNat ∧
      hostKnown (0x800000 : BitVec 24).toNat true = true ∧ hostKnown (0xC00000 : BitVec 24).toNat true = false := by decide +kernel

theorem witness_RcReadClears :
    let a := BitVec.ofNat 24 Reg.TB_EVENT
    State.reset.hostCheck (hostAccess .read 2 0 a 0) = .ok ∧ inSram a.toNat = false ∧ peekOf a.toNat = none ∧
      pairLow a.toNat = false ∧ pairHigh a.toNat = false ∧ a.toNat ≠ Reg.IRQ_STATUS ∧ a.toNat ≠ Reg.HOST_EVENT ∧
      (0 : Word) &&& rcMask a.toNat = 0 ∧ State.reset.hostLive = true ∧ State.reset.coreHeld = false ∧
      State.reset.pwr.fullReq = false := by decide

/-- Plain registers within reach in every domain, with the lock open and the lane stopped; a pair's two words, the second of them read in
another state; a PEEK alias and what it shows. -/
theorem witness_RcReadClears_plain :
    let a := BitVec.ofNat 24 Reg.TB_LO
    let p := BitVec.ofNat 24 (Reg.SYS_DIE_EVENT + 0x800)
    all.hostLive = true ∧ all.coreHeld = false ∧ all.pwr.fullReq = false ∧ all.locked = false ∧ all.laneState 0 = 0 ∧
      (∀ x ∈ [Reg.IRQ_ENABLE, Reg.TB_SET_LO, Reg.TB_SET_HI, Reg.PWR_IRQ_EN, Reg.CONV_IRQ_EN, Reg.SEQ_CFG, Reg.LANE_PERIOD 0, Reg.RING_TX_HDR,
        Reg.LOG_CTL], all.reachable x = true) ∧
      pairLow a.toNat = true ∧ peekOf a.toNat = none ∧ peekOf (a.toNat + 4) = none ∧ inSram a.toNat = false ∧
      inSram (a.toNat + 4) = false ∧ rcMask a.toNat = 0 ∧ rcMask (a.toNat + 4) = 0 ∧
      all.hostCheck (hostAccess .read 2 0 a 0) = .ok ∧ all.hostCheck (hostAccess .read 2 0 (a + 4) 0) = .ok ∧
      ({ State.reset with latches := all.latches } : State).latches = all.latches ∧
      pairHigh a.toNat = false ∧ peekOf p.toNat = some Reg.SYS_DIE_EVENT ∧ p.toNat % 4 = 0 ∧ (findReg p.toNat).isSome = false ∧
      inSram p.toNat = false ∧ all.reachable Reg.SYS_DIE_EVENT = true := by decide

theorem witness_AbortedTransaction :
    State.reset.hostLive = true ∧ State.reset.pwr.fullReq = false ∧ hostWords .write 0 ≠ 0 ∧ (1 : BitVec 4).toNat ≤ 10 ∧ [(7 : Word)].length ≤ 2 ^ (1 : BitVec 4).toNat ∧
      (0x800000 : BitVec 24).toNat % 4 = 0 ∧ 0x800000 ≤ (0x800000 : BitVec 24).toNat ∧ (0x800000 : BitVec 24).toNat + 4 ≤ 0xC00000 := by
  decide

/-- The lock holds, with a value that would change ACTION and one that would not. -/
theorem witness_LockedGuardWrite :
    (shut State.reset).locked = true ∧ (shut State.reset).hostOpen Reg.GUARD_CTL = true ∧ (shut State.reset).pwr.fullReq = false ∧
      (shut State.reset).coreHeld = false ∧
      ((0xFFFFFFFF : Word) >>> 16) &&& ((0xFFFFFFFF : Word) ^^^ (shut State.reset).reg Reg.GUARD_CTL) &&& Fld.GUARD_CTL_ACTION.mask ≠ 0 ∧
      ((0 : Word) >>> 16) &&& ((0 : Word) ^^^ (shut State.reset).reg Reg.GUARD_CTL) &&& Fld.GUARD_CTL_ACTION.mask = 0 := by decide

/-- CORE off; VIO missing; a row of a register that cannot be reached; one that would change a G field under the lock. -/
theorem witness_HostPortWithoutCore :
    dark.hostLive = false ∧ ({ all with pwr := { vio := false } } : State).hostLive = false ∧ hostRowReg (.keeperKick 2) = some (Reg.KEEPER_KICK 2) ∧
      (unlinked all .ld2).hostLive = true ∧ (unlinked all .ld2).coreHeld = false ∧ (unlinked all .ld2).reachable (Reg.KEEPER_KICK 2) = false ∧
      hostRowReg .wdtEnable = some Reg.WDT_CTL ∧ (shut all).hostOpen Reg.WDT_CTL = true ∧ (shut all).coreHeld = false ∧
      (shut all).locked = true ∧ (shut all).hostRowGuarded .wdtEnable = true := by decide

/-- The fall of HCSn as a wake source, in WAKE_FAIL with CORE on, and no source in AON alone. -/
theorem witness_HostPortWithoutCore_wake :
    let s := (State.reset.setFld Reg.PWR_STATUS Fld.PWR_STATUS_STATE 7).setFld Reg.PWR_WAKE_EN (Fld.PWR_WAKE_EN_EN.bit 3) 1
    s.hcsnWakes = true ∧ s.on .core = true ∧ s.hostLive = false ∧ s.pwr.wake = none ∧ s.pagesLinear ∧ dark.hcsnWakes = false ∧
      (hostRowReg (.keeperKick 2)).isSome = true := by unfold State.pagesLinear; decide

/-! ### Dies and timebase -/

/-- The 15th failure in a row is repeated and the 16th declares the link down: both premises hold at their boundary. -/
theorem witness_LinkWordFail :
    Die.md ≠ .cd ∧ all.on .core = true ∧ all.dieClocked .md = true ∧ all.linkIsDown .md = false ∧
      (tethered.on .core = false ∧ tethered.dieClocked .md = true ∧ tethered.linkIsDown .md = false) ∧
      ({ all with linkFails := [(wordKey .md 7, 14)] } : State).failsOf .md 7 + 1 = 15 ∧
      ({ all with linkFails := [(wordKey .md 7, 15)] } : State).failsOf .md 7 + 1 = 16 ∧ all.failsOf .md 8 = 0 ∧
      State.reset.dieClocked .md = false ∧ (unlinked all .md).linkIsDown .md = true := by decide

/-- Each die's loss, an OUT port of the last loop die among them; the return with CORE on and off; the log ready for the entry. -/
theorem witness_DieClock :
    all.dieClocked .md = true ∧ all.dieClocked .td = true ∧ all.dieClocked .bd = true ∧ all.ckIsLost .md = false ∧
      (tethered.dieClocked .md = true ∧ dark.dieClocked .md = false) ∧
      Die.ld3 = ldDie (ldOf 15) ∧ (inRole 15 1).portRuns 15 = true ∧ isOut ((inRole 15 1).roleActive 15) = true ∧
      (inRole 15 1).switchesOpen 15 = false ∧
      ((all.setFld (Reg.TRX_STATUS 0) Fld.TRX_STATUS_LINK_READY 1).setFld (Reg.TRX_STATUS 1) Fld.TRX_STATUS_LINK_READY 1).bypassCause = false ∧
      (all.setFld (Reg.TRX_STATUS 0) Fld.TRX_STATUS_BYPASSED 1).bypassed = true ∧
      (unclocked all .md).ckIsLost .md = true ∧ (unclocked all .md).on .core = true ∧
      (unclocked dark .md).ckIsLost .md = true ∧ (unclocked dark .md).on .core = false ∧
      all.fld Reg.LOG_CTL Fld.LOG_CTL_MIN_SEV ≤ Sev.fatal.code ∧ all.logFrozen = false := by decide

theorem witness_Timebase : State.reset.hostOpen Reg.TB_CTL = true ∧ dark.hostLive = false ∧ State.reset.tbLoad = none ∧
    State.reset.ck < State.reset.ckAtTick (2 ^ 64 - State.reset.time.toNat) := by decide

/-! ### Guard and Tail log -/

/-- CORE on and off; the second key, and the first one standing in the very next transaction at its last instant. -/
theorem witness_GuardCommands :
    State.reset.on .core = true ∧ State.reset.hostOpen Reg.GUARD_CTL = true ∧ State.reset.hostOpen Reg.GUARD_UNLOCK = true ∧
      dark.on .core = false ∧ Fld.GUARD_UNLOCK_KEY.get 0x9581 = 0x9581 ∧
      (({ State.reset with guardKey := some (1, 0), hostNo := 1, ck := msCk 1 } : State).guardKey.any fun p =>
        p.1 == 1 && decide (msCk 1 ≤ p.2 + msCk 1)) = true := by decide

/-- A reference that differs from a domain's check by one is a mismatch. -/
theorem guard_mismatch (s : State) (d : Domain) :
    let u : State := { s with refCrc := vset s.refCrc d.bit (s.guardCrc d + 1) }
    u.guardCrc d ≠ u.guardRef d := by
  intro u h
  have hb : d.bit < 7 := by cases d <;> decide
  have hr : u.guardRef d = s.guardCrc d + 1 := vget_vset _ _ _ _ hb
  have hc : u.guardCrc d = s.guardCrc d := rfl
  rw [hr, hc] at h
  bv_omega

/-- The scan: CORE with a valid reference that its registers do not match, the mismatch new and known; a lane in RUN, one stopped; an OUT
port with its switches closed; each ACTION; no reference valid. -/
theorem witness_GuardCommands_scan :
    let t := ((inRole 2 1).setFld (Reg.LANE_STATUS 3) Fld.LANE_STATUS_STATE 1).setFld Reg.GUARD_STATUS (refFld .core) 1
    let s : State := { t with refCrc := vset t.refCrc Domain.core.bit (t.guardCrc .core + 1) }
    s.guardCrc .core ≠ s.guardRef .core ∧ s.commitReq = false ∧ s.on .core = true ∧ s.flag Reg.GUARD_STATUS (refFld .core) = true ∧
      s.flag Reg.GUARD_STATUS (mismatchFld .core) = false ∧
      (s.setFld Reg.GUARD_STATUS (mismatchFld .core) 1).flag Reg.GUARD_STATUS (mismatchFld .core) = true ∧
      s.flag Reg.GUARD_STATUS (refFld .meas) = false ∧ s.laneState (3 : LaneId) = 1 ∧ s.laneState (4 : LaneId) ≠ 1 ∧
      s.on (portDomain (2 : PortId)) = true ∧ isOut (s.roleActive (2 : PortId)) = true ∧ s.switchesOpen (2 : PortId) = false ∧
      (∀ a, a < 4 → (t.setFld Reg.GUARD_CTL Fld.GUARD_CTL_ACTION a).fld Reg.GUARD_CTL Fld.GUARD_CTL_ACTION = a) :=
  ⟨guard_mismatch _ _, by decide, by decide, by decide, by decide, by decide, by decide, by decide, by decide, by decide, by decide, by decide,
    by decide⟩

/-- An entry below MIN_SEV; one at MIN_SEV in a frozen log; one at MIN_SEV otherwise, with room and in a full log. -/
theorem witness_TailLog :
    let s := State.reset.setFld Reg.LOG_CTL Fld.LOG_CTL_MIN_SEV 2
    Sev.notice.code < s.fld Reg.LOG_CTL Fld.LOG_CTL_MIN_SEV ∧ s.fld Reg.LOG_CTL Fld.LOG_CTL_MIN_SEV ≤ Sev.warning.code ∧
      s.hostOpen Reg.LOG_CLEAR = true ∧ s.hostOpen Reg.LOG_CTL = true ∧ s.logFrozen = false ∧ (s.setFld Reg.LOG_STATUS Fld.LOG_STATUS_FROZEN 1).logFrozen = true ∧ s.logFill = 1 ∧
      (s.setReg Reg.LOG_WP 4096).logFill = 4096 ∧ Reg.TB_EVENT ∉ logTouches := by decide

/-! ### Loop tick and frame boundary -/

theorem witness_BoundaryStages :
    all.measRuns = true ∧ tethered.measRuns = false ∧ tethered.islandRuns = true ∧ dark.measRuns = false ∧ dark.islandRuns = false ∧
      ({ all with commitReq := true } : State).commitRun = false ∧ ({ all with commitReq := true, commitRun := true } : State).commitReq = true := by
  decide

/-- MEAS beside the island: its first boundary comes at once; then the frame that ends first has the boundary. -/
theorem witness_BoundaryStages_both :
    let s := tethered.setFld Reg.PWR_STATUS Fld.PWR_STATUS_ON 0x42
    let seen (at_ : Nat) : State := { s with seq := { frameSeen := true }, tether := { frameAt := at_ } }
    s.measRuns = true ∧ s.islandRuns = true ∧ s.islandFirst = false ∧ (seen 0).islandFirst = true ∧ (seen (2 ^ 40)).islandFirst = false := by
  decide

/-- A port without a role, one with the switches open; a cause; a trim at each point; a parked port and a plain one. -/
theorem witness_LoopTarget :
    isOut (all.roleActive 0) = false ∧ ((inRole 0 1).setFld (Reg.PORT_STATUS 0) Fld.PORT_STATUS_MISWIRE 1).switchesOpen 0 = true ∧
      isOut ((inRole 0 1).roleActive 0) = true ∧ (inRole 0 1).switchesOpen 0 = false ∧ (inRole 0 1).fsCause 0 = false ∧
      ((inRole 0 1).setPort 0 { (inRole 0 1).port 0 with fsForced := true }).fsCause 0 = true ∧
      ((inRole 0 1).setPort 0 { trimRun := some { high := true } }).fsCause 0 = false ∧
      (((inRole 0 1).setPort 0 { trimRun := some { high := true } }).port 0).trimRun = some { high := true } ∧
      ((inRole 0 1).port 0).trimRun = none ∧ ((inRole 0 1).port 0).probing = false ∧ ((inRole 0 1).port 0).parked = false ∧
      (((inRole 0 1).setPort 0 { parked := true }).port 0).parked = true := by decide

/-- A tick of an OUT port: a readback far off the target of the tick before, that target standing still, moved, or the timer held; the fourth
sample off and the tenth good one at their bounds; the second saturated tick; a set-point that moves the target by more than TOL; and a port
that is no OUT port, and one with the switches open. -/
theorem witness_LoopTarget_tick :
    let at_ (p : Port) (set : Nat) : State := (((inRole 0 1).setPort 0 p).setReg (Reg.LOOP_TARGET 0) 9000).setFld (Reg.LOOP_SET 0)
      Fld.LOOP_SET_VALUE set
    let s := at_ { openT := 9000, mmBad := 3, mmGood := 9, satRun := 1, satFree := 9, clipFree := 9 } 9000
    let u := s.tickReady 0
    let far : PortSample := ⟨List.replicate 32 3000, 0, 30, true, true⟩
    let near : PortSample := ⟨List.replicate 32 9000, 0, 50, false, true⟩
    s.portRuns 0 = true ∧ isOut (u.roleActive 0) = true ∧ u.switchesOpen 0 = false ∧ u.port 0 = s.port 0 ∧ (u.port 0).held < 0x10000 ∧
      u.tol 0 < (s.readback 0 far - (u.port 0).openT).natAbs ∧ ¬ u.tol 0 < (s.readback 0 near - (u.port 0).openT).natAbs ∧
      ¬ u.tol 0 < ((s.target 0 : Int) - (u.port 0).openT).natAbs ∧ (u.port 0).mmHold = 0 ∧
      clampNat 4 1000 (u.fld (Reg.LOOP_TOL 0) Fld.LOOP_TOL_TIME) ≤ 1000 ∧
      u.tol 0 < (((at_ { openT := 8000 } 9000).target 0 : Int) - 8000).natAbs ∧ ((at_ { mmHold := 3 } 9000).tickReady 0 |>.port 0).mmHold ≠ 0 ∧
      u.tol 0 < (((at_ {} 40000).portTick 0 near |>.target 0 : Int) - (at_ {} 40000).target 0).natAbs ∧
      isOut ((all.tickReady 0).roleActive 0) = false ∧ s.roleActive 0 ≠ 0 ∧ all.roleActive 0 = 0 := by decide +kernel

/-- R128: a slew of 10 counts a tick takes 100 towards 200 in ten ticks, and its last step falls short. -/
theorem test_slew : slewTo 100 200 10 = 110 ∧ slewTo 195 200 10 = 200 ∧ slewTo 200 100 10 = 190 ∧ slewTo 7 9 0 = 9 := by decide

/-! ### Converter -/

theorem witness_MainsTracker :
    all.measRuns = true ∧ all.inTether = false ∧ (false = all.flag Reg.MAINS_CTL Fld.MAINS_CTL_EDGE ∨
        true = all.flag Reg.MAINS_CTL Fld.MAINS_CTL_EDGE) ∧
      (Fld.PAD_STATUS_DOMAIN.bit 1).on (all.reg Reg.PAD_STATUS) = false ∧ ({ last := some 5 } : Track).last = some 5 ∧
      periodOk (1 * (3932160 - 0)) = true ∧ periodOk (1 * (1 - 0)) = false ∧
      ({ all with mains := { sync := { bestM := 30, bestS := 117964800 } } } : State).mainsRun = (30, 117964800, false) ∧
      ({ all with mains := { sync := { bestM := 29 } } } : State).mainsRun.1 = 29 ∧
      2 ≤ ({ missed := 2 } : Mains).missed ∧ (all.pass 5).secondNo = all.mains.second ∧ all.tbLoad = none ∧ all.tickLen = 1 ∧
      all.ck < all.ckAtTick (12288000 - all.time.toNat % 12288000) ∧
      ({ all with time := 12288000 } : State).secondNo ≠ ({ all with time := 12288000 } : State).mains.second ∧
      tethered.measRuns = false ∧ tethered.islandRuns = true := by decide

/-- The island's tracker: a second that is not its last one, with a run of 30 and one of 29; beside MEAS as well. -/
theorem witness_MainsTracker_island :
    let s (s : State) (m : Nat) : State := { s with time := 12288000, tether := { mains := { sync := { bestM := m } } } }
    let both := all.setFld Reg.TETHER_STATUS Fld.TETHER_STATUS_ACTIVE 1
    (s tethered 30).islandRuns = true ∧ (s tethered 30).measRuns = false ∧ both.islandRuns = true ∧ both.measRuns = true ∧
      (s tethered 30).secondNo ≠ (s tethered 30).tether.mains.second ∧ 30 ≤ (s tethered 30).tether.mains.sync.bestM ∧
      (s tethered 29).tether.mains.sync.bestM < 30 ∧ (tethered.pass 5).secondNo = tethered.tether.mains.second ∧
      tethered.flag Reg.MAINS_CTL Fld.MAINS_CTL_EDGE = false := by decide

/-- R58: M = 49 and S = 193449639 give frames of 3947952 CK at 1 PLC and 39479518 CK at 10 PLC. -/
theorem test_mains_example :
    ({ all with mains := { m := 49, s := 193449639 } } : State).mainsLen 1 = 3947952 ∧
      ({ all with mains := { m := 49, s := 193449639 } } : State).mainsLen 10 = 39479518 := by decide

theorem witness_InputProtection :
    all.measRuns = true ∧ ((all.setSlice 2 { conv := some { ch := 3 } }).slice 2).conv = some { ch := 3 } ∧
      ({ ch := 3 } : Conv).clamp = none ∧ ((all.setSlice 2 { conducting := true }).slice 2).conducting = true ∧
      (all.slice 2).conducting = false ∧ (all.arm (.recovery 2) 5).dueOf (.recovery 2) = some 5 ∧
      ((all.arm (.recovery 2) 5).slice 2).injDue = false ∧ (all.slice 2).holding = false ∧
      (((all.setSlice 2 { holding := true }).arm (.recovery 2) 5).slice 2).holding = true ∧ all.dueOf (.recovery 2) = none ∧ tethered.measRuns = false ∧
      tethered.inTether = true ∧ dark.measRuns = false ∧ dark.inTether = false := by decide

/-- S4 on the island: a conversion in progress, a hold that counts, one that waits for its release. -/
theorem witness_InputProtection_island :
    let s (t : Tether) : State := { tethered with tether := t }
    (s { conv := some {} }).tether.conv = some {} ∧ tethered.tether.holding = false ∧
      ((s { holding := true }).arm .tetherHold 99).dueOf .tetherHold = some 99 ∧ (s { holding := true }).tether.holding = true ∧
      (s { clamped := some true, holding := true }).tether.clamped ≠ none ∧ tethered.dueOf .tetherHold = none ∧ tethered.inTether = true ∧
      (4 : SliceId).val = 4 := by decide

theorem witness_ExcitationAndReference :
    all.measRuns = true ∧ all.on .excite = true ∧
      vget ({ all with excMode := vset all.excMode 1 1 } : State).excMode (1 : GroupId) 0 = 1 ∧
      vget ({ all with excMode := vset all.excMode 1 2 } : State).excMode (1 : GroupId) 0 = 2 ∧
      (Fld.EXC_STATUS_ON.bit 1).on ((all.setFld Reg.EXC_STATUS (Fld.EXC_STATUS_ON.bit 1) 1).reg Reg.EXC_STATUS) = true ∧
      all.hostOpen Reg.REF_CTL = true ∧ all.locked = false ∧ all.flag Reg.REF_CTL Fld.REF_CTL_BUF_EN = false ∧
      (all.setFld Reg.REF_CTL Fld.REF_CTL_BUF_EN 1).flag Reg.REF_CTL Fld.REF_CTL_BUF_EN = true ∧
      (all.arm .refSettle 9).dueOf .refSettle = some 9 ∧ ready.refReady = true ∧ all.refReady = false := by decide

theorem witness_ResultRange :
    (0x78000000 : Int).natAbs ≤ 0x78000000 ∧ (-0x78000000 : Int).natAbs ≤ 0x78000000 := by decide

/-- An idle slice; one with the first half of a pair; one with a single regular conversion. -/
theorem witness_ConversionEnds :
    all.measRuns = true ∧ all.on .core = true ∧ (all.slice 4).ended = none ∧ (all.slice 4).conv = none ∧
      ((all.setSlice 4 { conv := some { ch := 0x13, half := 1 } }).slice 4).conv = some { ch := 0x13, half := 1 } ∧
      ((all.setSlice 4 { conv := some { ch := 0x13 } }).slice 4).conv = some { ch := 0x13 } ∧
      ({ ch := 0x13 } : Conv).inj = false ∧ ({ ch := 0x13 } : Conv).half = 0 ∧ ({ ch := 0x13 } : Conv).avgK = 0 ∧
      ((all.setSlice 4 { conv := some { ch := 0x13, inj := true, due := 9 } }).slice 4).conv = some { ch := 0x13, inj := true, due := 9 } := by
  decide

/-- The second half of a pair with its partner and without; a conversion a boundary has ended; a sum that its fourth conversion completes,
and one that it does not; a running sequence in continuous mode. -/
theorem witness_ConversionEnds_delivery :
    let c : Conv := { ch := 0x12, half := 2 }
    let pair := all.setSlice 2 { conv := some c, half := some (0x1000, {}) }
    let avg : Conv := { ch := 0x12, avgK := 2, avgShift := 2 }
    let sum (n : Nat) : State := { all.setSlice 2 { ended := some avg } with accs := [{ ch := 0x12, sum := 77, n }] }
    (pair.slice 2).ended = none ∧ (pair.slice 2).conv = some c ∧ (pair.slice 2).half = some (0x1000, {}) ∧ c.inj = false ∧
      ((all.setSlice 2 { conv := some c }).slice 2).half = none ∧ ((sum 3).slice 2).ended = some avg ∧ avg.avgK ≠ 0 ∧
      (((sum 3).accs.find? fun x => x.ch == avg.ch).getD { ch := avg.ch }).n + 1 = 2 ^ avg.avgK ∧
      (((sum 2).accs.find? fun x => x.ch == avg.ch).getD { ch := avg.ch }).n + 1 < 2 ^ avg.avgK ∧
      ((sum 2).setFld Reg.SEQ_CTL Fld.SEQ_CTL_MODE 1).flag Reg.SEQ_CTL Fld.SEQ_CTL_MODE = true ∧ avg.closes = false ∧
      (all.setFld (Reg.SPOOL_CTL 0) Fld.SPOOL_CTL_EN 1).spoolOn 0 = true := by decide

/-! ### Sequences and spools -/

theorem witness_RegularSequence :
    all.hostOpen Reg.SEQ_CTL = true ∧ ready.hostOpen Reg.SEQ_CTL = true ∧ (Fld.PAD_STATUS_DOMAIN.bit 1).on (all.reg Reg.PAD_STATUS) = false ∧
      (Fld.PAD_STATUS_DOMAIN.bit 1).on ((all.setFld Reg.PAD_STATUS (Fld.PAD_STATUS_DOMAIN.bit 1) 1).reg Reg.PAD_STATUS) = true ∧
      ({ all with seq := { inReset := true } } : State).seq.inReset = true ∧
    all.measRuns = true ∧ all.seq.inReset = false ∧ (all.setFld Reg.SEQ_STATUS Fld.SEQ_STATUS_RUNNING 1).seqRunning = true ∧
      all.seqRunning = false ∧ all.refUsable = false ∧ ready.refUsable = true ∧ ready.seqRunning = false ∧ dark.measRuns = false ∧
      edgeTaken ((all.setFld Reg.SEQ_CTL Fld.SEQ_CTL_TRIG0_EDGE 1).fld Reg.SEQ_CTL Fld.SEQ_CTL_TRIG0_EDGE) true = true ∧
      edgeTaken ((all.setFld Reg.SEQ_CTL Fld.SEQ_CTL_TRIG0_EDGE 2).fld Reg.SEQ_CTL Fld.SEQ_CTL_TRIG0_EDGE) false = true ∧
      edgeTaken ((all.setFld Reg.SEQ_CTL Fld.SEQ_CTL_TRIG0_EDGE 1).fld Reg.SEQ_CTL Fld.SEQ_CTL_TRIG0_EDGE) false = false := by decide

/-- The sequences' turn at a boundary, when the sequence runs: a second half due on its slice; a free slice for an entry that kept its place,
for a requeued one, for the working list's next one, and for entry 0 of a fresh copy. -/
theorem witness_RegularSequence_boundary :
    let s (q : Seq) (rev : Nat) : State := { (((ready.setFld Reg.SEQ_STATUS Fld.SEQ_STATUS_RUNNING 1).setFld (Reg.SEQ_ENTRY 0)
      Fld.SEQ_ENTRY_CHANNEL 5).setFld (Reg.EXC_CTL 1) Fld.EXC_CTL_REVERSE rev).setFld Reg.SEQ_CTL Fld.SEQ_CTL_MODE 1 with seq := q }
    let at_ (s : State) : State := (s.toFrameEnd.lateWrites frameAddr).framePrepare.injBoundary
    let half := at_ ((s {} 1).setSlice 0 { resv := some (1, 5) })
    let late := at_ (s { deferred := [(1, 5)] } 1)
    let again := at_ (s { requeued := [(1, 5)] } 0)
    let next := at_ (s { list := [5, 6], next := 1 } 0)
    let first := at_ (s { fresh := true } 0)
    (s {} 1).measRuns = true ∧ (s {} 1).islandFirst = false ∧
      (∀ u ∈ [half, late, again, next, first], u.on .core = true ∧ u.seqRunning = true ∧ u.seq.inReset = false ∧ u.holdCase 0 ≠ none) ∧
      (half.slice 0).resv = some (1, 5) ∧ half.groupReverses 5 = true ∧
      (∀ u ∈ [late, again, next, first], u.freeSlices.head? = some 0 ∧ (∀ j, j < 5 → (u.slice j).resv = none) ∧ u.muxFree 0 5 = true) ∧
      channelOk 5 = true ∧ late.groupReverses 5 = true ∧ late.frameOdd = false ∧ late.seq.deferred = [(1, 5)] ∧
      again.seq.deferred = [] ∧ again.seq.requeued = [(1, 5)] ∧ next.seq.fresh = false ∧ next.seq.list[1]? = some 6 ∧ next.seq.next = 1 ∧
      next.seq.deferred = [] ∧ next.seq.requeued = [] ∧ first.seq.fresh = true ∧ first.listNow.head? = some 5 ∧
      first.flag Reg.SEQ_CTL Fld.SEQ_CTL_MODE = true := by decide +kernel

/-- Entry 0 of a SINGLE pass that kept its place until an even boundary (R77, R83). -/
theorem witness_RegularSequence_single :
    let s : State := { ((ready.setFld Reg.SEQ_STATUS Fld.SEQ_STATUS_RUNNING 1).setFld (Reg.EXC_CTL 1) Fld.EXC_CTL_REVERSE 1) with
                       seq := { deferred := [(0, 5)], list := [5, 6], next := 2 } }
    let u := (s.toFrameEnd.lateWrites frameAddr).framePrepare.injBoundary
    u.on .core = true ∧ u.seqRunning = true ∧ u.holdCase 0 ≠ none ∧ u.freeSlices.head? = some 0 ∧ u.muxFree 0 5 = true ∧
      u.groupReverses 5 = true ∧ u.frameOdd = false ∧ u.seq.deferred = [(0, 5)] ∧ u.flag Reg.SEQ_CTL Fld.SEQ_CTL_MODE = false := by
  decide +kernel

/-- No reference; one pending; both preemptions with a list that can run; a list without a channel. -/
theorem witness_Injected_start :
    let bad := (List.range 8).foldl (fun s i => s.setFld (Reg.INJ_ENTRY i) Fld.INJ_ENTRY_CHANNEL 0x3F) ready
    let list (s : State) := (List.range (clampNat 1 8 (s.fld Reg.INJ_CFG Fld.INJ_CFG_LEN))).map fun i => s.fld (Reg.INJ_ENTRY i)
      Fld.INJ_ENTRY_CHANNEL
    all.hostOpen Reg.INJ_CTL = true ∧ ready.hostOpen Reg.INJ_CTL = true ∧ ready.measRuns = true ∧ ready.seq.inReset = false ∧
    all.refUsable = false ∧ ready.refUsable = true ∧ ready.inj.phase = .idle ∧
      ({ ready with inj := { phase := .running } } : State).inj.phase ≠ .idle ∧
      (ready.setFld Reg.INJ_CTL Fld.INJ_CTL_PREEMPT 0).flag Reg.INJ_CTL Fld.INJ_CTL_PREEMPT = false ∧
      (ready.setFld Reg.INJ_CTL Fld.INJ_CTL_PREEMPT 1).flag Reg.INJ_CTL Fld.INJ_CTL_PREEMPT = true ∧
      (list ready).any channelOk = true ∧ (list bad).any channelOk = false ∧ bad.refUsable = true := by decide

/-- A slice that may start at once; one held; one held under FAST_SEQ; both diagnostic muxes taken by other slices on other channels. -/
theorem witness_Injected_integration :
    let s := all.setSlice 3 { injNext := some 0, injRole := true, holding := true }
    let u := (({ all.setSlice 3 { injNext := some 0, injRole := true } with inj := { list := [0x41] } } : State).setSlice 1
      { conv := some { ch := 0x40 } }).setSlice 2 { conv := some { ch := 0x42 } }
    s.muxFree 3 (nth s.inj.list 0 0) = true ∧ u.muxFree 3 (nth u.inj.list 0 0) = false ∧ (u.slice 3).injNext = some 0 ∧
      (u.slice 3).injRole = true ∧ (u.slice 3).conv = none ∧ (u.slice 3).holding = false ∧
    ((all.setSlice 3 { injNext := some 0, injRole := true }).slice 3).holding = false ∧ (s.slice 3).injNext = some 0 ∧
      (s.slice 3).injRole = true ∧ (s.slice 3).conv = none ∧ (s.slice 3).inReset = false ∧ (s.slice 3).conducting = false ∧
      (s.slice 3).holding = true ∧ s.flag Reg.CONV_CTL Fld.CONV_CTL_FAST_SEQ = false ∧
      (s.setFld Reg.CONV_CTL Fld.CONV_CTL_FAST_SEQ 1).flag Reg.CONV_CTL Fld.CONV_CTL_FAST_SEQ = true := by decide

/-- An AFTER start at its boundary, with free slices of which the highest is S3, and with none. -/
theorem witness_Injected_boundary :
    let s : State := { ready with inj := { phase := .waitBoundary, list := [5], pool := [0], want := 1 } }
    let at_ (s : State) : State := (s.toFrameEnd.lateWrites frameAddr).framePrepare
    let u := at_ s
    let full := at_ (iterate 5 (fun i s => s.setSlice i { resv := some (0, 5) }) s)
    s.measRuns = true ∧ s.islandFirst = false ∧ u.inj.phase = .waitBoundary ∧ u.on .core = true ∧ u.freeSlices.reverse.head? = some 3 ∧
      u.inj.want = 1 ∧ u.inj.pool = [0] ∧ channelOk (nth u.inj.list 0 0) = true ∧ u.holdCase 3 ≠ none ∧
      u.muxFree 3 (nth u.inj.list 0 0) = true ∧ full.inj.phase = .waitBoundary ∧ full.freeSlices = [] := by decide +kernel

/-- A spool that may be enabled; one misaligned; one with room; one exactly full, under each policy. -/
theorem witness_Spools :
    let one := (all.setFld (Reg.SPOOL_CTL 0) Fld.SPOOL_CTL_EN 1)
    let full := one.setReg (Reg.SPOOL_WP 0) 16
    all.hostOpen (Reg.SPOOL_CTL 0) = true ∧ one.hostOpen (Reg.SPOOL_CTL 0) = true ∧
      one.flag (Reg.SPOOL_CTL 0) Fld.SPOOL_CTL_EN = true ∧ (List.replicate (spoolEntryLen 0) (7 : Byte)).length = spoolEntryLen 0 ∧
    all.locked = false ∧ all.flag (Reg.SPOOL_CTL 0) Fld.SPOOL_CTL_EN = false ∧ all.spoolRefuses 0 = false ∧
      (all.setReg (Reg.SPOOL_BASE 0) 0x800020).spoolRefuses 0 = true ∧ one.spoolOn 0 = true ∧ all.spoolOn 0 = false ∧
      vget one.spoolRst (0 : SpoolId) false = false ∧ one.spoolFill 0 < 2 ^ (one.spoolGeom 0).2 ∧
      full.spoolFill 0 = 2 ^ (full.spoolGeom 0).2 ∧
      (full.setFld (Reg.SPOOL_CTL 0) Fld.SPOOL_CTL_POLICY 0).flag (Reg.SPOOL_CTL 0) Fld.SPOOL_CTL_POLICY = false ∧
      (full.setFld (Reg.SPOOL_CTL 0) Fld.SPOOL_CTL_POLICY 1).flag (Reg.SPOOL_CTL 0) Fld.SPOOL_CTL_POLICY = true ∧
      3 ≤ (one.spoolGeom 0).2 := by decide

/-- Spool 2's schedule: a tick that is a multiple of DIV and one that is not; port 7 alone enabled; room for its entry. -/
theorem witness_Spools_loop :
    let s := ((all.setFld (Reg.SPOOL_CTL 2) Fld.SPOOL_CTL_EN 1).setFld Reg.SPOOL2_SRC Fld.SPOOL2_SRC_DIV 3).setFld Reg.SPOOL2_SRC
      (Fld.SPOOL2_SRC_PORT_EN.bit 7) 1
    let on (n : Nat) : Bool := (Fld.SPOOL2_SRC_PORT_EN.bit n).on (s.reg Reg.SPOOL2_SRC) && s.portPowered n
    6 % clampNat 1 1000 (s.fld Reg.SPOOL2_SRC Fld.SPOOL2_SRC_DIV) = 0 ∧ 7 % clampNat 1 1000 (s.fld Reg.SPOOL2_SRC Fld.SPOOL2_SRC_DIV) ≠ 0 ∧
      (∀ m, m < 16 → (on m = true ↔ m = (7 : PortId).val)) ∧ s.spoolOn 2 = true ∧ vget s.spoolRst 2 false = false ∧
      s.spoolFill 2 + (List.range 16).countP on ≤ 2 ^ (s.spoolGeom 2).2 ∧ s.on .core = true := by decide +kernel

/-! ### Calibration -/

theorem witness_MeasPowersUp : State.reset.on .meas = false := by decide

/-- Codes that pass every test of a run, and a run in which the protection conducted. -/
def goodPoints : CalPoints := ⟨[0], [0x40000000], [-0x40000000], [0x20000000], false⟩

theorem witness_CalibrationRuns :
    let s := { ready with timers := [(.calRun, 7)], reel := { run := some true } }
    ready.offline < 5 ∧ ready.measRuns = true ∧ ready.reel.run = some false ∧ ready.refReady = true ∧ all.refReady = false ∧
      s.dueOf .calRun = some 7 ∧ s.reel.run = some true ∧ (s.slice s.offline).trimReq = none ∧
      s.runTest s.offline { goodPoints with clamp := true } 0 0 = some 7 ∧ (all.candidate).isSome = true := by decide

/-- The Reel at a boundary: an automatic step that is due, a manual request, and nothing due; staged values of a run that is done. -/
theorem witness_CalibrationRuns_step :
    let s (done : Nat) (rq : List Nat) : State := { ((ready.setFld Reg.REEL_STATUS Fld.REEL_STATUS_RUN_DONE done).setFld Reg.REEL_CTL
      Fld.REEL_CTL_EN 1).setFld (Reg.SLICE_CAL_STATUS 4) Fld.SLICE_CAL_STATUS_STAGED 1 with ck := 2 ^ 62, reel := { requests := rq } }
    (∀ x ∈ [s 1 [], s 0 [2], s 0 []], x.measRuns = true ∧ x.islandFirst = false ∧ x.late = [] ∧ x.offline = 4 ∧ x.seq.inReset = false ∧
      x.reel.restart = false ∧ x.cal.restoreFrame = false ∧
      (∀ i, i < 5 → (x.slice i).inReset = false ∧ (x.slice i).trimReq = none ∧ (x.slice i).restore = none)) ∧
      (s 1 []).flag Reg.REEL_CTL Fld.REEL_CTL_EN = true ∧ (s 1 []).flag Reg.REEL_STATUS Fld.REEL_STATUS_RUN_DONE = true ∧
      (s 0 []).flag Reg.REEL_STATUS Fld.REEL_STATUS_RUN_DONE = false ∧
      (s 1 []).reel.offlineSince / 16 + (s 1 []).reelPeriod * 12288000 ≤ (s 1 []).toFrameEnd.ck / 16 ∧ (s 1 []).candidate = some (0, 0) ∧
      ((s 1 []).slice 0).resv = none ∧ (s 0 [2]).reel.requests = [2] ∧ (s 0 [2]).requestWaits 2 = false ∧ (s 1 []).trimStaged 4 = true ∧
      (((s 1 []).setSlice 0 { conv := some { ch := 3 } }).slice 0).conv = some { ch := 3 } := by decide +kernel

theorem witness_SliceTrimCommands :
    all.measRuns = true ∧ all.hostOpen Reg.REEL_CTL = true ∧ all.hostOpen (Reg.SLICE_TRIM 4) = true ∧ all.reel.requests.Nodup ∧
      (unclocked all .md).measRuns = false ∧ (unclocked all .md).hostOpen Reg.REEL_CTL = true ∧
      (unclocked all .md).hostOpen (Reg.SLICE_TRIM 4) = true := by decide

theorem witness_OutputTrims :
    all.hostOpen (Reg.LOOP_TRIM_CTL 2) = true ∧ all.hostOpen (Reg.LOOP_TRIM 2) = true ∧
      (unclocked all .ld0).hostOpen (Reg.LOOP_TRIM_CTL 2) = true ∧ (unclocked all .ld0).hostOpen (Reg.LOOP_TRIM 2) = true ∧
      (unclocked all .ld0).portRuns 2 = false ∧ all.portRuns 2 = true ∧ all.trimRunning 2 = false ∧
      (all.setFld (Reg.LOOP_TRIM_STATUS 2) Fld.LOOP_TRIM_STATUS_RUNNING 1).trimRunning 2 = true ∧
      (all.setFld (Reg.LOOP_TRIM_STATUS 2) Fld.LOOP_TRIM_STATUS_STAGED 1).flag (Reg.LOOP_TRIM_STATUS 2) Fld.LOOP_TRIM_STATUS_STAGED = true ∧
      all.flag (Reg.LOOP_TRIM_STATUS 2) Fld.LOOP_TRIM_STATUS_STAGED = false ∧
      ((all.setPort 2 { trimRun := some { tick := 150 } }).port 2).trimRun = some { tick := 150 } ∧
      ((all.setPort 2 { trimRun := some { tick := 301, back := true } }).port 2).trimRun = some { tick := 301, back := true } ∧
      ({ begun := true } : TrimRun).begun = true ∧ ({} : TrimRun).begun = false ∧ (all.port 2).cutDue = false ∧
      ((all.setPort 2 { trimRun := some {}, cutDue := true }).port 2).cutDue = true ∧
      (all.setFld (Reg.LOOP_TRIM_CTL 2) Fld.LOOP_TRIM_CTL_COMMIT 1).flag (Reg.LOOP_TRIM_CTL 2) Fld.LOOP_TRIM_CTL_COMMIT = true ∧
      (all.setFld (Reg.LOOP_TRIM_CTL 2) Fld.LOOP_TRIM_CTL_COMMIT 0).flag (Reg.LOOP_TRIM_CTL 2) Fld.LOOP_TRIM_CTL_COMMIT = false := by
  decide

/-- Samples of an output trim that a disturbance rejects, and samples at the two points that pass. -/
theorem witness_OutputTrims_result :
    let good : TrimRun := { tick := 301, lo := List.replicate 100 8000, hi := List.replicate 100 40000 }
    trimTest { good with upset := true } 0 0 = some 0x10 ∧
      trimTest good (trimOffset 0 (sumInt good.lo) (sumInt good.hi)) (trimGain 0 (sumInt good.lo) (sumInt good.hi)) = none := by
  decide +kernel

theorem witness_BandGapCheck :
    (all.arm (.bgCheck 1) 4).dueOf (.bgCheck (1 : LdId)) = some 4 ∧ all.dueOf (.bgCheck (1 : LdId)) = none ∧
      all.flag (Reg.BG_CHECK 1) Fld.BG_CHECK_DISAGREE = false := by decide

/-- A staged block of reset contents that passes every check of RESTORE: its magic, version and length, and its check word. -/
def goodBlock : State :=
  let s := (all.setReg (Reg.CAL_STAGE 0) 0xCA1B1696).setReg (Reg.CAL_STAGE 1) 0x021C0001
  s.setReg (Reg.CAL_STAGE 134) (crc32c (s.calStage.take 0x218))

theorem witness_CalibrationBlock :
    all.on .core = true ∧ all.calBusy = false ∧ all.anyTrim = false ∧
      (all.setFld Reg.CAL_BLOCK_STATUS Fld.CAL_BLOCK_STATUS_BUSY 1).calBusy = true ∧
      ({ all with cal := { exportReq := true } } : State).cal.exportReq = true ∧ all.cal.exportReq = false ∧
      all.calRefusal all.calStage = some 0x20 := by decide +kernel

/-- A captured image, on the edge of the present instant and on an earlier one. -/
theorem witness_CalibrationBlock_image :
    let s (at_ : Nat) : State := { all with ck := 5, cal := { image := some (at_, [9]) } }
    (s 5).cal.image = some ((s 5).ck, [9]) ∧ (s 4).cal.image = some (4, [9]) ∧ 4 ≠ (s 4).ck ∧ all.cal.image = none := by decide

set_option maxRecDepth 20000 in
theorem witness_CalibrationBlock_passes : goodBlock.calRefusal goodBlock.calStage = none := by decide +kernel

/-! ### Process ports -/

/-- A port within reach and one out of it; each role a port may take and each it may not; a set-point at 48000 and one above. -/
theorem witness_PortWrites :
    all.portWritable 0 = true ∧ all.portWritable 15 = true ∧ (unlinked all .ld3).portWritable 15 = false ∧ all.locked = false ∧
      (shut all).locked = true ∧ (shut all).fld (Reg.PORT_CTL 1) Fld.PORT_CTL_ROLE ≠ (3 : BitVec 4).toNat ∧
      4 < (5 : BitVec 4).toNat ∧ ((4 : BitVec 4).toNat = 4 ∧ (1 : PortId) ≠ 0) ∧ ((4 : BitVec 4).toNat = 4 ∧ (0 : PortId) = 0) ∧
      (3 : BitVec 4).toNat < 4 ∧ Fld.LOOP_SET_VALUE.get 48000 = 48000 ∧ 48000 < Fld.LOOP_SET_VALUE.get 48001 ∧
      ((all.setFld (Reg.PORT_STATUS 1) Fld.PORT_STATUS_MISWIRE 1).setFld (Reg.PORT_PROT 1) Fld.PORT_PROT_MISWIRE_RETRY 0).switchesOpen 1 = true ∧
      ((all.setFld (Reg.PORT_STATUS 1) Fld.PORT_STATUS_MISWIRE 1).setFld (Reg.PORT_PROT 1) Fld.PORT_PROT_MISWIRE_RETRY 0).fld
        (Reg.PORT_PROT 1) Fld.PORT_PROT_MISWIRE_RETRY = 0 := by decide

/-- R127: a set-point of 50000 is held to 48000. -/
theorem test_set_range :
    (match exec (.loopSetWrite 3 50000) all with
     | .next t => (t.fld (Reg.LOOP_SET 3) Fld.LOOP_SET_VALUE, t.flag (Reg.PORT_EVENT 3) Fld.PORT_EVENT_SET_RANGE)
     | _ => (0, false)) = (48000, true) := by decide +kernel

theorem witness_Miswiring :
    let bad := (inRole 5 1).setFld (Reg.PORT_STATUS 5) Fld.PORT_STATUS_MISWIRE 1
    (inRole 5 1).portPowered 5 = true ∧ (inRole 5 1).roleActive 5 ≠ 0 ∧ (inRole 5 1).switchesOpen 5 = false ∧ dark.portPowered 5 = false ∧
      bad.switchesOpen 5 = true ∧ bad.portWritable 5 = true ∧ bad.hostOpen (Reg.PORT_CTL 5) = true ∧
      ((bad.setPort 5 { openAt := some 3 }).port 5).openAt = some 3 ∧ (bad.setPort 5 { openAt := some 3 }).switchesOpen 5 = true ∧
      bad.fld (Reg.PORT_PROT 5) Fld.PORT_PROT_MISWIRE_RETRY ≠ 0 ∧ bad.fsCause 5 = false ∧
      (bad.setPort 5 { ckLat := true }).fsCause 5 = true ∧ (bad.arm (.miswireProbe 5) 3).dueOf (.miswireProbe (5 : PortId)) = some 3 ∧
      (bad.arm (.miswireProbe 5) 3).roleActive 5 ≠ 0 ∧ isOut (bad.roleActive 5) = true ∧ bad.dueOf (.miswireProbe (5 : PortId)) = none ∧
      (bad.probeStart 5).switchesOpen 5 = false ∧ (bad.probeStart 5).portPowered 5 = true ∧ (bad.probeStart 5).roleActive 5 ≠ 0 ∧
      ((bad.probeStart 5).dueOf (.miswireProbe (5 : PortId))).isSome = true := by
  decide

theorem witness_PortProtection :
    let s := (inRole 6 3).setFld (Reg.PORT_CTL 6) Fld.PORT_CTL_SUPPLY_EN 1
    let short := (s.setFld (Reg.PORT_STATUS 6) Fld.PORT_STATUS_SHORT 1).arm (.shortRetry 6) 8
    s.portRuns 6 = true ∧ s.roleActive 6 = 3 ∧ s.flag (Reg.PORT_CTL 6) Fld.PORT_CTL_SUPPLY_EN = true ∧ s.switchesOpen 6 = false ∧
      s.flag (Reg.PORT_STATUS 6) Fld.PORT_STATUS_SHORT = false ∧ short.dueOf (.shortRetry (6 : PortId)) = some 8 ∧
      short.flag (Reg.PORT_STATUS 6) Fld.PORT_STATUS_SHORT = true ∧ s.on .core = true ∧
      s.flag (Reg.PORT_STATUS 6) Fld.PORT_STATUS_THERMAL = false ∧ (s.port 6).ckLat = false ∧ all.supplyOn 6 = false := by decide

/-- The timeout at its last tick and one tick before it. -/
theorem witness_KeeperCommands :
    all.runs (ldDie (2 : LdId)) = true ∧ all.hostOpen (Reg.KEEPER_KICK 2) = true ∧
      all.keeperTmo 2 ≤ ((all.setKeeper 2 { sinceTake := all.keeperTmo 2 }).keeper 2).sinceTake ∧
      (all.setKeeper 2 { sinceTake := all.keeperTmo 2 }).keeperTmo 2 = all.keeperTmo 2 ∧
      ((all.setKeeper 2 { sinceTake := all.keeperTmo 2 - 1 }).keeper 2).sinceTake < all.keeperTmo 2 := by decide

/-! ### Elvan tone -/

theorem witness_ToneFrameReads : (List.replicate 64 (0xA5 : Byte)).length ≤ 64 ∧ (1 : Byte) ≠ 0 ∧ (1 : Byte) ≠ 0xFF ∧
    (0x2F : Byte).toNat / 16 % 8 < 3 ∧ [(0 : Byte), 0] ≠ (toneFrame 2 1 0x2F []).drop 4 := by decide +kernel

/-- A modem that receives; one with a carrier; one whose sync word is awaited; one that hears a frame; one that sends, and so does not
receive; one that does not live. -/
theorem witness_ToneReception :
    let heard := ((toneOn.setFld (Reg.MODEM_STATUS 1) Fld.MODEM_STATUS_CARRIER 1).setModem 1 { hearing := true })
    heard.canReceive 1 = true ∧ (heard.modem 1).hearing = true ∧ heard.flag (Reg.MODEM_STATUS 1) Fld.MODEM_STATUS_CARRIER = true ∧
      heard.modemLive 1 = true ∧ toneOn.hostOpen (Reg.MODEM_CTL 1) = true ∧ toneOn.portRuns 1 = true ∧
      (unclocked toneOn .ld0).hostOpen (Reg.MODEM_CTL 1) = true ∧ (unclocked toneOn .ld0).portRuns 1 = false ∧
    let sends := toneOn.setFld (Reg.MODEM_STATUS 1) Fld.MODEM_STATUS_TX_ACTIVE 1
    toneOn.modemLive 1 = true ∧ sends.modemLive 1 = true ∧ sends.canReceive 1 = false ∧
      sends.flag (Reg.MODEM_STATUS 1) Fld.MODEM_STATUS_CARRIER = false ∧ dark.modemLive 1 = false ∧
      ((toneOn.setModem 1 { hearing := true }).modem 1).hearing = true ∧ (toneOn.setModem 1 { hearing := true }).canReceive 1 = true ∧
      (toneOn.modem 1).hearing = false ∧
    toneOn.canReceive 1 = true ∧ toneOn.flag (Reg.MODEM_STATUS 1) Fld.MODEM_STATUS_CARRIER = false ∧
      (toneOn.setFld (Reg.MODEM_STATUS 1) Fld.MODEM_STATUS_CARRIER 1).canReceive 1 = true ∧
      (toneOn.setFld (Reg.MODEM_STATUS 1) Fld.MODEM_STATUS_CARRIER 1).flag (Reg.MODEM_STATUS 1) Fld.MODEM_STATUS_CARRIER = true ∧
      (toneOn.arm (.modemSync 1) 4).dueOf (.modemSync (1 : PortId)) = some 4 ∧ (toneOn.arm (.modemSync 1) 4).canReceive 1 = true ∧
      all.canReceive 1 = false ∧ readTone [] false = none := by decide

/-- A response due at the boundary at which ABORT ends a wait. -/
theorem witness_ToneReception_cut :
    let s := (toneOn.setModem 1 { answer := some (2, 3, 7, [1, 2, 3]), phase := .waiting, cut := true }).arm (.modemTa 1) 20
    s.dueOf (.modemTa 1) = some 20 ∧ (s.modem 1).answer = some (2, 3, 7, [1, 2, 3]) ∧ s.canTransmit 1 = true ∧
      s.flag (Reg.MODEM_STATUS 1) Fld.MODEM_STATUS_TX_ACTIVE = false ∧ (s.modem 1).cut = true ∧ (s.modem 1).response = false := by decide

/-- A message to this device and to all; a request seen before with its stored response, and one not seen before; CORE off; a response
that is due. -/
theorem witness_ToneReception_frames :
    let f : ToneRx := ⟨1, 9, 0x25, [], crc16 [0, 1, 9, 0x25]⟩
    let g : ToneRx := ⟨1, 9, 0x05, [], crc16 [0, 1, 9, 0x05]⟩
    let t := toneOn.setModem 1 { stored := some (9, g.seq, g.crc, [0]) }
    let u := (toneOn.setModem 1 { answer := some (9, 5, 0, [0]) }).arm (.modemTa 1) 6
    readTone (toneFrame 1 9 0x25 []) false = some f ∧ toneOn.toneAddrOk 1 = true ∧ f.typ = 2 ∧ f.dst.toNat = toneOn.toneAddr 1 ∧
      toneOn.flag (Reg.MODEM_STATUS 1) Fld.MODEM_STATUS_RX_FULL = false ∧ readTone (toneFrame 1 9 0x05 []) false = some g ∧ g.typ = 0 ∧
      g.dir = false ∧ g.dst.toNat = t.toneAddr 1 ∧ t.flag (Reg.MODEM_CTL 1) Fld.MODEM_CTL_MASTER = false ∧
      (t.modem 1).stored = some (g.src, g.seq, g.crc, [0]) ∧ t.on .core = true ∧ t.inTether = false ∧ (toneOn.modem 1).stored = none ∧
      dark.on .core = false ∧ dark.inTether = false ∧ u.dueOf (.modemTa (1 : PortId)) = some 6 ∧
      (u.modem 1).answer = some (9, 5, 0, [0]) ∧ u.canTransmit 1 = true ∧
      u.flag (Reg.MODEM_STATUS 1) Fld.MODEM_STATUS_TX_ACTIVE = false := by decide +kernel

/-- P0's modem in Tether mode, and a request that is no READ (R169). -/
theorem witness_ToneReception_tether :
    let s := ((((tethered.setFld (Reg.PORT_CTL 0) Fld.PORT_CTL_ROLE 4).setFld (Reg.PORT_STATUS 0) Fld.PORT_STATUS_ROLE_ACTIVE 4).setFld
      (Reg.MODEM_CTL 0) Fld.MODEM_CTL_EN 1).setFld (Reg.MODEM_STATUS 0) Fld.MODEM_STATUS_CARRIER 1).setModem 0 { hearing := true }
    let f : ToneRx := ⟨1, 9, 0x05, [2, 1], crc16 [2, 1, 9, 0x05, 2, 1]⟩
    s.canReceive 0 = true ∧ (s.modem 0).hearing = true ∧ s.inTether = true ∧ s.toneAddrOk 0 = true ∧ (s.modem 0).stored = none ∧
      readTone (toneFrame 1 9 0x05 [2, 1]) false = some f ∧ f.typ = 0 ∧ f.dir = false ∧ f.dst.toNat = s.toneAddr 0 ∧
      s.flag (Reg.MODEM_CTL 0) Fld.MODEM_CTL_MASTER = false ∧ byteAt f.payload 0 ≠ 0x01 ∧ (s.object 0 0x600000).isSome = true := by decide +kernel

/-- R169: lane 0's STATE, whose register is lost with CORE, is answered. -/
theorem test_keeper_reads : (tethered.keeperAnswer [1, 0x60, 0, 0]).1.code = .ok ∧ (tethered.keeperAnswer [2, 0x60, 0, 0]).1.code = .busy := by
  decide +kernel

/-- R155: the check of a frame catches a byte changed. -/
theorem test_tone_crc : readTone [0, 1, 9, 0x25, 0, 0] false = none := by decide +kernel

theorem witness_ToneSending :
    let s := toneOn.setModem 1 { phase := .quiet, frame := [0], retries := 1, expect := true }
    let cut := (toneOn.setModem 1 { line := [0], cut := true }).arm (.modemTx 1) 5
    let late := s.arm (.modemQuiet 1) 0
    toneOn.hostOpen (Reg.MODEM_CTL 1) = true ∧ cut.hostOpen (Reg.MODEM_CTL 1) = true ∧ all.hostOpen (Reg.MODEM_CTL 1) = true ∧
      (unclocked toneOn .ld0).hostOpen (Reg.MODEM_CTL 1) = true ∧ (unclocked toneOn .ld0).portRuns 1 = false ∧
      (((toneOn.setModem 1 { response := true, phase := .quiet, cut := true }).arm (.modemTx 1) 5).modem 1).phase ≠ .idle ∧
    (toneOn.modem 1).cut = false ∧ (cut.modem 1).cut = true ∧ cut.dueOf (.modemTx (1 : PortId)) = some 5 ∧ cut.ck < 5 ∧
      s.quietLate 1 = false ∧ late.quietLate 1 = true ∧ (late.modem 1).phase = .quiet ∧
      (toneOn.setFld (Reg.MODEM_STATUS 1) Fld.MODEM_STATUS_TX_BUSY 1).flag (Reg.MODEM_STATUS 1) Fld.MODEM_STATUS_TX_BUSY = true ∧
    toneOn.portRuns 1 = true ∧ toneOn.sendRefused 1 = false ∧ all.sendRefused 1 = true ∧ dark.portRuns 1 = false ∧
      (s.modem 1).phase = .quiet ∧ s.flag (Reg.MODEM_STATUS 1) Fld.MODEM_STATUS_CARRIER = false ∧ s.canTransmit 1 = true ∧
      s.flag (Reg.MODEM_STATUS 1) Fld.MODEM_STATUS_TX_ACTIVE = false ∧ (s.arm (.modemTx 1) 5).dueOf (.modemTx (1 : PortId)) = some 5 ∧
      (s.modem 1).response = false ∧ (s.modem 1).expect = true ∧ (toneOn.modem 1).expect = false ∧
      ((toneOn.setModem 1 { response := true }).modem 1).response = true ∧
      (s.arm (.modemQuiet 1) 5).dueOf (.modemQuiet (1 : PortId)) = some 5 ∧ (s.arm (.modemRsp 1) 5).dueOf (.modemRsp (1 : PortId)) = some 5 ∧
      (s.modem 1).retries ≠ 0 ∧ (toneOn.modem 1).retries = 0 := by decide

/-- A port whose die has lost CK. -/
theorem witness_ToneSending_unclocked :
    (unclocked toneOn .ld0).portRuns 1 = false ∧ (unclocked toneOn .ld0).sendRefused 1 = true ∧
      (unclocked toneOn .ld0).hostOpen (Reg.MODEM_CTL 1) = true ∧ ((unclocked toneOn .ld0).modem 1).cut = false := by decide

/-! ### Object dictionary -/

/-- An engine that is busy and one that is not; objects found and not; the window busy and free; TAG written through the window. -/
theorem witness_ObjectRequests :
    let busy : State := { all with od := { inReset := true } }
    let win := ((all.setFld Reg.OD_REQ Fld.OD_REQ_ADDR 0x100100).setFld Reg.OD_REQ Fld.OD_REQ_TYPE OdType.str.num)
    let put : Except OdCode Obj → Bool := fun r => match r with | .ok o => o.put == .tag | .error _ => false
    let found : Except OdCode Obj → Bool := fun r => match r with | .ok _ => true | .error _ => false
    all.hostOpen Reg.OD_CMD = true ∧
    all.on .core = true ∧ busy.odBusy = true ∧ all.odBusy = false ∧ all.od.window = none ∧
      ({ all with od := { window := some true } } : State).od.window = some true ∧
      ({ all with od := { window := some true } } : State).odBusy = false ∧
      ({ all with od := { inReset := true, window := some false } } : State).odBusy = true ∧
      found ((all.touch .host).odCheck .host 0x100100 none) = true ∧
      found ((all.touch .host).odCheck .host 0xFFFFFF none) = false ∧
      found ((all.touch .host).odCheck .host 0xFFFFFF (some (0, []))) = false ∧
      found ((all.snapTouch .host).odCheck .host 0x100100 none) = true ∧ found ((all.snapTouch .host).odCheck .host 0xFFFFFF none) = false ∧
      (all.setFld Reg.OD_STATUS Fld.OD_STATUS_BUSY 1).flag Reg.OD_STATUS Fld.OD_STATUS_BUSY = true ∧
      all.flag Reg.OD_STATUS Fld.OD_STATUS_BUSY = false ∧
      put ((win.snapTouch .host).odCheck .host (win.fld Reg.OD_REQ Fld.OD_REQ_ADDR)
        (some (win.fld Reg.OD_REQ Fld.OD_REQ_TYPE, win.windowValue (win.fld Reg.OD_REQ Fld.OD_REQ_TYPE)))) = true := by decide +kernel

/-- A trunk and a tone source in a session of level 1, the host, and CORE off. -/
theorem witness_ObjectRequests_session :
    let p : OdPath := .trunk 5
    let q : OdPath := .tone 2 9
    let s : State := { all with od := { trunk := vset all.od.trunk 2 (some ⟨p, 1, 0⟩), tone := vset all.od.tone 2 (some ⟨q, 1, 0⟩) } }
    s.levelOf p = 1 ∧ s.levelOf q = 1 ∧ 1 ≤ s.levelOf .host ∧ (s.session p).isSome = true ∧ (s.session q).isSome = true ∧ s.od.window = none ∧
      s.odBusy = false ∧ s.on .core = true ∧ s.reachable (Reg.LOOP_SET 15) = true ∧ s.portWritable 15 = true ∧ s.loopHeld 15 = false ∧
      (match (s.touch p).odCheck p 0x000000 none with | .ok o => o.typ == .u32 | .error _ => false) = true ∧
      (match (s.touch q).odCheck q 0x000000 none with | .ok o => o.typ == .u32 | .error _ => false) = true ∧
      (match (s.touch q).odCheck q 0x400001 (some (2, [0])) with | .ok _ => false | .error c => c == .typeMismatch) = true ∧
      dark.on .core = false := by decide +kernel

theorem witness_ObjectRequests_setpoint : (48000 : BitVec 16).toNat ≤ 48000 ∧ all.reachable (Reg.LOOP_SET 15) = true ∧
    all.portWritable 15 = true ∧ all.loopHeld 15 = false := by decide

/-- A source without a challenge and one with it; keys loaded and not; a locked source; a session; the three deadlines. -/
theorem witness_Sessions :
    let p : OdPath := .trunk 5
    let keyed : State := { all with od := { keys := Vector.replicate 4 [1], auth := [{ path := p, challenge := some (3, 7) }] } }
    let out : State := { keyed with od := { keyed.od with auth := [{ path := p, locked := true, fails := [0, 0, 0] }] } }
    let open_ : State := { all with od := { trunk := vset all.od.trunk 2 (some ⟨p, 1, 0⟩) } }
    all.windowServe = all ∧ keyed.windowServe = keyed ∧ out.windowServe = out ∧
      ({ keyed with od := { keyed.od with trunk := Vector.replicate 16 (some ⟨.trunk 9, 1, 0⟩) } } : State).sessionRoom p = false ∧
      ((List.replicate 32 (0 : Byte)).length = 32 ∧ List.replicate 32 (0 : Byte) ≠ hmacSha256 (keyed.odKey 3) (keyed.authMessage p 7 3)) ∧
    ({ all with od := { inReset := true } } : State).odBusy = true ∧
      all.on .core = true ∧ dark.on .core = false ∧ all.odBusy = false ∧ p ≠ .host ∧ p ≠ .trunk 0 ∧ all.keyLoaded 1 = false ∧
      keyed.keyLoaded 3 = true ∧ (out.authOf p).locked = true ∧ (keyed.authOf p).locked = false ∧ keyed.sessionRoom p = true ∧
      (all.authOf p).challenge = none ∧ (keyed.authOf p).challenge = some (3, 7) ∧
      3 ≤ ((out.authOf p).fails.filter fun x => decide (out.ck < x + secCk 60)).length ∧ open_.trunkSlot p = some 2 ∧
      (all.arm (.sessionIdle p) 5).dueOf (.sessionIdle p) = some 5 ∧ (all.arm (.challenge p) 5).dueOf (.challenge p) = some 5 ∧
      (all.arm (.lockout p) 5).dueOf (.lockout p) = some 5 ∧ isTone (.tone 0 1) = true ∧ (1 : Byte).toNat ≤ 1 := by decide +kernel

/-- An image of no records with its header and check. -/
def emptyImage : List Byte :=
  let h : List Byte := leBytes 4 0x5A4E1696 ++ leBytes 2 1 ++ leBytes 2 0x20 ++ leBytes 4 0x24 ++ leBytes 2 0 ++ [1, 0] ++ List.replicate 16 0
  h ++ wordBytes (crc32c h)

theorem witness_SnapshotsAndKeys :
    let snap (x : Snap) : State := { all with od := { snap := x } }
    all.on .core = true ∧ all.od.window = none ∧ all.odBusy = false ∧ all.od.snap.owner = none ∧ (snap { state := 1 }).od.snap.state = 1 ∧
      all.od.snap.state ≠ 3 ∧
      (snap { state := 3, nextK := 1, image := List.replicate 256 0, owner := some .host }).od.snap.image.length = 256 * (1 : BitVec 8).toNat ∧
      (snap { state := 3 }).od.snap.headerOk = false ∧ (snap { state := 5 }).od.snap.state = 5 ∧ (snap { state := 5 }).od.snap.records = [] ∧
      (all.arm .snapOwner 3).dueOf .snapOwner = some 3 ∧ (all.setFld Reg.OD_KEY_CTL Fld.OD_KEY_CTL_LEVEL 3).keyLevel ≠ 0 ∧
      (all.setFld Reg.OD_KEY_CTL Fld.OD_KEY_CTL_LEVEL 0).keyLevel = 0 ∧ all.hostOpen Reg.OD_KEY_CTL = true := by decide +kernel

/-- A record that is refused, at its index; a set-point as the last record. -/
theorem witness_SnapshotsAndKeys_records :
    let bad : List (Nat × Nat × List Byte) := [(0xFFFFFF, 3, [0, 0])]
    let set : List (Nat × Nat × List Byte) := [(0x400001 + 0x100 * (15 : PortId).val, 3, leBytes 2 48000)]
    ((all.snapTouch .host).scanRecords 0 bad).isSome = true ∧ (all.snapTouch .host).scanRecords 0 set = none ∧
      all.reachable (Reg.LOOP_SET 15) = true ∧ all.portWritable 15 = true := by decide +kernel

theorem witness_SnapshotsAndKeys_apply :
    let s : State := { all with od := { snap := { state := 3, nextK := 1, image := emptyImage, owner := some .host } } }
    s.odBusy = false ∧ s.od.snap.owner = some .host ∧ s.od.snap.state = 3 ∧ s.od.snap.headerOk = true ∧
      (s.snapTouch .host).scanRecords 0 s.od.snap.records = none := by decide +kernel

/-! ### Lanes -/

theorem witness_LaneCommands :
    let good := all.setFld (Reg.BLK_CFG 3 0) Fld.BLK_CFG_TYPE 1
    let at_ (x : Nat) := all.setFld (Reg.LANE_STATUS 3) Fld.LANE_STATUS_STATE x
    all.hostOpen (Reg.LANE_CTL 3) = true ∧ all.on .core = true ∧ good.laneState 3 = 0 ∧ good.laneCheck 3 = 0 ∧ all.laneState 3 = 0 ∧ all.laneCheck 3 ≠ 0 ∧
      (all.lower (Reg.LANE_CTL 3) Fld.LANE_CTL_FAULT_FS).flag (Reg.LANE_CTL 3) Fld.LANE_CTL_FAULT_FS = false ∧ (at_ 1).laneState 3 = 1 ∧ (at_ 2).laneState 3 = 2 ∧
      (at_ 2).fld Reg.GUARD_STATUS Fld.GUARD_STATUS_MISMATCH = 0 ∧
      ((at_ 2).setFld Reg.GUARD_STATUS Fld.GUARD_STATUS_MISMATCH 1).fld Reg.GUARD_STATUS Fld.GUARD_STATUS_MISMATCH ≠ 0 ∧
      dark.on .core = false := by decide +kernel

/-- Triggers: lane 3 in RUN with PERIOD 7 and PHASE 1, at tick counts that are due and not; in the queue and not; under TRIG 1 with an SRC block
of kind 2, channel 1, or of kind 3, which packs its source above four bits. -/
theorem witness_LaneCommands_triggers :
    let s := (all.setFld (Reg.LANE_STATUS 3) Fld.LANE_STATUS_STATE 1).setReg (Reg.LANE_PERIOD 3) 0x00010007
    let src (kind p : Nat) : State := ((((s.setFld (Reg.LANE_CFG 3) Fld.LANE_CFG_TRIG 1).setFld (Reg.LANE_CFG 3) Fld.LANE_CFG_TRIG_BLK 2).setFld
      (Reg.BLK_CFG 3 2) Fld.BLK_CFG_TYPE 1).setFld (Reg.BLK_CFG 3 2) Fld.BLK_CFG_OPT kind).setLane 3
      { s.lane 3 with blk := vset (s.lane 3).blk 2 { params := [BitVec.ofNat 32 p] } }
    let per := clampNat 1 10000 (s.fld (Reg.LANE_PERIOD 3) Fld.LANE_PERIOD_PERIOD_MS)
    s.fld (Reg.LANE_CFG 3) Fld.LANE_CFG_TRIG ≠ 1 ∧ 8 % per = s.fld (Reg.LANE_PERIOD 3) Fld.LANE_PERIOD_PHASE_MS % per ∧
      7 % per ≠ s.fld (Reg.LANE_PERIOD 3) Fld.LANE_PERIOD_PHASE_MS % per ∧ s.on .core = true ∧ s.laneActive 3 = true ∧
      all.laneActive 3 = false ∧ 3 ∉ s.actQueue ∧ 3 ∈ ({ s with actQueue := [3] } : State).actQueue ∧
      (src 2 1).fld (Reg.LANE_CFG 3) Fld.LANE_CFG_TRIG = 1 ∧ (src 2 1).blkType 3 2 = 1 ∧ (src 2 1).blkOpt 3 2 % 8 = 2 ∧
      ((src 2 1).blkParam 3 2 0).toNat = 1 ∧ (src 3 16).blkOpt 3 2 % 8 = 3 ∧ ((src 3 16).blkParam 3 2 0).toNat / 16 = 1 ∧
      (src 2 1).laneActive 3 = true := by decide +kernel

theorem witness_LaneConfiguration :
    let run := all.setFld (Reg.LANE_STATUS 3) Fld.LANE_STATUS_STATE 1
    let lot := all.setFld (Reg.LOT_STATUS 4) Fld.LOT_STATUS_VALID 1
    (5 : Word) &&& blkCfgMask ≠ all.reg (Reg.BLK_CFG 3 11) ∧ all.locked = false ∧ (shut all).locked = true ∧ all.laneState 3 = 0 ∧
      run.laneState 3 ≠ 0 ∧ Fld.BLK_CFG_TYPE.get 5 ≠ all.blkType 3 11 ∧
      Fld.BLK_CFG_TYPE.get (blkCfgMask &&& 0xFFFFFF00) = all.blkType 3 11 ∧
      (blkCfgMask &&& 0xFFFFFF00) &&& blkCfgMask ≠ all.reg (Reg.BLK_CFG 3 11) ∧
      lot.flag (Reg.LOT_STATUS 4) Fld.LOT_STATUS_VALID = true ∧ all.flag (Reg.LOT_STATUS 4) Fld.LOT_STATUS_VALID = false := by decide

theorem witness_LaneActivation :
    let s : State := { all with actQueue := [3, 9] }
    s.on .core = true ∧ s.pwr.pfwActive = false ∧ s.actQueue.head? = some (3 : LaneId).val ∧ s.actQueue.head? ≠ some (9 : LaneId).val ∧
      (∀ m ∈ s.actQueue, (s.lane m).dueAt = s.ck) ∧ s.actQueue.Pairwise (· < ·) ∧ (5 : LaneId).val ∉ s.actQueue ∧
      (all.lower (Reg.LANE_CTL 3) Fld.LANE_CTL_FAULT_FS).flag (Reg.LANE_CTL 3) Fld.LANE_CTL_FAULT_FS = false := by
  decide

/-- Lane 3 in RUN at the front of the queue, with a constant 1 in slot 0 and a block of type `typ` with the parameters `ps` in slot 1. -/
def chain (typ : Nat) (ps : List (Nat × Word)) : State :=
  let s := (all.setFld (Reg.LANE_STATUS 3) Fld.LANE_STATUS_STATE 1).setFld (Reg.LANE_CFG 3) Fld.LANE_CFG_NBLK 2
  let s := (s.setFld (Reg.BLK_CFG 3 0) Fld.BLK_CFG_TYPE 1).setFld (Reg.BLK_CFG 3 0) Fld.BLK_CFG_OPT 4
  let s := (s.setReg (Reg.BLK_P 3 0 1) fOne).setFld (Reg.BLK_CFG 3 1) Fld.BLK_CFG_TYPE typ
  let s := ps.foldl (fun s p => s.setReg (Reg.BLK_P 3 1 p.1) p.2) s
  let blk (b : Nat) : Blk := { params := s.blkWritten 3 b, seen := s.blkWritten 3 b }
  let l := s.lane 3
  { s.setLane 3 { l with tableSeen := s.tableWritten 3, blk := vset (vset l.blk 0 (blk 0)) 1 (blk 1) } with actQueue := [3] }

/-- A chain of a constant and SCALE, and one of a constant and LOOP_OUT to port 1 of 0 to 1. -/
theorem witness_LaneActivation_chain :
    let fits (s : State) : Bool := s.on .core && !s.pwr.pfwActive && s.actQueue.head? == some 3 && s.laneState 3 == 1 && s.laneNblk 3 == 2 &&
      !s.flag (Reg.LANE_CTL 3) Fld.LANE_CTL_MAN && s.tableWritten 3 == (s.lane 3).tableSeen &&
      ((List.range 2).all fun b => ((s.lane 3).block b).params == s.blkWritten 3 b && ((s.lane 3).block b).seen == s.blkWritten 3 b) &&
      s.blkType 3 0 == 1 && s.blkOpt 3 0 == 4 && s.reg (Reg.BLK_P 3 0 1) == fOne && s.fld (Reg.BLK_CFG 3 1) Fld.BLK_CFG_IN_A == 15
    let sc := chain 0x09 [(0, fOne), (1, 0)]
    let lo := chain 0x0D [(0, 0), (1, fOne), (2, 0), (3, 48000), (4, 1)]
    let caught := (lo.setFld (Reg.LANE_STATUS 3) Fld.LANE_STATUS_STATE 2).setLane 3 { lo.lane 3 with caught := true }
    fits sc = true ∧ fits lo = true ∧ (caught.laneState 3 = 2 ∧ (caught.lane 3).caught = true) ∧ fFin fOne = true ∧ sc.blkType 3 1 = 0x09 ∧ (sc.blkOpt 3 1).testBit 0 = false ∧
      fMul (sc.reg (Reg.BLK_P 3 1 0)) (fFlush fOne) = some fOne ∧ fAdd fOne (sc.reg (Reg.BLK_P 3 1 1)) = some fOne ∧
      lo.blkType 3 1 = 0x0D ∧ (lo.reg (Reg.BLK_P 3 1 4)).toNat = (1 : PortId).val ∧ lo.portRuns 1 = true ∧ lo.portWritable 1 = true ∧
      (lo.reg (Reg.BLK_P 3 1 2)).toNat ≤ (lo.reg (Reg.BLK_P 3 1 3)).toNat ∧ (lo.reg (Reg.BLK_P 3 1 3)).toNat ≤ 48000 ∧
      fSub (fFlush fOne) (lo.reg (Reg.BLK_P 3 1 0)) = some fOne ∧ fMul 0x46FA0000 fOne = some 0x46FA0000 ∧
      fSub (lo.reg (Reg.BLK_P 3 1 1)) (lo.reg (Reg.BLK_P 3 1 0)) = some fOne ∧ fDiv 0x46FA0000 fOne = some 0x46FA0000 ∧
      fAdd 0x45FA0000 0x46FA0000 = some 0x471C4000 ∧ clampInt 0 48000 (fToInt 0x471C4000) = 40000 ∧ (fOfInt 40000).isSome = true ∧
      lo.flag (Reg.PORT_STATUS 1) Fld.PORT_STATUS_FAILSAFE = false ∧
      (lo.setFld (Reg.PORT_STATUS 1) Fld.PORT_STATUS_FAILSAFE 1).flag (Reg.PORT_STATUS 1) Fld.PORT_STATUS_FAILSAFE = true := by
  decide +kernel
/-- The premises of the clauses on single blocks, each at plain numbers: sums and quotients that come about, an interval of a second, a table
of two points, a segment's both ends, a PID block inside and past its limits, an alarm that trips, one that clears. -/
theorem witness_LaneActivation_blocks :
    let two : Word := 0x40000000
    let c : Act := { ticks := 12288000 }
    let t : List Word := [0, 0, fOne, fOne]
    fFin fOne = true ∧ qBad 0 = false ∧ qBad 2 = true ∧ fZero 0 = true ∧ fZero fOne = false ∧
      (fSum [fOne, fOne] = some two ∧ fOfInt 2 = some two ∧ fDiv two two = some fOne) ∧
      (secs c.ticks = some fOne ∧ fDiv (fNeg fOne) 0x3A800000 = some 0xC4800000 ∧ fZero 0x3A800000 = false ∧ fExpon 0xC4800000 = some 0 ∧
        fSub fOne 0 = some fOne ∧ fSub two fOne = some fOne ∧ fMul fOne fOne = some fOne ∧ fAdd fOne fOne = some two) ∧
      (fMul fOne fOne = some fOne ∧ fAdd fOne 0 = some fOne ∧ fSub fOne fOne = some 0) ∧
      (fLe 0 0 = true ∧ tcEmf 0 0 = some 0 ∧ fDiv 0 0x447A0000 = some 0 ∧ fAdd 0 0 = some 0 ∧ fMul 0 0x447A0000 = some 0 ∧
        tcTemp 0 0 = some (0, false) ∧ fMul 0 fOne = some 0) ∧
      (tableOk t 2 = true ∧ fLt 0xBF800000 (par t 0) = true ∧ fLt (par t (2 * (2 - 1))) two = true ∧ fLe (par t 0) 0x3F000000 = true ∧
        fLt 0x3F000000 (par t 2) = true ∧ fSub 0x3F000000 (par t 0) = some 0x3F000000 ∧ fSub (par t 3) (par t 1) = some fOne ∧
        fMul 0x3F000000 fOne = some 0x3F000000 ∧ fSub (par t 2) (par t 0) = some fOne ∧ fDiv 0x3F000000 fOne = some 0x3F000000) ∧
      (fLt 0 two = true ∧ pidLaw [fOne, 0, 0, 0] fOne two fOne fOne 0 0 fOne = some (fOne, 0, 0) ∧ fLe 0 fOne = true ∧
        fLe fOne two = true ∧ fLt fOne two = true ∧ fLt 0xBF800000 0 = true ∧ fSub 0 fOne = some 0xBF800000) ∧
      (fMul (fNeg fOne) fOne = some 0xBF800000 ∧ fAdd fOne (fMin (fMax two 0xBF800000) fOne) = some two) ∧
      ((none : Option Nat).getD c.start + msCk 0 ≤ c.start ∧ c.start < (none : Option Nat).getD c.start + msCk 1) ∧
      interval c fOne = some (12288000, fOne, false) ∧ fOfRatio 12288000 12288000 = some fOne ∧
      (∃ tr, fAdd 0x42A60000 0x43889333 = some tr ∧ ∃ ir, fDiv fOne tr = some ir) := by
  refine ⟨by decide, by decide, by decide, by decide, by decide, by decide +kernel, by decide +kernel, by decide +kernel, by decide +kernel,
    by decide +kernel, by decide +kernel, by decide +kernel, by decide, by decide +kernel, by decide +kernel, ?_⟩
  exact ⟨0x43B21333, by decide +kernel, 0x3B38032A, by decide +kernel⟩

/-! ### Trunk -/

/-- A header of one codeword at SF field 0, of length `len`, for every node, with its check. -/
def header (len : Nat) : BitVec 128 :=
  let h := BitVec.ofNat 128 (1 <<< 124 + 2 <<< 120 + 1 <<< 118 + len <<< 109 + 0x7F <<< 91)
  h ||| (hdrCrc h).setWidth 128

/-- Four correlations at one chip offset and phase, `above` over the noise floor. -/
def preambleAt (offset : BitVec 6) (above level : Int) (clip : Bool) : Preamble := ⟨List.replicate 4 ⟨offset, above, 0⟩, offset, level, 0, clip⟩

/-- A preamble that qualifies and one that does not; in SEARCH, in ACQ stronger and weaker, in HDR and PAYLOAD at the capture margin. -/
theorem witness_TrunkReception :
    let p := preambleAt 20 200 64 false
    let q (l : Int) : Preamble := preambleAt 20 200 l false
    let th (s : State) : Nat := s.fld (Reg.TRX_DETECT 0) Fld.TRX_DETECT_DET_THRESH
    let level (s : State) : State := s.setFld (Reg.TRX_LEVEL 0) Fld.TRX_LEVEL_LEVEL 0
    let cap := (rx (level all) .tw 3).setFld (Reg.TRX_CTL 0) Fld.TRX_CTL_CAPTURE_EN 1
    all.hostOpen (Reg.TRX_CTL 0) = true ∧ (rx all .tw 1).hostOpen (Reg.TRX_CTL 0) = true ∧
    all.tdRuns = true ∧ all.locked = false ∧ all.trxOn .tw = false ∧ (rx all .tw 1).trxOn .tw = true ∧
      (all.arm (.selftest .tw) 4).dueOf (.selftest .tw) = some 4 ∧ (rx all .tw 1).limp = false ∧ (rx all .tw 1).linkReady .tw = false ∧
      (rx all .tw 1).pwr.pfwActive = false ∧ ((rx all .tw 1).trunk .tw).inReset = false ∧ (rx all .tw 1).rxState .tw = 1 ∧
      preambleQualifies p (th all) = true ∧ preambleQualifies (preambleAt 20 (-1) 64 false) (th all) = false ∧
      (rx all .tw 2).rxState .tw = 2 ∧ (rx all .tw 2).beats (q 1) ((rx all .tw 2).trunk .tw).level ((rx all .tw 2).trunk .tw).chip
        ((rx all .tw 2).trunk .tw).qualAt = true ∧
      (rx all .tw 2).beats (q (-1)) ((rx all .tw 2).trunk .tw).level ((rx all .tw 2).trunk .tw).chip
        ((rx all .tw 2).trunk .tw).qualAt = false ∧ (cap.trunk .tw).tookOver ≠ some cap.ck ∧ 2 ≤ chipGap p.offset (cap.trunk .tw).chip ∧
      cap.rxState .tw = 3 ∧ cap.trxOn .tw = true ∧ cap.flag (Reg.TRX_CTL 0) Fld.TRX_CTL_CAPTURE_EN = true ∧
      cap.levelF .tw + cap.capMargin .tw ≤ p.level ∧
      (rx all .tw 4).rxState .tw = 4 ∧ (all.arm (.acq .tw) 4).dueOf (.acq .tw) = some 4 ∧ ((rx all .tw 3).trunk .tw).cand = none := by
  decide

/-- R234: a start delimiter with one symbol in error is found, one with two is not. -/
theorem test_delimiter : delimiterMatches 0xE2B4 = true ∧ delimiterMatches 0xE2B5 = true ∧ delimiterMatches 0xE2B7 = false := by decide

/-- R233: a chip offset of two, a correlation under the threshold and a phase 90° away each turn a preamble down. -/
theorem test_preamble :
    preambleQualifies (preambleAt 63 40 0 false) 40 = true ∧ preambleQualifies (preambleAt 63 39 0 false) 40 = false ∧
      preambleQualifies ⟨[⟨0, 40, 0⟩, ⟨0, 40, 0⟩, ⟨1, 40, 0⟩, ⟨2, 40, 0⟩], 0, 0, 0, false⟩ 40 = false ∧
      preambleQualifies ⟨[⟨0, 40, 0⟩, ⟨0, 40, 0⟩, ⟨0, 40, 0⟩, ⟨0, 40, 0x4000⟩], 0, 0, 0, false⟩ 40 = false := by decide +kernel

/-- Soft decisions of the 256 bits of a number, bit 0 first. -/
def softWord (x : Nat) : List Int := (List.range 256).map fun i => if x.testBit i then -8 else 8

/-- Soft decisions of a number that meets every check decode to its first 128 bits. -/
theorem softWord_decodes (x n : Nat)
    (h : (ldpcHeader.checks.all fun bits => bits.all (fun b => decide (b < 256)) && bits.countP x.testBit % 2 == 0) = true) :
    decodeHeader (n + 1) (softWord x) = some (BitVec.ofNat 128 (beNat (bitBytes 16 ((List.range 128).map x.testBit)))) := by
  have := Laws.decode_clear ldpcHeader n (softWord x) x.testBit
    (by intro i hi; simp only [softWord, List.getElem_map, List.getElem_range]; split <;> simp_all)
    (by rw [softWord, List.length_map, List.length_range]; decide)
    (by
      intro bits hm
      have := List.all_eq_true.mp h bits hm
      simp only [Bool.and_eq_true, List.all_eq_true, decide_eq_true_eq, beq_iff_eq] at this
      rwa [softWord, List.length_map, List.length_range])
  unfold decodeHeader
  rw [this]
  rfl

/-- R249, R250: the codeword of a header that passes, and of one whose check is wrong, each read from its
clear soft decisions. -/
theorem witness_TrunkReception_soft :
    decodeHeader (rx all .te 3).maxIter (softWord 71295038822841424793548108350164379692269370579074976080352395033226508255816) =
        some (header 16) ∧
      decodeHeader (rx all .te 3).maxIter (softWord 82115375357831859044007914602779034368383160428823637314081236925695863571016) =
        some (header 16 + 1) := by
  have hm : (rx all .te 3).maxIter = 15 + 1 := by decide +kernel
  rw [hm]
  exact ⟨(softWord_decodes _ _ (by decide +kernel)).trans (by decide +kernel), (softWord_decodes _ _ (by decide +kernel)).trans (by decide +kernel)⟩

/-- A header that passes and one that does not, with a candidate and without, and while the decoder's reset runs; LINK_SILENT and RX_BLANK
due. -/
theorem witness_TrunkReception_header :
    let ready_ := rx all .te 3
    ready_.decResetting = false ∧ (ready_.arm (.funcReset .dec) 4).decResetting = true ∧ ready_.trxOn .te = true ∧
      (ready_.trunk .te).cand = none ∧
      ((ready_.setTrunk .te { cand := some { level := 5, found := true } }).trunk .te).cand = some { level := 5, found := true } ∧
      hdrPasses (header 16) ready_.opCode = true ∧ hdrPasses (header 16 + 1) ready_.opCode = false ∧
      (all.arm (.silent .te) 4).dueOf (.silent .te) = some 4 ∧
      (all.setFld (Reg.TRX_STATUS 1) Fld.TRX_STATUS_LINK_READY 1).linkReady .te = true ∧
      (all.arm (.rxBlank .te) 4).dueOf (.rxBlank .te) = some 4 ∧ (rx all .te 6).rxState .te = 6 := by decide +kernel

theorem witness_TrunkSending :
    let f : TxFrame := { prio := 2, msg := [1] }
    let up (s : State) : State := (s.setFld (Reg.TRX_STATUS 0) Fld.TRX_STATUS_LINK_READY 1).setFld (Reg.TRX_STATUS 1) Fld.TRX_STATUS_LINK_READY 1
    let s := (up (rx all .tw 1)).setTrunk .tw { queue := [f] }
    let run (trial : Bool) : DpdRun := { coef := dpdIdentity, prev := if trial then some dpdIdentity else none, learns := true }
    let d (trial : Bool) : State := (all.setTrunk .tw { errs := [0], dpdRun := some (run trial) }).arm (.dpd .tw) 3
    let sent := all.setTrunk .tw { sending := some f, stamped := false }
    nextFrame (s.trunk .tw).queue = some f ∧ s.txAllowed .tw = true ∧ nextFrame (all.trunk .tw).queue = none ∧ all.txAllowed .tw = false ∧
      ((all.setTrunk .tw { sending := some f }).trunk .tw).sending = some f ∧ (all.trunk .tw).sending = none ∧ all.pwr.pfwActive = false ∧
      (d true).tdRuns = true ∧ (d true).dueOf (.dpd .tw) = some 3 ∧ ((d true).trunk .tw).dpdRun = some (run true) ∧
      ((d true).trunk .tw).errs.head? = some 0 ∧ (0 : Int) + 12 < 13 ∧ ((d false).trunk .tw).dpdRun = some (run false) ∧
      ((all.arm (.dpd .tw) 3).trunk .tw).dpdRun = none ∧ all.hostOpen Reg.DPD_CTL = true ∧ (unclocked all .td).hostOpen Reg.DPD_CTL = true ∧
      (unclocked all .td).tdRuns = false ∧ f.kind ≠ .cycle ∧
      ((all.setTrunk .tw { sending := some f, stamped := false, refAt := 1 }).trunk .tw).refAt = all.ck + 1 ∧
      (sent.trunk .tw).sending = some f ∧ (sent.trunk .tw).stamped = false ∧ (sent.trunk .tw).refAt ≤ sent.ck ∧
      (all.trunk .tw).stamped = true := by decide

theorem witness_TrunkSending_bypass :
    let up (s : State) : State := (s.setFld (Reg.TRX_STATUS 0) Fld.TRX_STATUS_LINK_READY 1).setFld (Reg.TRX_STATUS 1) Fld.TRX_STATUS_LINK_READY 1
    let closed (s : State) : State := s.setFld (Reg.TRX_STATUS 0) Fld.TRX_STATUS_BYPASSED 1
    (closed (up all)).bypassed = true ∧ (closed (up all)).bypassCause = false ∧ (closed (up all)).tdRuns = true ∧
      all.bypassCause = true ∧ all.pwr.pfwActive = false ∧ all.bypassed = false ∧ all.on .trunk = true ∧ all.ring.closing = false ∧
      ({ up all with ring := { closing := true } } : State).ring.closing = true ∧
      (up all).bypassed = false ∧ (up all).bypassCause = false := by decide

/-! ### Ring -/

/-- A message of type `typ` from node 9 to every node, with its check. -/
def message (typ : Nat) (body : List Byte) : Msg := { typ, src := 9, dst := 0x7F, seq := 1, body }

/-- It received in full. -/
def received (typ : Nat) (body : List Byte) : DecJob :=
  { hdr := header (16 + body.length), got := 1, bytes := (message typ body).bytes }

/-- Every domain on, the node at address `a`. -/
def node (a : Nat) : State := all.setFld Reg.RING_CFG Fld.RING_CFG_NODE_ADDR a

/-- A frame whose codeword is still to come, and soft decisions that decode and some that do not. -/
theorem witness_RingMessages_codeword :
    let s := all.setTrunk .te { frames := [{ hdr := header 16 }] }
    (decodePayload (DecJob.sf { hdr := header 16 }) s.maxIter ([] ++ [] ++ [])).1 = true ∧
      (decodePayload (DecJob.sf { hdr := header 16 }) s.maxIter ([-1] ++ [] ++ [])).1 = false := by
  have hf : DecJob.sf { hdr := header 16 } = 0 := by decide +kernel
  have hm : (all.setTrunk .te { frames := [{ hdr := header 16 }] }).maxIter = 15 + 1 := by decide +kernel
  simp only [hf, hm]
  exact ⟨Laws.decode_passes 15, Laws.decode_fails _⟩

/-- A frame whose codeword is still to come; a complete one that passed and one that did not; what they meet on the way. -/
theorem witness_RingMessages :
    let s := all.setTrunk .te { frames := [{ hdr := header 16 }] }
    let t := all.setTrunk .te { frames := [received 8 []] }
    (s.trunk .te).decoding = some { hdr := header 16 } ∧ s.tdRuns = true ∧ (all.trunk .te).decoding = none ∧
      (all.trunk .te).frames.find? DecJob.complete = none ∧ (t.trunk .te).frames.find? DecJob.complete = some (received 8 []) ∧
      t.ring.inReset = false ∧ t.ring.held = [] ∧ t.ringAccepts { received 8 [] with pass := false } = false ∧
      t.ringAccepts (received 8 []) = true ∧ t.bypassed = false ∧ t.keyElsewhere .te (received 8 []).key = false ∧
      5 ≤ (received 8 []).msg.typ ∧ t.fromMe (received 8 []).msg = false ∧ t.isDup (received 8 []).msg.src 1 = false ∧
      (t.trunk .tw).queue.length < 4 ∧ (received 8 []).msg.body.length + 16 ≤ maxMessage t.opSf := by decide +kernel

/-- Bypassed; a CYCLE; one's own message come round; a duplicate. -/
theorem witness_RingMessages_other :
    let bypassed := all.setFld (Reg.TRX_STATUS 0) Fld.TRX_STATUS_BYPASSED 1
    let dup : State := { all with ring := { dup := [{ src := 9, high := 1 }] } }
    bypassed.bypassed = true ∧ bypassed.ringAccepts (received 8 []) = true ∧ (received 1 (List.replicate 32 0)).msg.typ = 1 ∧
      all.ringAccepts (received 1 (List.replicate 32 0)) = true ∧ (node 9).fromMe (received 8 []).msg = true ∧
      (node 9).ringAccepts (received 8 []) = true ∧
      dup.isDup (received 8 []).msg.src (received 8 []).msg.seq = true ∧ dup.fromMe (received 8 []).msg = false := by decide +kernel

/-- Messages in the ring's step: accepted with room, into a full queue, not admitted; a break event at the master. -/
theorem witness_RingMessages_delivered :
    let r (typ : Nat) (body : List Byte) : RxMsg := ⟨(message typ body).bytes, .te, 0, 0, 0, true⟩
    let s : State := { all with ring := { inbox := [r 8 []] } }
    let accept (s : State) : State := s.setFld Reg.RING_RX_CTL (Fld.RING_RX_CTL_ACCEPT.bit 3) 1
    let master : State := { all.setFld Reg.RING_STATUS Fld.RING_STATUS_ROLE 2 with ring := { inbox := [r 7 [0x10, 0]] } }
    s.ring.inbox.find? (fun r => (readMsg r.bytes).typ == 8) = some (r 8 []) ∧ s.tdRuns = true ∧
      (Fld.RING_RX_CTL_ACCEPT.bit 3).on ((accept s).reg Reg.RING_RX_CTL) = true ∧ s.ring.rxq.length < 8 ∧
      8 ≤ (List.replicate 8 (r 8 [])).length ∧
      (Fld.RING_RX_CTL_ACCEPT.bit 3).on ((s.setReg Reg.RING_RX_CTL 0).reg Reg.RING_RX_CTL) = false ∧
      master.ring.inbox.find? (fun r => (readMsg r.bytes).typ == 7) = some (r 7 [0x10, 0]) ∧ master.ringRole = 2 ∧
      leAt (readMsg (r 7 [0x10, 0]).bytes).body 0 2 = 0x10 ∧ all.ring.inbox.find? (fun r => (readMsg r.bytes).typ == 1) = none := by
  decide +kernel

theorem witness_RingHost :
    let s := (node 4).setFld Reg.RING_TX_HDR Fld.RING_TX_HDR_TYPE 8
    all.hostOpen Reg.RING_TX_CTL = true ∧ all.hostOpen Reg.RING_RX_CTL = true ∧ s.hostOpen Reg.RING_TX_CTL = true ∧
      (unclocked all .td).hostOpen Reg.RING_TX_CTL = true ∧ (unclocked all .td).hostOpen Reg.RING_RX_CTL = true ∧
      (unclocked all .td).tdRuns = false ∧ all.tdRuns = true ∧ all.ringSendRefused = true ∧ s.tdRuns = true ∧ s.ringSendRefused = false ∧ (s.trunk .tw).queue.length < 4 ∧
      (s.trunk .te).queue.length < 4 ∧ (s.setFld Reg.RING_TX_HDR Fld.RING_TX_HDR_POS 0).flag Reg.RING_TX_HDR Fld.RING_TX_HDR_POS = false ∧
      (s.setFld Reg.RING_TX_HDR Fld.RING_TX_HDR_POS 1).flag Reg.RING_TX_HDR Fld.RING_TX_HDR_POS = true ∧
      (s.setFld Reg.RING_TX_HDR Fld.RING_TX_HDR_POS 1).ringSendRefused = false ∧ dark.tdRuns = false := by decide

/-- A CYCLE with KEY `key`. -/
def cycleOf (key : Byte) : RxMsg :=
  ⟨(message 1 (List.replicate 16 0 ++ [key] ++ List.replicate 15 0)).bytes, .te, 0, 0, 0, true⟩

theorem witness_RingCycleAndTime_cycle :
    let master := (node 5).setFld Reg.RING_STATUS Fld.RING_STATUS_ROLE 2
    let follow (k : Nat) : State := { node 5 with ring := { masterKey := some k } }
    let own := readCycle (readMsg (cycleOf 5).bytes).body
    let other := readCycle (readMsg (cycleOf 7).bytes).body
    [cycleOf 5].find? (fun r => (readMsg r.bytes).typ == 1) = some (cycleOf 5) ∧ all.tdRuns = true ∧ (node 5).bypassed = false ∧
      (node 5).nodeAddr ≠ 0 ∧ own.key % 128 = (node 5).nodeAddr ∧ (node 5).isMaster = false ∧ master.isMaster = true ∧
      (readMsg (cycleOf 5).bytes).hops ≤ 94 ∧ other.key % 128 ≠ master.nodeAddr ∧
      master.ownKey ≤ (readCycle (readMsg (cycleOf 0xFF).bytes).body).key ∧ (follow 7).ring.masterKey = some other.key ∧
      (follow 7).isMaster = false ∧ (readMsg (cycleOf 7).bytes).body.length = 32 ∧ other.key < 8 ∧ ((follow 8).trunk .te).queue.length < 4 := by
  decide +kernel

/-- The oldest number that is told from a new cycle, and the youngest that is not; two CYCLEs of a higher KEY in a row. -/
theorem witness_RingCycleAndTime_copies :
    let c := readCycle (readMsg (cycleOf 0xFF).bytes).body
    let s (n : Word) : State :=
      { node 5 with ring := { masterKey := some 0xFF, newest := some n, higher := 2, higherNo := some (c.no - 1), taken := [c.no] } }
    (s 31).ring.newest = some 31 ∧ ((31 : Word) - c.no).toNat < 32 ∧ 32 ≤ ((32 : Word) - c.no).toNat ∧ (s 32).ring.masterKey = some c.key ∧
      (s 32).eligible = true ∧ (s 32).ownKey < c.key ∧ (s 32).ring.higherNo = some (c.no - 1) ∧ 2 ≤ (s 32).ring.higher ∧
      (s 31).ring.taken.contains c.no = true ∧ c.key % 128 ≠ (s 31).nodeAddr ∧ (s 31).isMaster = false := by decide +kernel

/-- R257, R259: a copy of cycle 0 after cycle 1 does not set the count back. -/
theorem test_late_copy :
    let s : State := { (node 5).setReg Reg.RING_CYCLE_NO 1 with ring := { masterKey := some 7, newest := some 1, inbox := [cycleOf 7] } }
    (match exec .ringCycle s with | .next t => t.reg Reg.RING_CYCLE_NO == 1 && t.ring.adopt.isNone | _ => false) = true := by decide +kernel

/-- A step of TIME at its bound, the largest error that is steered, and the largest that counts as good. -/
theorem witness_RingCycleAndTime_sync :
    let c (t d : Nat) : CycleBody := ⟨0, BitVec.ofNat 64 t, d, 0, true, false, 0, 0, 0, 0, 0, 0, 0, 0, 0⟩
    timeError (c 1024 0) 0 = 16384 ∧ timeError (c 1023 15) 0 = 16383 ∧ timeError (c 11 15) 0 = 191 ∧ all.ring.copy = none ∧
      all.ring.taken.contains 0 = false ∧ ({ all with ring := { taken := [0] } } : State).ring.taken.contains 0 = true ∧ all.portBroken .tw = true ∧
      (all.setFld (Reg.TRX_STATUS 0) Fld.TRX_STATUS_LINK_READY 1).portBroken .tw = false ∧
      ({ all with tbValid := true, ring := { goodSyncs := 7 } } : State).ring.goodSyncs = 7 := by decide

theorem witness_RingCycleAndTime_rest :
    let echo : State := all.setTrunk .tw { echoes := [(0, 5, 9)], missed := 2 }
    let r : RxMsg := ⟨(message 2 (List.replicate 16 0)).bytes, .tw, 9, 0, 0, true⟩
    let master := (node 5).setFld Reg.RING_STATUS Fld.RING_STATUS_ROLE 2
    let req (a : Nat) : State := master.setFld Reg.RING_CFG_REQ Fld.RING_CFG_REQ_NODE_ADDR a
    let role1 : State := { (node 5).setFld Reg.RING_STATUS Fld.RING_STATUS_ROLE 1 with ring := { adopt := some (3, 3, 100) } }
    let due (t : Timer) : Bool := (all.arm t 4).dueOf t == some 4
    [r].find? (fun r => (readMsg r.bytes).typ == 2) = some r ∧
      (echo.trunk .tw).echoes.find? (fun e => e.1 == BitVec.ofNat 32 (leAt (readMsg r.bytes).body 0 4)) = some (0, 5, 9) ∧
      echo.flag Reg.RING_STATUS (breakFld .tw) = false ∧ echo.nodeAddr = 0 ∧ (echo.trunk .te).queue = [] ∧
      (echo.trunk .tw).delays = [] ∧ (echo.trunk .tw).echoes ≠ [] ∧ 2 ≤ (echo.trunk .tw).missed ∧ (all.trunk .tw).echoes = [] ∧
      3 ≤ ({ all with ring := { sinceSync := 3 } } : State).ring.sinceSync ∧ 16 ≤ ({ master with ring := { closedW := 16 } } : State).ring.closedW ∧ all.late = [] ∧ all.ring.crossed = false ∧ all.ring.lastNo = none ∧ all.ring.inReset = false ∧
      (all.setFld (Reg.TRX_STATUS 0) Fld.TRX_STATUS_BYPASSED 1).bypassed = true ∧ role1.ring.adopt = some (3, 3, 100) ∧ role1.ringRole = 1 ∧ role1.ring.change = none ∧
      role1.ring.beMaster = false ∧ role1.bypassed = false ∧ master.ringRole = 2 ∧
      master.fld Reg.RING_CFG Fld.RING_CFG_MASTER_MODE ≤ 1 ∧ (req 1).fld Reg.RING_CFG_REQ Fld.RING_CFG_REQ_NODE_ADDR = 1 ∧
      (req 96).fld Reg.RING_CFG_REQ Fld.RING_CFG_REQ_NODE_ADDR = 96 ∧ due .noCycle = true ∧ due .election = true ∧ due .codeHunt = true ∧
      due (.dupEntry 9) = true ∧ (node 5).eligible = true ∧ all.eligible = false := by decide +kernel

/-! ### Clock and power -/

theorem witness_ClockAndWakeSources :
    let odd : State := { dark with pwr := { pageOn := Vector.replicate 3 false, pageInit := Vector.replicate 3 false,
                                            voutMode := Vector.replicate 3 0x34 } }
    let st (n : Nat) : State := all.setFld Reg.PWR_STATUS Fld.PWR_STATUS_STATE n
    (odd.pagesFor odd.runSet).head? = some 0 ∧ vget odd.pwr.pageInit 0 false = false ∧ voutLinear (odd.voutModeOf 0) = false ∧
      odd.pwr.keptSet = none ∧ voutLinear (all.voutModeOf 0) = true ∧ voutLinear (all.voutModeOf 1) = true ∧ voutLinear (all.voutModeOf 2) = true ∧
      all.limp = false ∧ (all.setFld Reg.CLK_STATUS Fld.CLK_STATUS_SRC 2).limp = true ∧ all.hostOpen Reg.CLK_CTL = true ∧
      all.hostOpen Reg.PWR_ALARM_HI = true ∧ dark.hostLive = false ∧ dark.pwr.vio = true ∧
      ({ dark with pwr := { vio := false } } : State).pwr.vio = false ∧
      ({ dark with pwr := { wake := some { from_ := 2 }, entryAt := some dark.ck } } : State).pwr.entryAt = some dark.ck ∧
      (Fld.PWR_WAKE_EN_EN.bit 3).on ((dark.setFld Reg.PWR_WAKE_EN (Fld.PWR_WAKE_EN_EN.bit 3) 1).reg Reg.PWR_WAKE_EN) = true ∧
      (all.arm .xtalCheck 4).dueOf .xtalCheck = some 4 ∧ all.pwr.wake = none ∧ (st 2).pwrState = 2 ∧ (st 3).pwrState = 3 ∧
      (st 7).pwrState = 7 ∧ all.pwrState = 0 ∧
      (Fld.PWR_WAKE_EN_EN.bit 0).on ((all.setFld Reg.PWR_WAKE_EN (Fld.PWR_WAKE_EN_EN.bit 0) 1).reg Reg.PWR_WAKE_EN) = true ∧
      (Fld.PWR_WAKE_EN_EN.bit 0).on ((all.setReg Reg.PWR_WAKE_EN 0).reg Reg.PWR_WAKE_EN) = false ∧
      ({ all with pwr := { alarmSet := true } } : State).pwr.alarmSet = true ∧ all.pwr.alarmSet = false ∧
      (all.setFld Reg.BD_STATUS Fld.BD_STATUS_BYPASS_CLOSED 1).flag Reg.BD_STATUS Fld.BD_STATUS_BYPASS_CLOSED = true ∧
      (all.setFld Reg.BD_STATUS Fld.BD_STATUS_BYPASS_CLOSED 0).flag Reg.BD_STATUS Fld.BD_STATUS_BYPASS_CLOSED = false ∧
      dark.on .core = false := by decide

theorem witness_WakeSequence :
    let w (ps : List Nat) : Wake := { target := 1, pages := ps }
    let s (ps : List Nat) (init : Bool) : State := { dark with pwr := { wake := some (w ps), pageInit := Vector.replicate 3 init } }
    let at_ (x : Wake) : State := { dark with pwr := { wake := some x } }
    (s [0, 2] true).pageAwaited = some (w [0, 2], 0) ∧ (s [2] true).pageAwaited = some (w [2], 2) ∧
      vget (s [2] true).pwr.pageInit 2 false = true ∧ vget (s [2] false).pwr.pageInit 2 false = false ∧ (w [0, 2]).pages.tail ≠ [] ∧
      (w [2]).pages.tail = [] ∧ (s [2] true).pllRuns = true ∧
      ({ s [2] true with pwr := { wake := some (w [2]), divisor := 8 } } : State).pllRuns = false ∧ faultBits 0x20 ≠ 0 ∧
      faultBits 0x40 = 0 ∧ statusGood 0x40 = false ∧ statusGood 0 = true ∧ (∀ q ∈ (w [0, 2]).pages, q < 3) ∧
      dark.pmbusData 0x79 2 [[], dark.pmbusSends 0x79 [0x20, 0x00]] = some 0x20 ∧ dark.pmbusData 0x79 2 [[], []] = none ∧
      (dark.setFld Reg.PWR_REG_CFG Fld.PWR_REG_CFG_ACK_SRC 1).ackPgood = true ∧
      (dark.setFld Reg.PWR_REG_CFG Fld.PWR_REG_CFG_ACK_SRC 0).ackPgood = false ∧ dark.fld Reg.CLK_STATUS Fld.CLK_STATUS_SRC = 0 ∧
      (dark.setFld Reg.CLK_STATUS Fld.CLK_STATUS_SRC 2).fld Reg.CLK_STATUS Fld.CLK_STATUS_SRC ≠ 0 ∧ dark.pwr.keptSet = none ∧
      dark.tdRuns = false ∧ ({ dark with pwr := { busRetry := true } } : State).pwr.busRetry = true ∧
      (let b : State := { s [0] true with pwr := { (s [0] true).pwr with bus := (s [0] false).turnOnSeq 0, busAt := 2, busRetry := true } }
       b.pwr.bus.length = 7 ∧ b.busSecond [2, 2, 1] = some 2 ∧ b.busSecond [2, 2, 0, 1, 2] = some 4 ∧ b.busSecond [2, 2, 0, 1] = none ∧
         b.pageAwaited = some (w [0], 0) ∧ vget b.pwr.pageInit 0 false = true ∧ b.busEnd = 7 ∧ ({ b with pwr := { b.pwr with busAt := 7 } } : State).pollRead [[1], [2]] = [[1]]) ∧
      ((s [2] true).arm .pageAck 4).dueOf .pageAck = some 4 ∧ (w [2]).attempts ≤ dark.fld Reg.PWR_WAKE_CFG Fld.PWR_WAKE_CFG_WAKE_RETRIES ∧
      dark.fld Reg.PWR_WAKE_CFG Fld.PWR_WAKE_CFG_WAKE_RETRIES < 16 ∧ dark.pageAwaited = none ∧
      (at_ { phase := .xtal }).pwr.wake = some { phase := .xtal } ∧ (at_ { phase := .pll }).pwr.wake = some { phase := .pll } ∧
      ((at_ { phase := .pll }).arm .pllLock 4).dueOf .pllLock = some 4 ∧
      ({ phase := .domains, onDoms := [1] } : Wake).onDoms.contains Domain.meas.bit = true ∧
      ((at_ { phase := .retry }).arm .wakeRetry 4).dueOf .wakeRetry = some 4 ∧ dark.pwr.wake = none := by decide

/-- R285, R286: a page whose VOUT_MODE is not linear, and one whose is. -/
theorem witness_WakeSequence_mode :
    let s (m : Byte) : State := { dark with pwr := { pageInit := Vector.replicate 3 false, voutMode := Vector.replicate 3 m } }
    vget (s 0x34).pwr.pageInit 1 false = false ∧ voutLinear ((s 0x34).voutModeOf 1) = false ∧ voutLinear ((s 0x14).voutModeOf 1) = true ∧
      (s 0x14).pagesLinear := by unfold State.pagesLinear; decide

theorem witness_WakeSequence_tether :
    let s := (tethered.setFld Reg.PWR_STATUS Fld.PWR_STATUS_STATE 7).setFld Reg.BD_STATUS Fld.BD_STATUS_VSYS_OK 1
    (s.arm .tetherRetry 4).dueOf .tetherRetry = some 4 ∧ s.pwrState = 7 ∧ s.inTether = true ∧
      s.flag Reg.BD_STATUS Fld.BD_STATUS_VSYS_OK = true ∧ dark.inTether = false ∧ s.pwr.resetHeld = false ∧
      ({ s with pwr := { resetHeld := true } } : State).pwr.resetHeld = true ∧ s.pwr.resetAt = none := by decide

theorem witness_PowerRequests :
    let woken : State := { all with pwr := { wake := some {} } }
    all.hostOpen Reg.PWR_RUN_SET = true ∧ (shut all).hostOpen Reg.PWR_RUN_SET = true ∧ woken.hostOpen Reg.PWR_RUN_SET = true ∧
      all.hostOpen Reg.PWR_CTL = true ∧ all.hostOpen Reg.PAD_RELEASE = true ∧ all.hostOpen Reg.PWR_VCORE = true ∧ dark.hostLive = false ∧
    all.on .core = true ∧ all.locked = false ∧ breaksR18 (Fld.PWR_RUN_SET_DOMAINS.get 0x5 ||| 1) = true ∧ (shut all).locked = true ∧
      Fld.PWR_RUN_SET_DOMAINS.get 0x3 ||| 1 ≠ all.runSet ∧ breaksR18 (Fld.PWR_RUN_SET_DOMAINS.get 0x3 ||| 1) = false ∧
      woken.pwr.wake.isSome = true ∧ all.pwr.wake = none ∧ all.pwrState ≠ 6 ∧ all.entryRefused true = false ∧ all.entryRefused false = false ∧
      woken.entryRefused false = true ∧ (all.setReg Reg.PWR_REG_CFG 0).pageManaged 0 = false ∧ all.pageManaged 0 = true ∧ all.pwrState = 0 ∧
      dark.on .core = false ∧
      vget all.pwr.pageOn (0 : Fin 3) false = true ∧ vget all.pwr.pageOn (1 : Fin 3) false = false ∧
      faultBits 0x04 &&& ~~~vget all.pwr.faultSeen (0 : Fin 3) 0 ≠ 0 ∧ faultBits 0x40 &&& ~~~vget all.pwr.faultSeen (0 : Fin 3) 0 = 0 := by decide

/-- A change of VCORE that is acknowledged at READ_VOUT 850 mV = 0xD99A × 2^−16 V or so, one that is not, one whose read fails; readings of a
rail without a fraction; R285: LINEAR11 0xC3FF is 1023 × 2^−8 A. -/
theorem witness_PowerRequests_rails :
    let u := (all.setFld Reg.PWR_VCORE Fld.PWR_VCORE_REQ_MV 850).setFld Reg.PWR_REG_CFG Fld.PWR_REG_CFG_ACK_SRC 1
    let seen : PmRead := [u.pmbusSends 0x8B [0x9A, 0x0D]]
    u.vcoreWait none [⟨[], true, seen⟩] = .good 0x0D9A ∧ u.vcoreWait none [⟨[], false, seen⟩] = .more none ∧
      u.vcoreWait none [⟨[], true, []⟩] = .bus none ∧ voutRead 0x14 0x1000 = (4096000, 4096) ∧ (4096000 : Int) % (4096 : Nat) = 0 ∧
      (let now : State := { u with pwr := { u.pwr with vcoreNow := some (none, true) } }
       now.pageAwaited = none ∧ now.ackPgood = true ∧ now.busSecond [] = none ∧ (now.arm .vcoreAck 4).dueOf .vcoreAck = some 4 ∧
         now.dueOf .pageAck = none ∧ now.pwr.wake = none ∧ now.hostOpen Reg.RST_FUNC1 = true ∧ now.vcoreWait none [⟨[], true, seen⟩] = .good 0x0D9A ∧
         now.vcoreWait none [⟨[], true, [[0, 0]]⟩] = .more none ∧ now.vcoreWait none [⟨[], true, []⟩] = .bus none ∧
         ({ all with pwr := { all.pwr with vcoreNow := some (none, false) } } : State).vcoreWait none
           [⟨[all.pmbusSends 0x79 [0x20, 0x00]], false, []⟩] = .bad (some 0x20)) ∧
      ioutRead 0xC3FF = (1023000, 256) ∧ (ioutRead 0x0003).1 % (ioutRead 0x0003).2 = 0 := by decide +kernel

theorem witness_PowerFailure :
    let act : State := { all with pwr := { pfwActive := true } }
    let armed := act.setFld Reg.BD_STATUS Fld.BD_STATUS_TETHER_ARMED 1
    let low (s : State) : State := s.setFld Reg.BD_STATUS Fld.BD_STATUS_VSYS_OK 0
    let run : State := { tethered with keeperCore := { store := some {}, active := true }, tether := { ended := some {} } }
    let held : State := { tethered with pwr := { resetHeld := true } }
    ({ all with pwr := { off := true } } : State).pwr.off = true ∧ all.pwr.off = false ∧ all.flag Reg.BD_STATUS Fld.BD_STATUS_PFW = false ∧
      all.inTether = false ∧ tethered.inTether = true ∧ act.pwr.pfwActive = true ∧
      act.flag Reg.BD_STATUS Fld.BD_STATUS_TETHER_ARMED = false ∧ armed.flag Reg.BD_STATUS Fld.BD_STATUS_TETHER_ARMED = true ∧
      armed.pwr.pfwActive = true ∧ all.pwr.pfwActive = false ∧ (low act).flag Reg.BD_STATUS Fld.BD_STATUS_VSYS_OK = false ∧
      (low act).inTether = false ∧ (low act).pwr.wake = none ∧ (low all).pwr.pfwActive = false ∧
      all.flag Reg.BD_STATUS Fld.BD_STATUS_VSYS_OK = true ∧ (low held).inTether = true ∧ (low held).pwr.resetHeld = true ∧
      run.keeperCore.store = some {} ∧ run.tether.ended = some {} ∧ run.keeperCore.active = true ∧ held.pwr.resetAt = none ∧
      held.pwr.resetLow = false ∧ dark.keeperCore.store = none ∧ dark.tether.ended = none := by decide

/-- A power-fail warning in the wake out of Tether mode. -/
theorem witness_PowerFailure_wake :
    let s : State := { tethered with pwr := { wake := some { phase := .domains, from_ := 4, target := 3 } } }
    s.pwr.off = false ∧ s.flag Reg.BD_STATUS Fld.BD_STATUS_PFW = false ∧ s.inTether = true ∧ s.pwr.wake.isSome = true := by decide

/-- The governor's cases at their bounds. -/
theorem witness_PowerFailure_governor :
    let step (n : Nat) : State := tethered.setFld Reg.TETHER_STATUS Fld.TETHER_STATUS_STEP n
    let shed (n : Nat) : State := (step 4).setFld Reg.TETHER_STATUS Fld.TETHER_STATUS_SHED n
    let ok (s : State) (n : Nat) : State := { s with tether := { okMs := n } }
    (step 3).inTether = true ∧ (step 3).tether.nextStep = none ∧ (step 3).fld Reg.TETHER_STATUS Fld.TETHER_STATUS_STEP = 3 ∧
      (step 4).fld Reg.TETHER_STATUS Fld.TETHER_STATUS_STEP = 4 ∧ (shed 2).shedLevel = 2 ∧ (shed 2).inTether = true ∧
      (ok (shed 2) 998).tether.okMs = 998 ∧ (ok (shed 2) 999).tether.okMs = 999 ∧ (ok (shed 2) 999).shedLevel ≠ 0 ∧
      (ok (step 1) 999).shedLevel = 0 ∧ 0 < (ok (step 1) 999).fld Reg.TETHER_STATUS Fld.TETHER_STATUS_STEP ∧ (step 3).pllRuns = true ∧
      ({ step 3 with pwr := { divisor := 64 } } : State).pllRuns = false ∧ ({ step 3 with tether := { nextStep := some 4 } } : State).tether.nextStep = some 4 := by
  decide

/-! ### Resets, watchdog, test unlock -/

theorem witness_FunctionResets :
    all.hostOpen Reg.RST_FUNC0 = true ∧ all.hostOpen Reg.RST_FUNC1 = true ∧ funcRuns (unlinked all .md) (.slice 4) = false ∧
      (unlinked all .md).hostOpen Reg.RST_FUNC1 = true ∧
    all.on .core = true ∧ all.portWritable 15 = true ∧ all.on .meas = true ∧ all.linkIsDown .md = false ∧ all.on .trunk = true ∧
      all.linkIsDown .td = false ∧ all.pwr.pfwActive = false ∧ all.ring.held = [] ∧ all.pwr.wake = none ∧
      ({ all with pwr := { wake := some { pages := [1] } } } : State).pwr.wake = some { pages := [1] } ∧ ({ pages := [1] } : Wake).phase ≠ .retry ∧
      all.flag (Reg.MODEM_STATUS 15) Fld.MODEM_STATUS_TX_ACTIVE = false ∧
      (all.setFld (Reg.MODEM_STATUS 15) Fld.MODEM_STATUS_TX_ACTIVE 1).flag (Reg.MODEM_STATUS 15) Fld.MODEM_STATUS_TX_ACTIVE = true ∧
      funcRuns dark (.slice 4) = false ∧ funcRuns dark .pmbus = false ∧
      (all.arm (.funcReset .ring) 4).dueOf (.funcReset .ring) = some 4 ∧ all.dueOf (.funcReset .ring) = none ∧
      ((all.setPort 7 { resetTicks := 2 }).port 7).resetTicks ≠ 0 ∧ ((all.setSlice 4 { inReset := true }).slice 4).inReset = true ∧
      ({ all with seq := { inReset := true } } : State).seq.inReset = true := by decide

/-- Both ports' break flags as their links leave them: broken without LINK_READY, whole with it. -/
theorem witness_FunctionResets_breaks :
    let s (l b : Nat) : State := (((all.setFld (Reg.TRX_STATUS 0) Fld.TRX_STATUS_LINK_READY l).setFld (Reg.TRX_STATUS 1)
      Fld.TRX_STATUS_LINK_READY l).setFld Reg.RING_STATUS (breakFld .tw) b).setFld Reg.RING_STATUS (breakFld .te) b
    ∀ y ∈ [s 0 1, s 1 0], ∀ x ∈ [Trx.tw, .te], y.flag Reg.RING_STATUS (breakFld x) =
      (y.tdRuns && (!y.bypassed && !y.linkReady x || decide (3 ≤ (y.trunk x).missed))) := by decide

theorem witness_GlobalResets :
    let v : Word := Fld.RST_SYS_KEY.put 0x5E7A ||| Fld.RST_SYS_FULL.put 1
    all.inTether = false ∧ tethered.inTether = true ∧ all.pwr.off = false ∧ tethered.pwr.off = false ∧
      ({ dark with pwr := { resetLow := true } } : State).pwr.resetLow = true ∧ dark.pwr.resetLow = false ∧ all.pwr.resetAt = none ∧
      ({ dark with pwr := { resetWait := true } } : State).pwr.resetWait = true ∧ dark.pwr.resetWait = false ∧
      ({ dark with pwr := { off := true } } : State).pwr.off = true ∧ all.hostLive = true ∧ dark.hostLive = false ∧
      all.hostOpen Reg.RST_SYS = true ∧ ({ all with pwr := { resetLow := true } } : State).pwr.resetLow = true ∧
      Fld.RST_SYS_KEY.get v = 0x5E7A ∧ Fld.RST_SYS_FULL.on v = true ∧ Fld.RST_SYS_KEY.get 0 ≠ 0x5E7A := by decide

theorem witness_WatchdogAndTest :
    let en := all.setFld Reg.WDT_CTL Fld.WDT_CTL_EN 1
    all.hostOpen Reg.WDT_CTL = true ∧ en.hostOpen Reg.WDT_CTL = true ∧ en.hostOpen Reg.WDT_KICK = true ∧ all.hostOpen Reg.WDT_KICK = true ∧
      all.hostOpen Reg.TEST_UNLOCK = true ∧ dark.hostLive = false ∧ all.locked = false ∧ all.flag Reg.WDT_CTL Fld.WDT_CTL_EN = false ∧ en.flag Reg.WDT_CTL Fld.WDT_CTL_EN = true ∧
      en.wdtRuns = true ∧ (0x5A : Word) ≠ 0xA5 ∧ en.flag Reg.WDT_CTL Fld.WDT_CTL_ACTION = false ∧
      (en.setFld Reg.WDT_CTL Fld.WDT_CTL_ACTION 1).flag Reg.WDT_CTL Fld.WDT_CTL_ACTION = true ∧
      (en.setFld Reg.WDT_CTL Fld.WDT_CTL_ACTION 1).wdtRuns = true ∧ all.wdtRuns = false ∧
      ({ all with testEn := true } : State).testEn = true ∧ all.testEn = false ∧ dark.on .core = false := by decide

/-! ### Checks and single commands -/

/-- R120: CRC-32C of the bytes "123456789" is 0xE3069283. -/
theorem test_crc32c : crc32c [0x31, 0x32, 0x33, 0x34, 0x35, 0x36, 0x37, 0x38, 0x39] = 0xE3069283 := by decide +kernel

/-- R156: the CRC of tone frames over "123456789" is 0x29B1. -/
theorem test_crc16 : crc16 [0x31, 0x32, 0x33, 0x34, 0x35, 0x36, 0x37, 0x38, 0x39] = 0x29B1 := by decide +kernel

/-- R211: SHA-256 of the bytes "abc" as FIPS 180-4 gives it. -/
theorem test_sha256 : beNat (sha256 [0x61, 0x62, 0x63]) =
    0xBA7816BF8F01CFEA414140DE5DAE2223B00361A396177A9CB410FF61F20015AD := by decide +kernel

/-- R16: the 16th failure in a row declares the link of MD down. -/
theorem test_link_down :
    (match exec (.linkWordFail .md ⟨3, none⟩) { all with linkFails := [(wordKey .md 3, 15)] } with
     | .next t => (t.linkIsDown .md, t.flag Reg.SYS_DIE_EVENT (Fld.SYS_DIE_EVENT_LINK_DOWN.bit Die.md.bit))
     | _ => (false, false)) = (true, true) := by decide +kernel

/-- R46: a load of TB_SET is in TIME two ticks later at the least, and marks it valid. -/
theorem test_tb_load :
    (match exec .tbLoad ((all.setReg Reg.TB_SET_LO 0x1234).setReg Reg.TB_SET_HI 1) with
     | .next t => (t.time, t.tbValid, t.ck)
     | _ => (0, false, 0)) = (0x100001234, true, 32) := by decide +kernel

/-- R38: a read of a domain that is off returns 0x0FF0_0FF0. -/
theorem test_domain_off_read :
    (match exec (.hostRead 2 0 (BitVec.ofNat 24 Reg.CONV_EVENT) true) State.reset with
     | .next t => t.hostData
     | _ => []) = [0x0FF00FF0] := by decide +kernel

/-- No row of the table gives a word its bits. -/
theorem test_no_table_word : decodeTableWord 32 0 = none ∧ State.reset.withFetchWord 32 0 = State.reset := ⟨rfl, rfl⟩

end Sys2Proof.Tests
end

section
/-! PROOFS. Register fields read and write as R3 says. -/

namespace Sys2Proof

/-- A field's value fits its width. -/
theorem Fld.get_lt (f : Fld) (w : Word) : f.get w < 2 ^ f.len :=
  Nat.mod_lt _ (Nat.two_pow_pos f.len)

/-- The sign of a signed field is the bit at the upper end of its range (R3). -/
theorem Fld.msb_ofNat_get (f : Fld) (w : Word) (h : 0 < f.len) :
    (BitVec.ofNat f.len (f.get w)).msb = w.getLsbD (f.lo + f.len - 1) := by
  have top : f.len - 1 < f.len := by omega
  have place : f.lo + (f.len - 1) = f.lo + f.len - 1 := by omega
  rw [BitVec.msb_eq_getLsbD_last, BitVec.getLsbD_ofNat, Fld.testBit_get, place]
  simp [top]

/-- Two's complement (R3): the sign bit takes 2 to the width off the unsigned value. -/
theorem Fld.sget_eq (f : Fld) (w : Word) (h : 0 < f.len) :
    f.sget w = if w.getLsbD (f.lo + f.len - 1) then (f.get w : Int) - 2 ^ f.len else f.get w := by
  have unsigned : (BitVec.ofNat f.len (f.get w)).toNat = f.get w := by
    rw [BitVec.toNat_ofNat, Nat.mod_eq_of_lt (f.get_lt w)]
  rw [Fld.sget, BitVec.toInt_eq_msb_cond, f.msb_ofNat_get w h, unsigned]
  push_cast
  rfl

/-- Settles O7: bit by bit for the reading, by the laws of `Fld.set` for the write, and by the sign bit's place for a signed field. -/
theorem fieldsReadAndWrite : Obligations.FieldsReadAndWrite := by
  intro f w x h
  exact ⟨f.testBit_get w, f.get_lt w, f.sget_eq w, f.get_set w x h, fun g hg apart => f.get_set_apart g w x hg apart⟩

end Sys2Proof
end

section
/-! PROOFS. A domain's registers go back to their reset values, and MEAS powers up as R109 says. -/

namespace Sys2Proof.Machine

/-! ### A domain that turns on -/

/-- A list of pairs cut down by a test of the keys: a key that passes keeps its value, any other has none. -/
theorem lookupKey_filter {α : Type} (l : List (Nat × α)) (p : Nat → Bool) (a : Nat) :
    lookupKey (l.filter fun x => p x.1) a = if p a then lookupKey l a else none := by
  induction l with
  | nil => simp [lookupKey]
  | cons x l ih =>
    obtain ⟨b, v⟩ := x
    by_cases e : a = b
    · subst e
      by_cases h : p a <;> simp [lookupKey, h, ih]
    · by_cases h : p b <;> simp [lookupKey, h, e, ih]

/-- A register of a domain that does not outlive it is at its reset value once the domain has lost its registers. -/
theorem State.reg_forget_lost (s : State) (d : Domain) (a : Nat) (h : regDomain a = some d) (lost : s.outlives a = false) :
    (s.forget d).reg a = resetOf s.fuses a := by
  simp [State.reg, State.forget, lookupKey_filter _ (fun a => regDomain a != some d || s.outlives a), h, lost]

/-- A domain that turns on has lost its registers and shows in PWR_STATUS; the rest is its dies' links and clocks. -/
theorem State.domainUp_frame (s : State) (d : Domain) : ∃ f l c,
    s.domainUp d = { (s.forget d).setOn d true with linkFails := f, linkDown := l, ckLost := c } := by
  unfold State.domainUp
  refine List.foldlRecOn (motive := fun t : State => ∃ f l c,
    t = { (s.forget d).setOn d true with linkFails := f, linkDown := l, ckLost := c }) _ _ ⟨_, _, _, rfl⟩ ?_
  rintro _ ⟨f, l, c, rfl⟩ x -
  exact ⟨_, _, _, rfl⟩

@[simp] theorem State.domainUp_regs (s : State) (d : Domain) : (s.domainUp d).regs = ((s.forget d).setOn d true).regs := by
  obtain ⟨f, l, c, h⟩ := s.domainUp_frame d
  rw [h]

@[simp] theorem State.domainUp_fuses (s : State) (d : Domain) : (s.domainUp d).fuses = s.fuses := by
  obtain ⟨f, l, c, h⟩ := s.domainUp_frame d
  rw [h]
  rfl

@[simp] theorem State.domainUp_ck (s : State) (d : Domain) : (s.domainUp d).ck = s.ck := by
  obtain ⟨f, l, c, h⟩ := s.domainUp_frame d
  rw [h]
  rfl

/-- The registers of a domain that turns on are at their reset values (R38). -/
theorem State.reg_domainUp (s : State) (d : Domain) (a : Nat) (h : regDomain a = some d) (lost : s.outlives a = false)
    (ne : a ≠ Reg.PWR_STATUS) : (s.domainUp d).reg a = resetOf s.fuses a :=
  calc (s.domainUp d).reg a
      = ((s.forget d).setOn d true).reg a := State.reg_congr _ _ a (s.domainUp_regs d) (s.domainUp_fuses d)
    _ = (s.forget d).reg a := State.reg_setFlag_ne _ _ _ _ _ ne
    _ = resetOf s.fuses a := s.reg_forget_lost d a h lost

/-! ### MEAS -/

/-- A loop die's domain is one of the LOOP domains, never MEAS. -/
theorem ldDomain_ne_meas (d : Nat) : ldDomain d ≠ .meas := by
  unfold ldDomain
  split <;> decide

/-- Of the address map's blocks only MD's, from 0x100000 on, is in MEAS (R34). -/
theorem page_of_regBlock_meas {a : Nat} (h : (regBlock a).map RegBlock.domain = some .meas) : a / 0x10000 = 0x10 := by
  by_contra page
  simp [regBlock, page, portDomain, ldDomain_ne_meas, apply_ite (Option.map RegBlock.domain), ite_eq_iff] at h

/-- A register of MEAS lies in MD's block. -/
theorem page_of_regDomain_meas {a : Nat} (h : regDomain a = some .meas) : a / 0x10000 = 0x10 := by
  refine page_of_regBlock_meas ?_
  unfold regDomain findReg at h
  cases block : regBlock a with
  | none => simp [block] at h
  | some b =>
    cases found : b.regs.find? fun d => d.has (a - b.base) with
    | none => simp [block, found] at h
    | some d => cases exc : d.excite <;> simp_all [domainOf]

/-- No register of MEAS outlives its domain. -/
theorem State.outlives_of_regDomain_meas (s : State) {a : Nat} (h : regDomain a = some .meas) : s.outlives a = false := by
  have page := page_of_regDomain_meas h
  have cause : a ≠ Reg.RESET_CAUSE := by
    rintro rfl
    exact absurd page (by decide)
  have port : ¬ 0x200000 ≤ a := by omega
  simp [State.outlives, cause, port]

/-- What every step of an iteration keeps, the iteration keeps. -/
theorem iterate_keeps {σ τ : Type} (g : σ → τ) (n : Nat) (f : Nat → σ → σ) (s : σ) (h : ∀ i t, g (f i t) = g t) :
    g (iterate n f s) = g s :=
  List.foldlRecOn (motive := fun t => g t = g s) _ _ rfl fun t kept i _ => (h i t).trans kept

@[simp] theorem State.measClear_regs (s : State) : s.measClear.regs = s.regs := by
  simp only [State.measClear]
  exact iterate_keeps State.regs _ _ _ fun _ _ => rfl

@[simp] theorem State.measClear_fuses (s : State) : s.measClear.fuses = s.fuses := by
  simp only [State.measClear]
  exact iterate_keeps State.fuses _ _ _ fun _ _ => rfl

@[simp] theorem State.measClear_ck (s : State) : s.measClear.ck = s.ck := by
  simp only [State.measClear]
  exact iterate_keeps State.ck _ _ _ fun _ _ => rfl

/-- Power-up of MEAS writes no register. -/
@[simp] theorem State.measUp_reg (s : State) (a : Nat) : s.measUp.reg a = s.reg a :=
  State.reg_congr s s.measUp a s.measClear_regs s.measClear_fuses

/-- Every slice as MEAS powers up: the fuse trims in both banks and as step reference, in force from now on (R109, R110). -/
theorem State.measUp_slice (s : State) (i : SliceId) :
    s.measUp.slice i = { bankA := vget s.fuses.sliceTrim i 0, bankB := vget s.fuses.sliceTrim i 0,
                         stepRef := vget s.fuses.sliceTrim i 0, trimSince := s.ck, row := if i = 4 then 22 else 0 } := by
  have four : (i.val = 4) = (i = 4) := by simp [Fin.ext_iff]
  simp [State.slice, State.measUp, vget, four]

/-- A settle count of the reference changes no register but REF_STATUS. -/
theorem State.reg_refStart_ne (s : State) (a : Nat) (h : a ≠ Reg.REF_STATUS) : s.refStart.reg a = s.reg a := by
  unfold State.refStart
  split
  · rfl
  · exact (State.reg_lower_ne _ _ _ _ h).trans (State.reg_raise_ne _ _ _ _ h)

@[simp] theorem State.refStart_slice (s : State) (i : Nat) : s.refStart.slice i = s.slice i := by
  unfold State.refStart
  split <;> rfl

@[simp] theorem State.refStart_reel (s : State) : s.refStart.reel = s.reel := by
  unfold State.refStart
  split <;> rfl

/-! ### MEAS turns on (R109) -/

/-- The registers of a slice that count its calibrations or hold the time of the last. -/
def calCounts (i : SliceId) : List Nat :=
  [Reg.SLICE_CAL_COUNT i, Reg.SLICE_REJECT_COUNT i, Reg.SLICE_CAL_TIME_LO i, Reg.SLICE_CAL_TIME_HI i]

theorem regDomain_calCounts (i : SliceId) : ∀ a ∈ calCounts i, regDomain a = some .meas := by
  decide +revert

/-- Their Reset column is 0 whatever the fuses hold. -/
theorem resetOf_calCounts (f : Fuses) (i : SliceId) : ∀ a ∈ calCounts i, resetOf f a = 0 := by
  intro a mem
  fin_cases i <;> fin_cases mem <;> rfl

section
variable (s : State) (off : s.on .meas = false)
include off

/-- MEAS that was off turns on. -/
theorem State.domainOn_meas : s.domainOn .meas = (s.domainUp .meas).measUp.refStart := by
  simp [State.domainOn, off]

/-- As MEAS turns on, its registers but REF_STATUS, where a settle count can start, are at their reset values. -/
theorem State.reg_domainOn_meas (a : Nat) (h : regDomain a = some .meas) (ne : a ≠ Reg.REF_STATUS) :
    (s.domainOn .meas).reg a = resetOf s.fuses a := by
  have notPwr : a ≠ Reg.PWR_STATUS := by
    rintro rfl
    exact absurd h (by decide)
  rw [s.domainOn_meas off, State.reg_refStart_ne _ a ne, State.measUp_reg]
  exact s.reg_domainUp .meas a h (s.outlives_of_regDomain_meas h) notPwr

/-- As MEAS turns on, its slices are as its power-up makes them. -/
theorem State.slice_domainOn_meas (i : SliceId) :
    (s.domainOn .meas).slice i =
      { bankA := vget s.fuses.sliceTrim i 0, bankB := vget s.fuses.sliceTrim i 0, stepRef := vget s.fuses.sliceTrim i 0,
        trimSince := s.ck, row := if i = 4 then 22 else 0 } := by
  rw [s.domainOn_meas off, State.refStart_slice, State.measUp_slice, State.domainUp_fuses, State.domainUp_ck]

/-- As MEAS turns on, SLICE_CAL_STATUS has FIRST alone: bank A, nothing staged. -/
theorem State.calStatus_domainOn_meas (i : SliceId) :
    (s.domainOn .meas).reg (Reg.SLICE_CAL_STATUS i) = Fld.SLICE_CAL_STATUS_FIRST.put 1 := by
  rw [s.reg_domainOn_meas off _ (by decide +revert) (by decide +revert)]
  fin_cases i <;> rfl

/-- As MEAS turns on, S4 is the offline slice. -/
theorem State.offline_domainOn_meas : (s.domainOn .meas).offline = 4 := by
  rw [State.offline, State.fld, s.reg_domainOn_meas off _ (by decide) (by decide)]
  rfl

/-- As MEAS turns on, the counts and the calibration time of every slice are 0. -/
theorem State.calCounts_domainOn_meas (i : SliceId) : ∀ a ∈ calCounts i, (s.domainOn .meas).reg a = 0 := by
  intro a mem
  have meas : regDomain a = some .meas := regDomain_calCounts i a mem
  have ne : a ≠ Reg.REF_STATUS := by
    rintro rfl
    exact absurd mem (by decide +revert)
  rw [s.reg_domainOn_meas off a meas ne, resetOf_calCounts s.fuses i a mem]

end

/-- Settles O30: the slices and the run as the power-up makes them; the pointer, FIRST, the counts and the offline slice by the reset
values of their registers, to which the registers of a domain that turns on go back. -/
theorem measPowersUp : Obligations.MeasPowersUp := by
  intro s off
  refine ⟨fun i => ?_, ?_⟩
  · have slice := s.slice_domainOn_meas off i
    have status := s.calStatus_domainOn_meas off i
    have bank : (s.domainOn .meas).flag (Reg.SLICE_CAL_STATUS i) Fld.SLICE_CAL_STATUS_BANK = false := by
      rw [State.flag, status]
      decide
    have counts := s.calCounts_domainOn_meas off i
    simp only [calCounts, List.forall_mem_cons] at counts
    obtain ⟨cals, rejects, lo, hi, -⟩ := counts
    refine ⟨?_, ?_, bank, ?_, ?_, ?_, cals, rejects, lo, hi, ?_⟩
    · rw [slice]
    · rw [slice]
    · simp [State.trimInForce, bank, slice]
    · rw [slice]
    · rw [State.flag, status]
      decide
    · rw [s.offline_domainOn_meas off, Fin.ext_iff]
      exact eq_comm
  · rw [s.domainOn_meas off, State.refStart_reel]
    rfl

end Sys2Proof.Machine
end
